-- ==== Sys2Proof/Word.lean ====
section
/-!
DEFINITION. The words of the Drimar: bytes, 64-bit register words (R5), and the sparse store in which State keeps everything that is
indexed by a number (registers by offset, memory bytes by device address, cells by cell index, ...).
-/
namespace Sys2Proof

/-- A byte. -/
abbrev Byte := BitVec 8

/-- The contents of one 64-bit register (R5). -/
abbrev Word := BitVec 64

/-- A 32-bit element of a vector register, accumulator bank or summary register. -/
abbrev W32 := BitVec 32

/-- A sparse store: pairs of key and value, keys strictly rising, no pair equal to what an unlisted key reads as. The
operations on it are in Machine/Ops.lean. -/
abbrev Store (α : Type) := List (Nat × α)

end Sys2Proof
end

