-- ==== Sys2Proof/Syntax.lean ====
section
/-!
DEFINITION. The commands of the Drimar: one constructor of Instr per row of the command table, with the row's operands. A command is
something that reaches the device or one of its engines: a packet at a router or port, a register write, an instruction that a task context or a
sequencer issues, a timer that comes due, an edge on a pin. The command table gives no operand fields; the operands here are those that the
rules of the row need (log entry 1).
-/
namespace Sys2Proof

/-! ### Indexes (chapter 01 and the register maps) -/

/-- A cell index 128·y + x (R13). -/
abbrev CellIdx := Fin 8192
/-- A task context of a cell, TC0 to TC3 (R40). -/
abbrev TcIdx := Fin 4
/-- A comb index 4·cy + cx (R13). -/
abbrev CombIdx := Fin 16
/-- A sequencer of a comb (R143). -/
abbrev SeqIdx := Fin 4
/-- A forager of a base die (R179). -/
abbrev ForIdx := Fin 16
/-- A partition (R21). -/
abbrev PartIdx := Fin 16
/-- A context of the scheduler (R235). -/
abbrev CtxIdx := Fin 64
/-- A view: 0 is the operator view, 1 + p the view of partition p (R379). -/
abbrev View := Fin 17
/-- A request entry (R209). -/
abbrev ReqIdx := Fin 16384

/-! ### Mesh packets (chapter 02) -/

/-- The routing flit (Tables 2-5 and 2-6). -/
structure Flit where
  gen : BitVec 8
  part : BitVec 4
  vc : BitVec 2
  srcRouted : Bool
  eject : BitVec 2
  len : BitVec 7
  dstX : BitVec 7
  dstY : BitVec 6
  srcX : BitVec 7
  srcY : BitVec 6
  tc : BitVec 2
  queue : BitVec 4
  kind : BitVec 8
  route : BitVec 64
  tag : BitVec 16
  addr : BitVec 48
  deriving DecidableEq, Repr

/-- A packet: its routing flit and its payload, 64 bytes a flit (R46). -/
structure Packet where
  flit : Flit
  payload : List Byte
  deriving DecidableEq, Repr

/-- The operand fields of a cell instruction word (R141). -/
structure CellOps where
  d : BitVec 6
  a : BitVec 6
  b : BitVec 6
  c : BitVec 6
  imm : BitVec 32
  deriving DecidableEq, Repr

/-- The register fields of a custom sequencer instruction (R151). -/
structure SeqOps where
  rd : BitVec 5
  rs1 : BitVec 5
  rs2 : BitVec 5
  deriving DecidableEq, Repr

/-! ### Link flits and Frarax packets (chapter 11) -/

/-- A port of the Frarax fabric: brood links L0 to L6 are 0 to 6, fabric ports F0 to F11 are 7 to 18 (R320). -/
abbrev PortIdx := Fin 19

/-- A link flit as received (Table 11-2). -/
structure LinkFlit where
  crc : BitVec 32
  lseq : BitVec 16
  lack : BitVec 16
  cls : BitVec 2
  typ : BitVec 2
  crdCtrl : Byte
  crdResp : Byte
  crdData : Byte
  start : Byte
  payload : List Byte
  deriving DecidableEq, Repr

/-- A Frarax packet (Table 11-5) without its KIND, which the command that carries it gives. ARG holds bytes 33 to 63, byte 33 lowest. -/
structure FrPkt where
  hcrc : BitVec 32
  relayed : Bool
  retx : Bool
  cls : BitVec 2
  plen : Byte
  tryCount : Byte
  dst : BitVec 18
  src : BitVec 18
  domain : BitVec 16
  session : BitVec 16
  fseq : BitVec 32
  epoch : Word
  ctx : BitVec 6
  arg : BitVec 248
  payload : List Byte
  deriving DecidableEq, Repr

/-- A Frarax packet with the port that it arrives on. -/
structure LinkPkt where
  port : PortIdx
  pkt : FrPkt
  deriving DecidableEq, Repr

/-! ### Ring frames and host ports (chapter 12) -/

/-- A ring port: 0 RING_A, 1 RING_B. -/
abbrev RingIdx := Fin 2
/-- A host port E0 to E3. -/
abbrev HostPort := Fin 4
/-- A queue pair (R381). -/
abbrev QpIdx := Fin 4096
/-- A clock domain with a PLL (Table 13-1). -/
abbrev DomIdx := Fin 36
/-- A launch slot (R415). -/
abbrev SlotIdx := Fin 32

/-- A ring frame (Table 12-1) without its KIND, which the command that carries it gives. ARG holds bytes 36 to 63, byte 36 lowest. -/
structure RingFrame where
  hcrc : BitVec 32
  repair : Bool
  turns : BitVec 2
  up : Bool
  hops : Byte
  plen : Byte
  src : BitVec 7
  dst : Byte
  hseq : BitVec 16
  fwdAck : BitVec 16
  domain : BitVec 16
  stream : BitVec 16
  shard : Byte
  seq : BitVec 32
  offset : Word
  pcrc : BitVec 32
  arg : BitVec 224
  payload : List Byte
  deriving DecidableEq, Repr

/-- A received Ethernet frame as R378, R379, R387 and R388 look at it: length in bytes, number of 802.1Q tags, priority, destination MAC, whether it
is MACsec-protected and passed validation, and whether it is marked ECN-CE for a QP. -/
structure EthFrame where
  len : BitVec 16
  tags : BitVec 2
  prio : BitVec 3
  dst : BitVec 48
  secured : Bool
  valid : Bool
  ceQp : Option QpIdx
  deriving DecidableEq, Repr

/-- What a NAK to an operation of the Drimar says (the InfiniBand RC transport). -/
inductive NakKind where
  | sequence
  | invalid
  | access
  | operation
  | rnr
  deriving DecidableEq, Repr

/-! ### Firefly, power, boot and BIST (chapters 13 to 16) -/

/-- A FIREFLY message as it arrives: in a ring frame on a ring port, or in a Frarax packet (R407). -/
inductive FireflyMsg where
  | ring (a : RingIdx) (x : RingFrame)
  | frarax (x : FrPkt)
  deriving DecidableEq, Repr

/-- The activity estimates of one microsecond before scaling (Table 14-1), in mW: compute dies and base dies by comb, T1 channels by
granule, LP6, the traffic and idle parts of rails 4 and 5, MG, and the bytes of each partition in LP6, link and host traffic. -/
structure PwrSample where
  cd : List (BitVec 32)
  bd : List (BitVec 32)
  t1 : List (BitVec 32)
  lp6 : BitVec 32
  vio : BitVec 32
  vpe : BitVec 32
  vioIdle : BitVec 32
  vpeIdle : BitVec 32
  mg : BitVec 32
  lp6Bytes : List (BitVec 32)
  linkBytes : List (BitVec 32)
  hostBytes : List (BitVec 32)
  deriving DecidableEq, Repr

/-- A failed test: die index of R12, unit of Table 16-1, and the cell, if a cell failed. -/
structure BistFail where
  die : BitVec 6
  unit : BitVec 4
  cell : Option CellIdx
  deriving DecidableEq, Repr

/-- Capacities of LP6 modules (R175). -/
inductive Lp6Size where
  | gib64
  | gib128
  | gib256
  deriving DecidableEq, Repr

/-- What the hardware reports at the end of a boot stage: a failure code of Table 15-3 (0 for none), whether the PUF key was rebuilt (stage 2), the words
corrected and found uncorrectable (stage 3), the working module of each LP6 port (stage 6) and failed tests (stage 7). -/
structure StageOut where
  code : BitVec 4
  puf : Bool
  corrected : List (Fin 1024)
  bad : List (Fin 1024)
  lp6 : List (Option Lp6Size)
  bist : List BistFail
  deriving DecidableEq, Repr



/-- The commands, in the order of the command table. -/
inductive Instr where
  /-- REGISTER_WRITE (R8): A write to a register that has no row of its own stores, sets or clears bits by its access code, or has no effect under R6, R7 or R10. -/
  | registerWrite (v : View) (off : BitVec 28) (val : Word)
  /-- PACKET_INJECT (R51): The injecting router writes PART and checks the source route, EJECT and partition fence before the first flit enters the mesh, refusing bad packets. -/
  | packetInject (c : CellIdx) (p : Packet)
  /-- TILE (R43): A TILE packet ejects into its stream queue after the generation check, and a task context waiting on that queue becomes READY. -/
  | tile (p : Packet)
  /-- READ_REQ (R180): A memory controller or cell serves a tile read by class priority and returns the data straight to the landing cell. -/
  | readReq (p : Packet)
  /-- READ_RESP (R180): Read data lands in the named queue slot or tile buffer of the landing cell, and a waiting task context becomes READY. -/
  | readResp (p : Packet)
  /-- WRITE (R172): A write of T0 or T1 is performed atomically per 512-byte unit and acknowledged, unless it hits a protected image area. -/
  | write (p : Packet)
  /-- WRITE_ACK (R172): A write acknowledgement reaches its forager or cell and completes the write for drain and SQ.WAIT. -/
  | writeAck (p : Packet)
  /-- QCREDIT (R43): A QCREDIT packet returns one queue credit to the producer, which may leave WAIT_OUT. -/
  | qcredit (p : Packet)
  /-- SUMMARY (R36): A SUMMARY packet writes a summary register of the named task context, or a sequencer register q0–q15, and sets its valid flag. -/
  | summary (p : Packet)
  /-- WKC_FETCH_ADD (R126): The home cell returns the current counter value and adds INC, faulting on INC 0, a reserved OP or overflow. -/
  | wkcFetchAdd (p : Packet)
  /-- WKC_READ (R125): The home cell returns the current value of a work counter. -/
  | wkcRead (p : Packet)
  /-- WKC_RESET (R127): The home cell resets a work counter to 0, or raises FLT_COUNTER if the counter is live. -/
  | wkcReset (p : Packet)
  /-- WKC_RESP (R125): A work-counter reply reaches the requester with the value. -/
  | wkcResp (p : Packet)
  /-- CFG_WRITE (R39): A configuration record is written into the shadow bank if its generation is the active one plus 1, otherwise discarded and counted. -/
  | cfgWrite (p : Packet)
  /-- CFG_ACK (R155): A cell acknowledges its shadow-bank write, and the load ends once every cell has acknowledged its last write. -/
  | cfgAck (p : Packet)
  /-- CELL_DRAIN_SEND (R159): A cell sends DRAIN to its collector once all its task contexts are DONE or UNUSED, its queues are empty and its writes are acknowledged. -/
  | cellDrainSend (c : CellIdx)
  /-- DRAIN (R159): The comb collector counts one DRAIN packet from a cell. -/
  | drain (p : Packet)
  /-- DRAIN_BARRIER_COMPLETE (R159): Once all 512 cells and the foragers are done, the comb reports over the sideband and the drain barrier completes. -/
  | drainBarrierComplete (p : PartIdx)
  /-- STALL_WATCHDOG (R61): A task context that waits without progress for the watchdog limit raises FLT_STALL, recorded once per comb and step epoch. -/
  | stallWatchdog (c : CellIdx) (t : TcIdx)
  /-- STEER_TILE (R58): A steering context routes one tile by its construct, checking and rewriting the CRC on header changes and faulting on a bad selector. -/
  | steerTile (c : CellIdx) (t : TcIdx)
  /-- DBG_TC_HALT (R64): Setting or clearing a TC_HALT bit halts a task context after its current instruction or makes it READY. -/
  | dbgTcHalt (v : View) (c : CellIdx) (halt : BitVec 4)
  /-- DBG_FREEZE (R64): FREEZE makes every counter of the cell hold its value or count again. -/
  | dbgFreeze (v : View) (c : CellIdx) (freeze : Bool)
  /-- DBG_CLR (R65): A write of 1 to CLR clears every counter of the cell, and CLR clears itself within 1 µs. -/
  | dbgClr (v : View) (c : CellIdx)
  /-- NOP (R141): The cell instruction NOP does nothing. -/
  | nop (c : CellIdx) (t : TcIdx) (o : CellOps)
  /-- END (R141): END ends the task context's program, which enters DONE once every output has carried END_OF_STREAM. -/
  | endProgram (c : CellIdx) (t : TcIdx) (o : CellOps)
  /-- JUMP (R141): JUMP continues at word IMM. -/
  | jump (c : CellIdx) (t : TcIdx) (o : CellOps)
  /-- BNZ (R141): BNZ jumps to word IMM when operand A is nonzero. -/
  | bnz (c : CellIdx) (t : TcIdx) (o : CellOps)
  /-- TAKE (R103): TAKE moves a tile from an input queue into a buffer, entering WAIT_IN when the queue is empty and checking the tile at first use. -/
  | take (c : CellIdx) (t : TcIdx) (o : CellOps)
  /-- PUT (R120): PUT sends a buffer as a tile on an output, spending a credit, spilling, or waiting in WAIT_OUT, with producer count checks. -/
  | put (c : CellIdx) (t : TcIdx) (o : CellOps)
  /-- LDROW (R141): LDROW moves buffer rows into D and the registers after it. -/
  | ldrow (c : CellIdx) (t : TcIdx) (o : CellOps)
  /-- STROW (R141): STROW moves A and the registers after it into buffer rows. -/
  | strow (c : CellIdx) (t : TcIdx) (o : CellOps)
  /-- CHAIN (R84): The CHAIN instruction starts a chain index, checking operand pair, split alignment and tree slots. -/
  | chain (c : CellIdx) (t : TcIdx) (o : CellOps)
  /-- RDBANK (R141): RDBANK moves an accumulator bank into a tile buffer. -/
  | rdbank (c : CellIdx) (t : TcIdx) (o : CellOps)
  /-- SUMSEND (R141): SUMSEND sends an s register as a SUMMARY on an output into a named register. -/
  | sumsend (c : CellIdx) (t : TcIdx) (o : CellOps)
  /-- WAITSUM (R40): WAITSUM waits in WAIT_IN until an s register is valid. -/
  | waitsum (c : CellIdx) (t : TcIdx) (o : CellOps)
  /-- TILE_PRODUCT_DONE (R81): A tile product completes and its subtree sum is combined with the pending sums of the chain. -/
  | tileProductDone (c : CellIdx) (t : TcIdx) (j : Fin 8)
  /-- FP32_ADD (R86): FP32 addition of A and B, rounded once. -/
  | fp32Add (c : CellIdx) (t : TcIdx) (o : CellOps)
  /-- FP32_SUB (R86): FP32 subtraction A − B, rounded once. -/
  | fp32Sub (c : CellIdx) (t : TcIdx) (o : CellOps)
  /-- FP32_MUL (R86): FP32 multiplication, rounded once. -/
  | fp32Mul (c : CellIdx) (t : TcIdx) (o : CellOps)
  /-- FP32_FMA (R86): FP32 A × B + C computed exactly and rounded once. -/
  | fp32Fma (c : CellIdx) (t : TcIdx) (o : CellOps)
  /-- FP32_NEG (R86): FP32 negation of A. -/
  | fp32Neg (c : CellIdx) (t : TcIdx) (o : CellOps)
  /-- FP32_ABS (R86): FP32 absolute value of A. -/
  | fp32Abs (c : CellIdx) (t : TcIdx) (o : CellOps)
  /-- FP32_MIN (R87): FP32 minimum with NaN and signed-zero rules. -/
  | fp32Min (c : CellIdx) (t : TcIdx) (o : CellOps)
  /-- FP32_MAX (R87): FP32 maximum with NaN and signed-zero rules. -/
  | fp32Max (c : CellIdx) (t : TcIdx) (o : CellOps)
  /-- FP32_CMP (R87): FP32 compare by the condition in IMM, writing all ones or zero. -/
  | fp32Cmp (c : CellIdx) (t : TcIdx) (o : CellOps)
  /-- SEL (R87): SEL writes A where the mask in C is nonzero and B elsewhere. -/
  | sel (c : CellIdx) (t : TcIdx) (o : CellOps)
  /-- BF16_ADD (R86): Packed BF16 addition, each lane rounded once. -/
  | bf16Add (c : CellIdx) (t : TcIdx) (o : CellOps)
  /-- BF16_SUB (R86): Packed BF16 subtraction, each lane rounded once. -/
  | bf16Sub (c : CellIdx) (t : TcIdx) (o : CellOps)
  /-- BF16_MUL (R86): Packed BF16 multiplication, each lane rounded once. -/
  | bf16Mul (c : CellIdx) (t : TcIdx) (o : CellOps)
  /-- BF16_FMA (R86): Packed BF16 fused multiply-add, each lane rounded once. -/
  | bf16Fma (c : CellIdx) (t : TcIdx) (o : CellOps)
  /-- BF16_MIN (R86): Packed BF16 minimum. -/
  | bf16Min (c : CellIdx) (t : TcIdx) (o : CellOps)
  /-- BF16_MAX (R86): Packed BF16 maximum. -/
  | bf16Max (c : CellIdx) (t : TcIdx) (o : CellOps)
  /-- INT32_ADD (R86): INT32 wrapping addition. -/
  | int32Add (c : CellIdx) (t : TcIdx) (o : CellOps)
  /-- INT32_SUB (R86): INT32 wrapping subtraction. -/
  | int32Sub (c : CellIdx) (t : TcIdx) (o : CellOps)
  /-- INT32_MUL (R86): INT32 multiplication keeping the low 32 bits. -/
  | int32Mul (c : CellIdx) (t : TcIdx) (o : CellOps)
  /-- INT32_AND (R86): INT32 bitwise AND. -/
  | int32And (c : CellIdx) (t : TcIdx) (o : CellOps)
  /-- INT32_OR (R86): INT32 bitwise OR. -/
  | int32Or (c : CellIdx) (t : TcIdx) (o : CellOps)
  /-- INT32_XOR (R86): INT32 bitwise XOR. -/
  | int32Xor (c : CellIdx) (t : TcIdx) (o : CellOps)
  /-- INT32_SHL (R86): INT32 left shift by the low 5 bits of the count. -/
  | int32Shl (c : CellIdx) (t : TcIdx) (o : CellOps)
  /-- INT32_SHR (R86): INT32 logical right shift by the low 5 bits of the count. -/
  | int32Shr (c : CellIdx) (t : TcIdx) (o : CellOps)
  /-- INT32_SAR (R86): INT32 arithmetic right shift by the low 5 bits of the count. -/
  | int32Sar (c : CellIdx) (t : TcIdx) (o : CellOps)
  /-- INT32_MIN (R86): INT32 minimum. -/
  | int32Min (c : CellIdx) (t : TcIdx) (o : CellOps)
  /-- INT32_MAX (R86): INT32 maximum. -/
  | int32Max (c : CellIdx) (t : TcIdx) (o : CellOps)
  /-- INT32_CMP (R86): INT32 compare. -/
  | int32Cmp (c : CellIdx) (t : TcIdx) (o : CellOps)
  /-- UINT16_ADDS (R86): Saturating UINT16 addition in bits [15:0] of each element. -/
  | uint16Adds (c : CellIdx) (t : TcIdx) (o : CellOps)
  /-- CONVERT (R72): Vector conversion to the format in IMM, by Table 3-4 or by the MX block rule. -/
  | convert (c : CellIdx) (t : TcIdx) (o : CellOps)
  /-- EXP2 (R91): Special function EXP2 by its fixed procedure. -/
  | exp2 (c : CellIdx) (t : TcIdx) (o : CellOps)
  /-- LOG2 (R91): Special function LOG2 by its fixed procedure. -/
  | log2 (c : CellIdx) (t : TcIdx) (o : CellOps)
  /-- RSQRT (R91): Special function RSQRT by its fixed procedure. -/
  | rsqrt (c : CellIdx) (t : TcIdx) (o : CellOps)
  /-- RCP (R91): Special function RCP by its fixed procedure. -/
  | rcp (c : CellIdx) (t : TcIdx) (o : CellOps)
  /-- TANH (R91): Special function TANH by its fixed procedure. -/
  | tanh (c : CellIdx) (t : TcIdx) (o : CellOps)
  /-- BROW_ADD (R88): Row broadcast of a vector with ADD over a tile or bank. -/
  | browAdd (c : CellIdx) (t : TcIdx) (o : CellOps)
  /-- BROW_SUB (R88): Row broadcast with SUB. -/
  | browSub (c : CellIdx) (t : TcIdx) (o : CellOps)
  /-- BROW_MUL (R88): Row broadcast with MUL. -/
  | browMul (c : CellIdx) (t : TcIdx) (o : CellOps)
  /-- BROW_MIN (R88): Row broadcast with MIN. -/
  | browMin (c : CellIdx) (t : TcIdx) (o : CellOps)
  /-- BROW_MAX (R88): Row broadcast with MAX. -/
  | browMax (c : CellIdx) (t : TcIdx) (o : CellOps)
  /-- BCOL_ADD (R88): Column broadcast of a vector with ADD. -/
  | bcolAdd (c : CellIdx) (t : TcIdx) (o : CellOps)
  /-- BCOL_SUB (R88): Column broadcast with SUB. -/
  | bcolSub (c : CellIdx) (t : TcIdx) (o : CellOps)
  /-- BCOL_MUL (R88): Column broadcast with MUL. -/
  | bcolMul (c : CellIdx) (t : TcIdx) (o : CellOps)
  /-- BCOL_MIN (R88): Column broadcast with MIN. -/
  | bcolMin (c : CellIdx) (t : TcIdx) (o : CellOps)
  /-- BCOL_MAX (R88): Column broadcast with MAX. -/
  | bcolMax (c : CellIdx) (t : TcIdx) (o : CellOps)
  /-- RSUM (R88): Row sum over valid columns by the canonical tree. -/
  | rsum (c : CellIdx) (t : TcIdx) (o : CellOps)
  /-- RMAX (R88): Row maximum. -/
  | rmax (c : CellIdx) (t : TcIdx) (o : CellOps)
  /-- RMIN (R88): Row minimum. -/
  | rmin (c : CellIdx) (t : TcIdx) (o : CellOps)
  /-- CSUM (R88): Column sum over valid rows by the canonical tree. -/
  | csum (c : CellIdx) (t : TcIdx) (o : CellOps)
  /-- CMAX (R88): Column maximum. -/
  | cmax (c : CellIdx) (t : TcIdx) (o : CellOps)
  /-- CMIN (R88): Column minimum. -/
  | cmin (c : CellIdx) (t : TcIdx) (o : CellOps)
  /-- VSUM (R89): Scalar sum of c lanes into a summary register by the canonical tree. -/
  | vsum (c : CellIdx) (t : TcIdx) (o : CellOps)
  /-- VMAX (R89): Scalar maximum of c lanes into a summary register. -/
  | vmax (c : CellIdx) (t : TcIdx) (o : CellOps)
  /-- VMIN (R89): Scalar minimum of c lanes into a summary register. -/
  | vmin (c : CellIdx) (t : TcIdx) (o : CellOps)
  /-- VARGMAX (R89): Lane index of the maximum, lowest index winning ties. -/
  | vargmax (c : CellIdx) (t : TcIdx) (o : CellOps)
  /-- VARGMIN (R89): Lane index of the minimum, lowest index winning ties. -/
  | vargmin (c : CellIdx) (t : TcIdx) (o : CellOps)
  /-- SQ_BNDW (R115): The sequencer writes a bound register of its comb. -/
  | sqBndw (k : CombIdx) (j : SeqIdx) (o : SeqOps)
  /-- SQ_BNDR (R114): The sequencer reads a bound register. -/
  | sqBndr (k : CombIdx) (j : SeqIdx) (o : SeqOps)
  /-- SQ_ISSUE (R116): The sequencer issues a stream, which makes the issue-time checks and allocates resources or delivers one EMPTY tile on zero extent. -/
  | sqIssue (k : CombIdx) (j : SeqIdx) (o : SeqOps)
  /-- SQ_CHAIN (R121): The sequencer issues a chain on every cell of a station, computing n, b and c and sending EMPTY for absent parts. -/
  | sqChain (k : CombIdx) (j : SeqIdx) (o : SeqOps)
  /-- SQ_WAIT (R151): The sequencer waits until an issue has delivered END_OF_STREAM everywhere. -/
  | sqWait (k : CombIdx) (j : SeqIdx) (o : SeqOps)
  /-- SQ_SUMR (R151): The sequencer waits for a valid summary register and reads it with its flags. -/
  | sqSumr (k : CombIdx) (j : SeqIdx) (o : SeqOps)
  /-- SQ_SUMP (R151): The sequencer reads a summary register without waiting. -/
  | sqSump (k : CombIdx) (j : SeqIdx) (o : SeqOps)
  /-- SQ_WKC (R126): The sequencer makes a FETCH_ADD on a work counter. -/
  | sqWkc (k : CombIdx) (j : SeqIdx) (o : SeqOps)
  /-- SQ_WKCRST (R127): The sequencer resets a work counter. -/
  | sqWkcrst (k : CombIdx) (j : SeqIdx) (o : SeqOps)
  /-- SQ_PRELOAD (R157): The sequencer starts or cancels and restarts the shadow load of an instar. -/
  | sqPreload (k : CombIdx) (j : SeqIdx) (o : SeqOps)
  /-- SQ_MOLT (R158): A voter requests drain and flip to an instar, starting a load if needed and the drain barrier once all voters agree. -/
  | sqMolt (k : CombIdx) (j : SeqIdx) (o : SeqOps)
  /-- SQ_STAT (R151): The sequencer reads generation, active and shadow instar. -/
  | sqStat (k : CombIdx) (j : SeqIdx) (o : SeqOps)
  /-- SQ_STEP (R151): The sequencer waits for the start of a step of its context and gets its epoch. -/
  | sqStep (k : CombIdx) (j : SeqIdx) (o : SeqOps)
  /-- SQ_VOTE (R152): A sequencer casts the comb's COMMIT or ABORT vote. -/
  | sqVote (k : CombIdx) (j : SeqIdx) (o : SeqOps)
  /-- SQ_LAUNCH (R417): The sequencer waits until a launch slot fires. -/
  | sqLaunch (k : CombIdx) (j : SeqIdx) (o : SeqOps)
  /-- SEQUENCER_EXCEPTION (R149): A bad access, ECALL, EBREAK, illegal or reserved instruction raises FLT_CONFIG 0x0915 and aborts the step. -/
  | sequencerException (k : CombIdx) (j : SeqIdx)
  /-- FORAGER_TRANSFER_SEND (R183): A forager sends its next transfer in priority order once it holds a credit or free buffer set and is under its outstanding limit. -/
  | foragerTransferSend (k : CombIdx) (f : ForIdx)
  /-- FQ_LIMIT_WRITE (R182): A write of MEM_FQ_LIMIT sets a forager's outstanding limit, with no effect outside 1–64. -/
  | fqLimitWrite (v : View) (k : CombIdx) (f : ForIdx) (val : Word)
  /-- REGISTER (R145): MOLT_CMD REGISTER starts verification of an image on a FREE or REFUSED handle, or is refused. -/
  | registerImage (v : View) (p : PartIdx) (h : Fin 16) (origin : CombIdx)
  /-- REGISTRATION_END (R146): Registration finishes its checks and leaves the handle REGISTERED, with descriptors resolved and measurement extended, or REFUSED. -/
  | registrationEnd (p : PartIdx)
  /-- RETIRE (R148): MOLT_CMD RETIRE frees a REFUSED or an unused REGISTERED handle, or is refused. -/
  | retire (v : View) (p : PartIdx) (h : Fin 16)
  /-- FLIP_START (R162): Once the drain barrier is complete, the shadow is valid and 1 µs has passed since the last generation change, every cell switches banks. -/
  | flipStart (p : PartIdx)
  /-- FLIP_END (R162): The flip ends, the molt state returns to IDLE and SQ.MOLT returns on every voter. -/
  | flipEnd (p : PartIdx)
  /-- ABORTING_END (R163): The abort drain and re-tag complete, the molt state returns to IDLE and the loop replays, halts or waits. -/
  | abortingEnd (p : PartIdx)
  /-- LOADER_COPY (R191): The loader starts a COPY job after its checks, or ends it with a failing status. -/
  | loaderCopy (p : PartIdx)
  /-- LOADER_TRANSFORM (R192): The loader starts a TRANSFORM job that repacks a row-major tensor into tiles. -/
  | loaderTransform (p : PartIdx)
  /-- LOADER_JXP (R194): The loader starts a JXP job that decodes a packed stream into tiles. -/
  | loaderJxp (p : PartIdx)
  /-- LOADER_JOB_END (R190): A loader job ends with its STATUS, HEAD advances and a LOADER_DONE event may be written. -/
  | loaderJobEnd (p : PartIdx) (srcOk : Bool)
  /-- LD_TAIL_WRITE (R188): A write of MEM_LD_TAIL hands new job records to the loader, with no effect if the ring would overflow. -/
  | ldTailWrite (v : View) (p : PartIdx) (val : Word)
  /-- LD_BASE_WRITE (R203): A write of MEM_LD_BASE places the job ring and resets TAIL and HEAD, with no effect while a job runs. -/
  | ldBaseWrite (v : View) (p : PartIdx) (val : Word)
  /-- MS_CREATE (R198): MEM_MS_CMD CREATE makes a FREE model-store entry LOADING. -/
  | msCreate (v : View) (p : PartIdx) (e : Fin 512)
  /-- MS_SEAL (R198): MEM_MS_CMD SEAL makes a LOADING entry RESIDENT, binding the handle's digest. -/
  | msSeal (v : View) (p : PartIdx) (e : Fin 512) (h : Fin 16)
  /-- MS_DELETE (R198): MEM_MS_CMD DELETE frees an entry with no references. -/
  | msDelete (v : View) (p : PartIdx) (e : Fin 512)
  /-- PATROL_SLOT_CHECK (R200): The tile patrol reads and checks the next tile slot, requesting a repair on failure. -/
  | patrolSlotCheck
  /-- REPAIR_END (R201): A repair ends, rewriting failed tiles or setting the entry DAMAGED, and releases a loop waiting in HELD. -/
  | repairEnd (srcOk : Bool)
  /-- LOOP_START (R205): STEP_CTL START starts a serving loop, or is refused on a bad geometry. -/
  | loopStart (v : View) (c : CtxIdx)
  /-- LOOP_STOP (R235): STEP_CTL STOP stops admission, and the loop ends once no slot holds a request. -/
  | loopStop (v : View) (c : CtxIdx)
  /-- LOOP_RESUME (R253): STEP_CTL RESUME sets F to 0 and restarts a HALTED loop from its last commit. -/
  | loopResume (v : View) (c : CtxIdx)
  /-- SUBMIT (R212): A SUBMIT doorbell moves a FREE entry to SUBMITTED, and the checks make it QUEUED or FAILED. -/
  | submit (v : View) (p : PartIdx) (n : ReqIdx)
  /-- CANCEL (R214): A CANCEL doorbell sets CANCEL_REQ, which takes effect at the next commit. -/
  | cancel (v : View) (p : PartIdx) (n : ReqIdx)
  /-- RELEASE (R213): A RELEASE doorbell returns a terminal request entry to FREE. -/
  | release (v : View) (p : PartIdx) (n : ReqIdx)
  /-- REQ_DESC_WRITE (R210): A host write to a request description takes effect only while the entry is FREE, otherwise records FLT_HOSTPROTO 0x0B03. -/
  | reqDescWrite (v : View) (n : ReqIdx) (w : Fin 32) (val : Word)
  /-- STEP_BOUNDARY (R291): At a step boundary the scheduler makes at most one swap and chooses the next attempt among resident runnable contexts. -/
  | stepBoundary (p : PartIdx)
  /-- ATTEMPT_START (R216): A new attempt starts with a new epoch, admits queued requests into free slots and writes bound registers and serving tables. -/
  | attemptStart (c : CtxIdx)
  /-- EMPTY_COMMIT (R254): An empty commit takes a new epoch and applies pending cancels, suspends, QP and KV-loss failures without running the array. -/
  | emptyCommit (c : CtxIdx)
  /-- COMMIT_APPLIED (R247): Application of a commit ends, held host reads are answered and TAIL words and events are written. -/
  | commitApplied (c : CtxIdx)
  /-- HEAD_POLL (R231): Every 100 µs for a PAUSED request, or every 10 ms for a SUSPENDED one, the ring HEAD is read by RDMA READ. -/
  | headPoll (n : ReqIdx)
  /-- PAUSE_TIMEOUT (R231): A request PAUSED for 2 s becomes SUSPENDED and gives up its slot. -/
  | pauseTimeout (n : ReqIdx)
  /-- EVENT_HEAD_POLL (R233): Every 100 µs while events await room, the event ring HEAD is read. -/
  | eventHeadPoll (p : PartIdx)
  /-- DEMOTE (R224): STEP_PFX_CMD DEMOTE moves an unused VALID handle's blocks into T2. -/
  | demote (v : View) (p : PartIdx)
  /-- PFX_RELEASE (R224): STEP_PFX_CMD RELEASE frees a prefix handle and drops its block references. -/
  | pfxRelease (v : View) (p : PartIdx)
  /-- PREFIX_COPY_END (R224): A block copy of a demotion or promotion ends, advancing the handle toward DEMOTED or VALID. -/
  | prefixCopyEnd (b : BitVec 24)
  /-- START (R241): A member receives START(E) with the serving tables and enters EXECUTE if R331 is satisfied, otherwise votes ABORT. -/
  | start (x : FrPkt)
  /-- VOTE (R241): The lead counts a member's vote, sending ABORT(E) on ABORT or DECIDE(E, Tc) on the last COMMIT. -/
  | vote (x : FrPkt)
  /-- DECIDE (R241): A member receives DECIDE and answers ACK, unless it has already aborted. -/
  | decideMsg (x : FrPkt)
  /-- ACK (R241): The lead counts a member's ACK toward a final decision. -/
  | ack (x : FrPkt)
  /-- ABORT (R242): A member receives ABORT(E) and aborts its attempt with cause PEER. -/
  | abort (x : FrPkt)
  /-- ACK_DEADLINE (R241): At Tc − 1 µs with ACKs missing the lead raises 0x0C02 and sends ABORT(E). -/
  | ackDeadline (c : CtxIdx)
  /-- BROOD_COMMIT_APPLY (R241): At Tc every device holding a DECIDE and no ABORT applies the commit. -/
  | broodCommitApply (c : CtxIdx)
  /-- MEMBER_DECISION_TIMEOUT (R242): A member without a decision 50 µs after its COMMIT vote raises 0x0C01, aborts and votes ABORT. -/
  | memberDecisionTimeout (c : CtxIdx)
  /-- HANDOFF_TILE (R350): A handoff tile is written into the receive area, or dropped and marks the handoff bad. -/
  | handoffTile (x : FrPkt)
  /-- HANDOFF_COMMIT (R351): HANDOFF_COMMIT marks a handoff complete, and it is copied into the consume area when that area is free. -/
  | handoffCommit (x : FrPkt)
  /-- HANDOFF_COPY_END (R351): The copy into the consume area ends and the handoff counts as committed and unconsumed. -/
  | handoffCopyEnd (c : CtxIdx)
  /-- HANDOFF_ACK (R258): A stage receives HANDOFF_ACK and may start another attempt. -/
  | handoffAck (x : FrPkt)
  /-- CHOICE_TILE (R269): The source engine checks a choice tile's rows and sends one entry per chosen rank, then END at end of stream. -/
  | choiceTile (e : Fin 2) (p : PartIdx) (q : Fin 16) (tile : List Byte)
  /-- XPT_ENTRY (R271): The home engine merges an entry by key and admits or drops it against capacity. -/
  | xptEntry (x : LinkPkt)
  /-- XPT_END (R271): A member stream ends at the home's merge. -/
  | xptEnd (x : LinkPkt)
  /-- EXPERT_ADMIT_NOTIFY (R273): After the merge ends and input tiles are acknowledged, the home sends each expert's admitted count as a SUMMARY. -/
  | expertAdmitNotify (c : CtxIdx) (layer : BitVec 12)
  /-- EXPERT_OUTPUT_TILE (R275): An expert output tile reaches the home engine, which checks it and returns each row to its source. -/
  | expertOutputTile (e : Fin 2) (p : PartIdx) (q : Fin 16) (tile : List Byte)
  /-- XPT_RETURN (R276): The source engine accepts a returned row by epoch, SLOT_GEN and key and writes it into the return area. -/
  | xptReturn (x : LinkPkt)
  /-- XPT_DROP (R276): The source engine resolves an entry by a DROP notice. -/
  | xptDrop (x : LinkPkt)
  /-- COMBINE_NOTIFY (R277): When every sent entry is resolved and its tiles are acknowledged, the source writes the combine map and notifies the combine station. -/
  | combineNotify (c : CtxIdx) (layer : BitVec 12)
  /-- EXPERT_WAIT_TIMEOUT (R280): An expert engine waiting 50 µs without progress raises 0x0D11 and the step aborts. -/
  | expertWaitTimeout (c : CtxIdx) (e : Fin 2)
  /-- XPT_CLR (R286): XPT_CTL CLR clears every XPT counter of both IO dies. -/
  | xptClr (v : View)
  /-- CTX_ENABLE (R288): Setting SCHED_CTX ENABLE enables a context if partition state, handle and scope allow, otherwise records 0x0E12. -/
  | ctxEnable (v : View) (c : CtxIdx)
  /-- CTX_DISABLE (R288): Clearing ENABLE disables a STOPPED context. -/
  | ctxDisable (v : View) (c : CtxIdx)
  /-- CTX_SETTINGS_WRITE (R288): A write of HANDLE, BROOD or PRIO takes effect as R288 allows. -/
  | ctxSettingsWrite (v : View) (c : CtxIdx) (handle : BitVec 4) (brood : Bool) (prio : BitVec 3)
  /-- PREEMPT_TIMER (R297): The pre-emption timer expires and the attempt aborts uncounted with cause PREEMPT. -/
  | preemptTimer (p : PartIdx)
  /-- STEP_DEADLINE (R299): The step counter reaches DL, the device raises FLT_DEADLINE and votes ABORT. -/
  | stepDeadline (p : PartIdx)
  /-- PART_CREATE (R304): PART_CMD CREATE checks a FREE partition, writes the comb map, installs keys and starts scrubs. -/
  | partCreate (v : View) (p : PartIdx)
  /-- SCRUB_END (R307): A scrub ends and the partition becomes ACTIVE, or the teardown completes to FREE. -/
  | scrubEnd (p : PartIdx)
  /-- PART_SEAL (R305): PART_CMD SEAL extends MRP, locks debug and freezes an ACTIVE partition as SEALED. -/
  | partSeal (v : View) (p : PartIdx)
  /-- PART_TEARDOWN (R306): PART_CMD TEARDOWN ends the partition's attempts, fails its requests, retires its handles, scrubs and destroys keys. -/
  | partTeardown (v : View) (p : PartIdx)
  /-- PART_ISOLATE_WRITE (R309): A write of PART_GLB.ISOLATE takes effect only while every partition is FREE. -/
  | partIsolateWrite (v : View) (isolate : Bool)
  /-- PART_SHARE_WRITE (R303): A write of PART_SHARE applies from the next frame, or is refused with 0x0E11. -/
  | partShareWrite (v : View) (p : PartIdx) (val : Word)
  /-- PART_CAP_WRITE (R303): A write of PART_CAP applies from the next governor interval, or is refused with 0x0E11. -/
  | partCapWrite (v : View) (p : PartIdx) (val : Word)
  /-- ACCT_RELEASE (R314): ACCT_CMD RELEASE zeroes and frees a client record. -/
  | acctRelease (v : View) (j : BitVec 13)
  /-- ACCT_ZERO (R314): ACCT_CMD ZERO clears words 1–15 of a record. -/
  | acctZero (v : View) (j : BitVec 13)
  /-- LINK_FLIT (R322): A port receives a link flit, checking CRC and LSEQ, taking LACK and credits and sending NAK or resending on error. -/
  | linkFlit (l : PortIdx) (f : LinkFlit)
  /-- IDLE_FLIT_TIMER (R322): A port with nothing sent for 0.5 µs sends an IDLE flit. -/
  | idleFlitTimer (l : PortIdx)
  /-- PORT_TRAIN_START (R323): A DOWN port enters TRAIN 10 ms after entering DOWN. -/
  | portTrainStart (l : PortIdx)
  /-- PORT_TRAINED (R323): All lanes train and FEC locks, and the port enters HELLO. -/
  | portTrained (l : PortIdx)
  /-- PORT_TRAIN_TIMEOUT (R323): Training exceeds 25 ms and the port returns to DOWN with TRAIN_TIMEOUT. -/
  | portTrainTimeout (l : PortIdx)
  /-- PORT_HELLO_TIMEOUT (R323): HELLO does not complete within 1 ms and the port returns to DOWN with SILENCE. -/
  | portHelloTimeout (l : PortIdx)
  /-- PORT_SILENCE (R324): No link flit for 2 µs takes an UP port DOWN with cause SILENCE. -/
  | portSilence (l : PortIdx)
  /-- PORT_FEC_LIMIT (R324): More than 16 uncorrectable codewords within 1 ms take the port DOWN. -/
  | portFecLimit (l : PortIdx)
  /-- LANE_LOCK_LOSS (R324): A lane loses lock and the port goes DOWN with cause LANE. -/
  | laneLockLoss (l : PortIdx) (lanes : BitVec 8)
  /-- PORT_RETRAIN (R323): RETRAIN sends a DOWN port to TRAIN at once. -/
  | portRetrain (v : View) (l : PortIdx)
  /-- PORT_DISABLE (R323): DISABLE holds a port DISABLED, and clearing it returns the port to DOWN. -/
  | portDisable (v : View) (l : PortIdx) (disable : Bool)
  /-- HELLO (R328): A hello is received and recorded, completing HELLO, checking identity and re-evaluating brood formation, lead and flags. -/
  | hello (l : PortIdx) (x : FrPkt)
  /-- HELLO_TIMER (R325): Every 100 µs a port in HELLO or UP sends a HELLO. -/
  | helloTimer (l : PortIdx)
  /-- BROOD_FLAG_CLEAR (R327): MISMATCH or DUPLICATE clears 1 ms after its last cause ends. -/
  | broodFlagClear
  /-- E2E_ACK (R335): An E2E_ACK frees acknowledged packets of a flow and makes the node reachable. -/
  | e2eAck (x : FrPkt)
  /-- E2E_ACK_TIMER (R335): Within 2 µs of the first unacknowledged packet, or after 16, the receiver sends an E2E_ACK. -/
  | e2eAckTimer (src : BitVec 18) (cls : BitVec 2)
  /-- PACKET_RETRANSMIT (R335): An unacknowledged packet is sent again with RETX after 10 µs, or every 1 ms while the destination is unreachable. -/
  | packetRetransmit (dst : BitVec 18) (cls : BitVec 2) (fseq : BitVec 32)
  /-- NACK_UNREACH (R336): A relay's refusal makes the sender try the next relay or mark the node unreachable. -/
  | nackUnreach (x : FrPkt)
  /-- RELAY_FORWARD (R336): A relay sets RELAYED and forwards a packet on its own link, or answers NACK_UNREACH. -/
  | relayForward (kind : Byte) (x : FrPkt)
  /-- LINK_LOSS_RESEND (R337): 1 µs after a used brood link leaves UP, unacknowledged packets are resent through a relay. -/
  | linkLossResend (l : Fin 7)
  /-- HEARTBEAT (R340): A HEARTBEAT from a member or neighbour stage is noted. -/
  | heartbeat (x : FrPkt)
  /-- HEARTBEAT_TIMER (R340): A device sends HEARTBEAT to members every 20 µs, and a stage lead to neighbour stages every 100 µs. -/
  | heartbeatTimer (node : BitVec 18)
  /-- MEMBER_LOSS_TIMEOUT (R340): After 1 ms without heartbeat or 1 ms of unreachability, a member or neighbour stage is lost and loops abort with LOST. -/
  | memberLossTimeout (node : BitVec 18)
  /-- WITHDRAW (R340): A WITHDRAW from a peer takes the port DOWN and makes that device lost at once. -/
  | withdraw (l : PortIdx) (x : FrPkt)
  /-- LNK_DOMAIN_WRITE (R334): A write of LNK_DOMAIN sets a partition's domain, or records 0x0F41 when another partition holds it. -/
  | lnkDomainWrite (v : View) (p : PartIdx) (val : Word)
  /-- REMOTE_TILE (R343): The receiving IO die injects a remote TILE into the consumer queue after the epoch check. -/
  | remoteTile (x : FrPkt)
  /-- REMOTE_QCREDIT (R343): A remote QCREDIT returns credits to the remote producer. -/
  | remoteQcredit (x : FrPkt)
  /-- REMOTE_WKC_REQ (R129): A brood-wide work-counter request is served on the lead's home cell. -/
  | remoteWkcReq (x : FrPkt)
  /-- REMOTE_WKC_RESP (R129): A brood-wide work-counter reply reaches the requester. -/
  | remoteWkcResp (x : FrPkt)
  /-- SERVE_TILE (R218): A member receives a serving-table tile from the lead ahead of START. -/
  | serveTile (x : FrPkt)
  /-- COLL_DATA (R348): A collective engine accepts, repeats, holds or discards a piece by its stamp, reducing and delivering tiles when complete. -/
  | collData (x : FrPkt)
  /-- COLL_ABORT (R341): A rank whose active issue has the stamp aborts with 0x0F03; a rank that completed it ignores the message. -/
  | collAbort (x : FrPkt)
  /-- REMOTE_WAIT_TIMEOUT (R341): A remote queue, counter or collective wait 50 µs without progress fails with FLT_REMOTE_TIMEOUT or FLT_LINK_DOWN. -/
  | remoteWaitTimeout (j : Nat)
  /-- RHELLO (R362): A ring hello completes HELLO, measures Thop and checks neighbour identity. -/
  | rhello (a : RingIdx) (x : RingFrame)
  /-- RKEEP (R360): A keep-alive frame from a ring neighbour is taken. -/
  | rkeep (a : RingIdx) (x : RingFrame)
  /-- RLEAVE (R368): A neighbour's RLEAVE makes the port FAULTY at once and the device wraps. -/
  | rleave (a : RingIdx) (x : RingFrame)
  /-- EXPEL (R364): An expelled device sends RLEAVE, clears INSERT and records 0x1002. -/
  | expel (a : RingIdx) (x : RingFrame)
  /-- LOOP (R366): A LOOP frame is forwarded, or on return records HOPS and TURNS in LNK_RING_STAT. -/
  | loopFrame (a : RingIdx) (x : RingFrame)
  /-- CTRL_MSG (R372): A colony control message is kept once and acknowledged, or forwarded. -/
  | ctrlMsg (a : RingIdx) (x : RingFrame)
  /-- CTRL_ACK (R372): The origin of a unicast control message receives its acknowledgement. -/
  | ctrlAck (a : RingIdx) (x : RingFrame)
  /-- BC_DATA (R375): A keeper lands a broadcast frame that matches a running loader job, and the frame is forwarded cut-through. -/
  | bcData (a : RingIdx) (x : RingFrame)
  /-- BC_END (R376): A keeper with an incomplete range sends BC_NAK on BC_END. -/
  | bcEnd (a : RingIdx) (x : RingFrame)
  /-- BC_NAK (R376): The origin resends the covered frames with REPAIR ahead of new frames. -/
  | bcNak (a : RingIdx) (x : RingFrame)
  /-- HOP_MISS (R361): A sent ring frame not covered by FWD_ACK in time counts as a miss, and 3 misses in 100 µs make the hop faulty. -/
  | hopMiss (a : RingIdx) (hseq : BitVec 16)
  /-- HOP_SILENCE (R362): 4 µs without a flit from the neighbour make the hop faulty, record 0x1001 and start EXPEL. -/
  | hopSilence (a : RingIdx)
  /-- EXPEL_REPEAT (R362): EXPEL is sent again 1 µs apart, three times in all. -/
  | expelRepeat (a : RingIdx)
  /-- HOP_LOSS_TIMEOUT (R365): 10 ms after a faulty hop without RHELLO from the device, that device is lost through its hop. -/
  | hopLossTimeout (a : RingIdx)
  /-- LOOP_TIMER (R366): Every 1 ms an inserted device sends one LOOP frame DOWN. -/
  | loopTimer
  /-- RKEEP_TIMER (R360): A ring port idle for 0.5 µs sends RKEEP. -/
  | rkeepTimer (a : RingIdx)
  /-- RHELLO_TIMER (R362): Every 100 µs an UP ring port sends RHELLO. -/
  | rhelloTimer (a : RingIdx)
  /-- RING_INSERT (R367): A write of 1 to INSERT drives the switch to its inserted state, or records 0x1021. -/
  | ringInsert (v : View)
  /-- RING_REMOVE (R368): A write of 0 to INSERT sends RLEAVE on both ports before the drive is removed. -/
  | ringRemove (v : View)
  /-- DRIVE_REMOVAL (R368): 10 µs after RLEAVE the switch drive is removed. -/
  | driveRemoval
  /-- SWITCH_INSERTED (R369): The switch reaches its inserted state and both ring ports enter TRAIN. -/
  | switchInserted
  /-- SWITCH_BYPASSED (R369): The switch reaches by-pass. -/
  | switchBypassed
  /-- BYPASS_N_LOW (R370): BYPASS_N low for 1 µs removes the switch drive whatever else holds. -/
  | bypassNLow
  /-- RING_PORT_TRAINED (R362): A ring port's lanes lock and it enters HELLO. -/
  | ringPortTrained (a : RingIdx)
  /-- RING_TRAIN_TIMEOUT (R362): A ring port that does not lock within 2 ms of light becomes FAULTY. -/
  | ringTrainTimeout (a : RingIdx)
  /-- RING_HELLO_TIMEOUT (R362): A ring port without an RHELLO exchange within 100 µs becomes FAULTY. -/
  | ringHelloTimeout (a : RingIdx)
  /-- LIGHT_RETURN (R362): Light returns to a FAULTY ring port and it enters TRAIN. -/
  | lightReturn (a : RingIdx)
  /-- RING_RETRAIN (R362): RETRAIN_A or RETRAIN_B sends a FAULTY ring port to TRAIN. -/
  | ringRetrain (v : View) (a : RingIdx)
  /-- CTRL_MSG_RESEND (R372): Every 1 ms an unacknowledged control message is resent, failing to its user after 8 sends. -/
  | ctrlMsgResend (mseq : BitVec 32)
  /-- BC_START (R373): LNK_RB_CFG START checks and starts a broadcast origin slot. -/
  | bcStart (v : View) (k : Fin 4)
  /-- BC_CLOSE (R377): LNK_RB_CFG CLOSE returns a broadcast slot to IDLE. -/
  | bcClose (v : View) (k : Fin 4)
  /-- BC_FRAME_SEND (R374): The origin sends the next BC_DATA frame of its round within RATE. -/
  | bcFrameSend (k : Fin 4)
  /-- BC_END_REPEAT (R374): Every 2 ms until CLOSE the origin repeats BC_END for each shard. -/
  | bcEndRepeat (k : Fin 4)
  /-- BC_NAK_TIMER (R376): A keeper whose hole has lasted 2 ms sends or repeats BC_NAK. -/
  | bcNakTimer (p : PartIdx)
  /-- BROADCAST_JOB_TIMEOUT (R376): A broadcast-fed job with no byte for 100 ms ends with STATUS 3. -/
  | broadcastJobTimeout (p : PartIdx)
  /-- ETHERNET_FRAME (R378): A host port takes a received frame, dropping oversize, unknown-view or failed-MACsec frames and applying PFC thresholds. -/
  | ethernetFrame (e : HostPort) (f : EthFrame)
  /-- RDMA_WRITE (R383): An incoming RDMA WRITE into a CS or T1 region takes effect in order, or is refused with a NAK and 0x1011. -/
  | rdmaWrite (q : QpIdx) (va : Word) (rkey : BitVec 32) (data : List Byte)
  /-- RDMA_READ (R383): An incoming RDMA READ of a CS or T1 region is answered, or refused with a NAK and 0x1011. -/
  | rdmaRead (q : QpIdx) (va : Word) (rkey : BitVec 32) (len : BitVec 32)
  /-- SEND (R381): A SEND on a MGMT QP is delivered to firmware. -/
  | sendMsg (q : QpIdx) (data : List Byte)
  /-- RDMA_READ_RESPONSE (R381): Data of an RDMA READ that the Drimar requested returns: a ring HEAD, prompt tokens, a candidate buffer or loader data. -/
  | rdmaReadResponse (q : QpIdx) (data : List Byte)
  /-- RDMA_NAK (R381): A NAK to an operation the Drimar sent is taken, putting the QP in ERROR where the transport requires. -/
  | rdmaNak (q : QpIdx) (n : NakKind)
  /-- RDMA_RETRY_TIMEOUT (R381): The per-QP transport timeout expires, and the Drimar retransmits go-back-N or puts the QP in ERROR when retries are exhausted. -/
  | rdmaRetryTimeout (q : QpIdx)
  /-- CNP (R386): A received CNP halves the QP's send rate. -/
  | cnp (q : QpIdx)
  /-- RATE_INCREASE_TIMER (R386): After 55 µs without a CNP a QP's rate rises by 5 Gb/s. -/
  | rateIncreaseTimer (q : QpIdx)
  /-- PAUSE_FRAME (R387): A received PFC pause frame is honoured. -/
  | pauseFrame (e : HostPort) (prios : BitVec 8) (quanta : BitVec 16)
  /-- LLDP_TIMER (R389): Every 30 s each host port sends LLDP. -/
  | lldpTimer (e : HostPort)
  /-- LLDPDU (R389): A received LLDP frame updates LNK_HP_PEER. -/
  | lldpdu (e : HostPort) (chassis : BitVec 48) (port : BitVec 16)
  /-- QP_TO_INIT (R382): A STATE write moves a QP from RESET to INIT when the range and port role allow. -/
  | qpToInit (v : View) (q : QpIdx)
  /-- QP_TO_RTR (R382): A STATE write moves a QP from INIT to RTR. -/
  | qpToRtr (v : View) (q : QpIdx)
  /-- QP_TO_RTS (R382): A STATE write moves a QP from RTR to RTS. -/
  | qpToRts (v : View) (q : QpIdx)
  /-- QP_TO_RESET (R382): A STATE write moves a QP to RESET from any state. -/
  | qpToReset (v : View) (q : QpIdx)
  /-- QP_TO_ERROR (R382): A STATE write moves a QP to ERROR from any state. -/
  | qpToError (v : View) (q : QpIdx)
  /-- CLKIN_LOSS (R393): CLKIN without edges for 10 µs switches to the internal oscillator, ends attempts, removes the by-pass drive and holds reset. -/
  | clkinLoss
  /-- CLKIN_RETURN (R393): CLKIN present for 1 ms restarts the device with reset cause CLOCK. -/
  | clkinReturn
  /-- PLL_LOCK (R396): A PLL reports lock, allowing its multiplexer to switch after confirmation. -/
  | pllLock (d : DomIdx)
  /-- MUX_HANG (R397): A multiplexer not switched after 100 µs sets HANG and raises FLT_CLKMUX 0x1101. -/
  | muxHang (d : DomIdx)
  /-- DOMAIN_RESET (R398): A domain reset forces the safe clock, losing comb state with abort and reload, or restarting the device. -/
  | domainReset (v : View) (d : DomIdx)
  /-- FC_MEASURE (R399): A write of CLK_FC_CMD starts a frequency measurement, or reports BUSY or INVALID. -/
  | fcMeasure (v : View) (val : Word)
  /-- FC_DONE (R399): A frequency measurement completes with COUNT and PAUSES. -/
  | fcDone (count : BitVec 48)
  /-- MONITOR_POLL (R401): Every 10 ms the clock monitor measures every PLL and flags any off by more than 2 %. -/
  | monitorPoll
  /-- COMB_RET_ENTRY (R404): After RET_US without a runnable context the partition's combs enter RET. -/
  | combRetEntry (p : PartIdx)
  /-- COMB_OFF_ENTRY (R404): After OFF_MS in RET the partition's combs enter OFF. -/
  | combOffEntry (p : PartIdx)
  /-- COMB_TRANSITION_DONE (R403): A comb finishes entering RET or OFF, and a pending wake is then served. -/
  | combTransitionDone (k : CombIdx)
  /-- COMB_WAKE_DONE (R402): A comb reaches ACTIVE after a wake, releasing the START that waited for it. -/
  | combWakeDone (k : CombIdx)
  /-- FIREFLY_SEND_TIMER (R408): On its period a device sends a Firefly REQUEST on its ring ports, brood link or fabric. -/
  | fireflySendTimer (scope : Fin 3)
  /-- FIREFLY_REQUEST (R407): A Firefly REQUEST is answered with a REPLY carrying T2, T3 and the sender's state. -/
  | fireflyRequest (m : FireflyMsg)
  /-- FIREFLY_REPLY (R408): A REPLY yields an offset, updates uncertainty, parent, trim and slew, and may step SYSTIME or clear UNSURE. -/
  | fireflyReply (m : FireflyMsg)
  /-- PARENT_TIMEOUT (R412): No parent reply for 3 ms, or no swarm reply for 30 ms at a master, puts time in HOLDOVER. -/
  | parentTimeout
  /-- RESYNC (R406): A write of TIME_CTL.RESYNC requests a step of SYSTIME at the next suitable Firefly result. -/
  | resync (v : View)
  /-- PTP_MESSAGE (R414): An IEEE 1588 message on a MGMT port updates TIME_TOD_OFS. -/
  | ptpMessage (e : HostPort) (tod : Word)
  /-- LAUNCH_ARM (R416): CMD ARM arms a launch slot, makes the arming checks in order and sends READY or REFUSE. -/
  | launchArm (v : View) (n : SlotIdx) (val : Word)
  /-- LAUNCH_CANCEL (R415): CMD CANCEL ends a device-scope slot or refuses a multi-device launch before T − G. -/
  | launchCancel (v : View) (n : SlotIdx) (val : Word)
  /-- LAUNCH_REFUSE (R416): A READY or REFUSE verdict is taken, counted or kept, and a refusal sets the slot REFUSED with the carried cause. -/
  | launchRefuse (x : FrPkt)
  /-- VERDICT_EXPIRY (R416): A kept verdict for an unarmed launch is discarded when its T has passed. -/
  | verdictExpiry
  /-- LAUNCH_PRELOAD (R165): At T − G − 64 µs the shadow load of the target instar of a timed molt starts. -/
  | launchPreload (n : SlotIdx)
  /-- LAUNCH_GUARD (R416): At T − G each participant makes the guard check and the coordinator refuses if any READY is missing. -/
  | launchGuard (n : SlotIdx)
  /-- LAUNCH_MOLT (R166): At T a HELD MOLT drains at once and flips, and the first step starts at T. -/
  | launchMolt (n : SlotIdx)
  /-- LAUNCH_STEP_START (R418): At T the slot fires and the context's attempt starts ahead of every PRIO. -/
  | launchStepStart (n : SlotIdx)
  /-- LAUNCH_COLLECTIVE (R418): At T the slot fires and starts an attempt that may issue LAUNCHED collectives stamped with T. -/
  | launchCollective (n : SlotIdx)
  /-- LAUNCH_POWER_STATE (R418): At T the named combs move toward the target power state. -/
  | launchPowerState (n : SlotIdx)
  /-- LAUNCH_MODEL_SWITCH (R418): At T the context's handle changes and the molt to instar 0 of the new image flips. -/
  | launchModelSwitch (n : SlotIdx)
  /-- GOVERNOR_TICK (R422): Every 1 µs the governor forms power estimates and steps each ceiling by its control law. -/
  | governorTick (e : PwrSample)
  /-- CALIBRATION (R423): Every 1 ms each rail's scale is recalibrated, or kept with FLT_POWER 0x1201. -/
  | calibration (mw : List (BitVec 32)) (pkg : BitVec 32)
  /-- DROOP_DETECT (R429): A supply droop on a comb starts stretching to every second edge. -/
  | droopDetect (k : CombIdx)
  /-- DROOP_RECOVER (R429): After 32 passed edges and supply recovery droop stretching ends. -/
  | droopRecover (k : CombIdx)
  /-- THROT_IN_FALL (R431): THROT_IN_N low for 200 ns sets the EXT ceiling and starts EXT stretching. -/
  | throtInFall
  /-- THROT_IN_RISE (R431): After THROT_IN_N has been high for 100 µs the EXT ceiling starts to rise. -/
  | throtInRise
  /-- EXT_STRETCH_END (R431): A comb's PLL reaches the EXT ceiling and its EXT stretching ends. -/
  | extStretchEnd (k : CombIdx)
  /-- PWR_HB_BEAT (R433): A write of PWR_HB.BEAT is a heartbeat, starting supervision and lifting the safe cap. -/
  | pwrHbBeat (v : View)
  /-- SAFE_CAP_TIMEOUT (R433): 60 s without a heartbeat brings the safe cap into force. -/
  | safeCapTimeout
  /-- EMERGENCY_ABORT (R434): An estimate above 1.10 × cap for 20 µs at PEAK step 0 aborts every attempt uncounted and starts the emergency hold. -/
  | emergencyAbort
  /-- CURRENT_LIMIT (R434): A rail reaching its supply current limit makes an emergency power abort. -/
  | currentLimit (r : Fin 8)
  /-- EMERGENCY_HOLD_END (R434): After 100 µs below the cap the hold ends and the scheduler resumes. -/
  | emergencyHoldEnd
  /-- TEMP_POLL (R435): Every 10 µs the governor reads all temperature sensors and adjusts the THERM ceiling. -/
  | tempPoll (dies : List (BitVec 16)) (hbm : List (BitVec 16))
  /-- REASON_ANNOUNCE (R440): A chip-level reason beginning or ending after 100 ms is recorded and announced to every partition. -/
  | reasonAnnounce (j : Fin 7)
  /-- FIXED_MODE_WRITE (R439): A write of PWR_FIXED puts a partition in or out of fixed-frequency mode at its next step boundary. -/
  | fixedModeWrite (v : View) (p : PartIdx) (val : Word)
  /-- POWER_ON (R443): PG_AON rising with CLKIN present for 1 ms resets the device with cause POWER_ON and starts the boot. -/
  | powerOn
  /-- PORST_N (R444): PORST_N low for 10 µs then high resets the device, clearing BOOT_FAIL and the fault log. -/
  | porstN
  /-- PG_MAIN_FALL (R445): PG_MAIN falling at or after stage 6 ends attempts and drops the device to standby. -/
  | pgMainFall
  /-- PG_MAIN_RISE (R445): PG_MAIN rising lets stage 6 proceed, or resets with cause MAIN_POWER after a fall. -/
  | pgMainRise
  /-- MGMT_WATCHDOG (R443): The management watchdog expires after 2 s unserved and resets the device. -/
  | mgmtWatchdog
  /-- BOOT_STAGE_END (R446): A boot stage completes and the next stage starts, READY being set after stage 9. -/
  | bootStageEnd (o : StageOut)
  /-- BOOT_STAGE_TIMEOUT (R446): A stage over its limit fails the boot with TIMEOUT and starts the back-off. -/
  | bootStageTimeout
  /-- DHCPV6_REPLY (R454): A DHCPv6 reply gives the netboot boot-file URL. -/
  | dhcpv6Reply (e : HostPort) (url : List Byte)
  /-- TFTP_DATA (R454): A TFTP data block of the netboot image is received and acknowledged. -/
  | tftpData (e : HostPort) (oack : Option (BitVec 16)) (block : BitVec 16) (data : List Byte)
  /-- NETBOOT_PORT_TIMEOUT (R454): No usable DHCPv6 reply within 30 s, or a transfer over 60 s, fails netboot on the port. -/
  | netbootPortTimeout (e : HostPort)
  /-- BACKOFF_END (R455): The back-off ends and the device resets with cause RETRY. -/
  | backoffEnd
  /-- RESET (R443): BOOT_CMD RESET resets the device with cause OPERATOR. -/
  | reset (v : View)
  /-- RETRY_NOW (R455): BOOT_CMD RETRY_NOW ends the back-off at once. -/
  | retryNow (v : View)
  /-- CONTINUE (R448): BOOT_CMD CONTINUE releases stage 6 under HOLD. -/
  | continueBoot (v : View)
  /-- FW_WRITE (R453): BOOT_CMD FW_WRITE starts writing a firmware image into the slot that is not running, or is refused. -/
  | fwWrite (v : View) (slot : Bool)
  /-- FW_WRITE_END (R453): The slot write ends with the header written last and the slot checked. -/
  | fwWriteEnd
  /-- ARB_RAISE (R452): BOOT_CMD ARB_RAISE raises the anti-rollback value to the running SVN. -/
  | arbRaise (v : View)
  /-- PSR_WRITE (R459): A write of a persistent word is queued, or is refused as BUSY, locked or invalid. -/
  | psrWrite (v : View) (n : Fin 1024) (val : Word)
  /-- PSR_GROUP_COMMIT (R461): PSR_GRP_CMD GO queues up to 8 words as one journalled operation, or refuses the group. -/
  | psrGroupCommit (v : View) (count : BitVec 4)
  /-- PSR_OP_COMPLETE (R458): A persistent operation completes, updating words, wear counts and locks. -/
  | psrOpComplete
  /-- SLICE_DUE (R474): 2 s after READY or the previous slice, the next BIST slice falls due. -/
  | sliceDue
  /-- SLICE_START (R476): At a step boundary with headroom, or forced after 10 s, a slice starts on its group and holds the partition's START. -/
  | sliceStart
  /-- SLICE_SKIP (R477): A slice on an unowned comb without headroom for 10 s is skipped. -/
  | sliceSkip
  /-- SLICE_END (R475): A slice ends with restored state and its result, a failure marking the die under the policy in force. -/
  | sliceEnd (fail : Option BistFail)
  /-- QUOTE (R485): SEC_CMD QUOTE starts a signed attestation quote for the view, or is refused. -/
  | quote (v : View)
  /-- QUOTE_DONE (R485): The quote is written to SEC_QUOTE, RESULT reads done and SEC_KEYBUF is zeroed. -/
  | quoteDone (v : View)
  /-- KEY_ADD (R486): SEC_CMD KEY_ADD writes an image-signing key digest into a slot and extends MRP. -/
  | keyAdd (v : View) (p : PartIdx) (j : Fin 4)
  /-- KEY_CLEAR (R486): SEC_CMD KEY_CLEAR empties a key-digest slot. -/
  | keyClear (v : View) (p : PartIdx) (j : Fin 4)
  /-- MACSEC_CAK (R488): SEC_CMD MACSEC_CAK installs a view's CAK for its next MKA session. -/
  | macsecCak (v : View)
  /-- DBG_LOCK (R490): A write of 1 to SEC_DBG_LOCK.LOCK locks the DBG block until the next reset. -/
  | dbgLock (v : View)
  /-- RAIL_UNDERVOLTAGE (R505): A main rail below 90 % for 2 µs while PG_MAIN is high records 0x1501 and acts as a fall of PG_MAIN. -/
  | railUndervoltage (r : Fin 8)
  /-- FAULT_RECORD_WRITE (R523): The collector writes the next queued fault record into the log and advances WRITTEN. -/
  | faultRecordWrite
  /-- RDMA_ACK (R381): An incoming RoCEv2 acknowledgement for an RDMA WRITE, SEND or READ that the Drimar sent retires it from the QP's go-back-N retransmission state. -/
  | rdmaAck (q : QpIdx) (psn : BitVec 24)
  /-- SEQUENCER_BASE_INSTRUCTION (R149): A sequencer executes an ordinary RV64IMC instruction in its text, such as a load, store, branch or arithmetic on its registers and data memory. -/
  | sequencerBaseInstruction (k : CombIdx) (j : SeqIdx)
  /-- PG_AON_FALL (R504): PG_AON goes low, or VMG is lost, and the device stops, ignores PG_MAIN, leaves the by-pass unpowered and keeps each persistent word old or new. -/
  | pgAonFall
  /-- PORST_N_LOW (R444): PORST_N held low for 10 µs puts every die in reset, ends attempts, removes the switch drive and releases TRIP_N and ALERT_N until it rises. -/
  | porstNLow
  /-- BYPASS_N_HIGH (R370): BYPASS_N returns high, LNK_RING_STAT.BYPASS_N clears and writes of 1 to INSERT may take effect again. -/
  | bypassNHigh
  /-- MONITOR_POLL_END (R400): The clock monitor's poll finishes measuring every PLL, flags domains off target with FLT_CLKMUX 0x1102, yields the counter and resumes a paused software measurement. -/
  | monitorPollEnd (counts : List (BitVec 48))
  /-- HOST_PORT_UP (R378): A host port's PHY link comes up and LNK_HP_STAT.STATE becomes UP. -/
  | hostPortUp (e : HostPort)
  /-- HOST_PORT_DOWN (R378): A host port's PHY link is lost and LNK_HP_STAT.STATE becomes DOWN. -/
  | hostPortDown (e : HostPort)
  deriving DecidableEq, Repr

end Sys2Proof
end

