-- ==== Sys2Proof/Config.lean ====
section
/-!
DEFINITION. What a part fixes and the manual leaves open. Each constant is opaque: nothing can be proved about the values.
-/
namespace Sys2Proof

/-- Draws of the hardware random number generator of MG: keys of views (R384), sessions (R331), per-signature secrets (R485). The argument is the
model's counter of free values. -/
opaque Config.random : Nat → Word

/-- Elements that the manual states no value for: an undefined operand code, a conversion outside Table 3-4. By draw, row and column. -/
opaque Config.freeElem : Nat → Nat → Nat → W32

/-- Shipped values of the persistent words that are unique to a part (Table 15-7: words 2, 11 to 18 and 20). -/
opaque Config.shipped : Nat → Word

/-- SHA-512 over the ROM, byte by byte (Table 16-4). -/
opaque Config.romDigest : Nat → Byte

/-- The Yalhan key digest held in ROM (Table 15-5, check 4). -/
opaque Config.yalhanKey : Nat → Byte

/-- The device certificate (R483): its length and bytes. -/
opaque Config.certLen : Nat
opaque Config.cert : Nat → Byte

/-- Bytes of the quote's signature pair (R485), by draw and byte. -/
opaque Config.quoteSig : Nat → Nat → Byte

/-- The fixed fraction of Table 14-1 for distribution and other consumers, in parts per million. -/
opaque Config.auxPpm : Nat

/-- The fixed baseline of MG's firmware clock settings: target frequencies in MHz of the domains set by training or firmware (Table 13-1). -/
opaque Config.domainMhz : Nat → Nat

/-- Errors that the DRAM of T1 and T2 makes in a tick (R173, R175; log entry 92), by the model's counter of free values: the 512-byte unit of a device address, and
whether it cannot be corrected. -/
opaque Config.dramError : Nat → Option (Nat × Bool)

/-- The result word of a row that yields no token, beside its code (log entry 30). -/
opaque Config.noToken : Word

/-- The highest step at which the calibrated estimate gives at most a power (R431): package estimate and limit in mW. -/
opaque Config.stepFor : Nat → Nat → Nat

end Sys2Proof
end

