-- ==== Sys2Proof/Machine/Regs.lean ====
section
/-!
DEFINITION. The control space of the Drimar as data: the offset of every register (Table 18-9 and the register maps it gathers, the block
offsets of Table 18-2 added), the fields of the field maps, and one row per register with its access code, its reset value and the bits that
a write may reach. Offsets are byte offsets in the 256 MiB control space. Names are the manual's.
-/
namespace Sys2Proof

/-- A field of a register: its lowest bit and its width (R4). -/
structure Fld where
  lo : Nat
  w : Nat
  deriving DecidableEq, Repr

/-- Access codes of Table 0-4. -/
inductive Access where
  | ro | rw | w1c | w1s | wp | rwl
  deriving DecidableEq, Repr

/-- One row of a register map: the register's name, its base offset, the strides and counts of its indexes (outermost first), its
reset value, its access code, the bits a write stores and the bits a written 1 sets. -/
structure RegRow where
  name : String
  base : Nat
  dims : List (Nat × Nat)
  reset : Nat
  access : Access
  mask : Nat
  w1s : Nat
  deriving DecidableEq, Repr

/-- GLB_ID (Table 1-8 of R26). -/
def Reg.GLB_ID : Nat := 0x0
/-- GLB_NODE (Table 1-8 of R26). -/
def Reg.GLB_NODE : Nat := 0x8
/-- GLB_DIE_PWR (Table 1-8 of R26). -/
def Reg.GLB_DIE_PWR : Nat := 0x10
/-- GLB_DIE_FAIL (Table 1-8 of R26). -/
def Reg.GLB_DIE_FAIL : Nat := 0x18
/-- GLB_LEVEL (Table 1-8 of R26). -/
def Reg.GLB_LEVEL : Nat := 0x20
/-- DBG_CELL_STAT[c] (Table 2-12 of R64). -/
def Reg.DBG_CELL_STAT (c : Nat) : Nat := 0x8000000 + 0x4000 * c
/-- DBG_CYC_ACTIVE[c] (Table 2-12 of R64). -/
def Reg.DBG_CYC_ACTIVE (c : Nat) : Nat := 0x8000008 + 0x4000 * c
/-- DBG_CYC_WAIT_IN[c] (Table 2-12 of R64). -/
def Reg.DBG_CYC_WAIT_IN (c : Nat) : Nat := 0x8000010 + 0x4000 * c
/-- DBG_CYC_WAIT_OUT[c] (Table 2-12 of R64). -/
def Reg.DBG_CYC_WAIT_OUT (c : Nat) : Nat := 0x8000018 + 0x4000 * c
/-- DBG_MAC[c] (Table 2-12 of R64). -/
def Reg.DBG_MAC (c : Nat) : Nat := 0x8000020 + 0x4000 * c
/-- DBG_TC_SWITCH[c] (Table 2-12 of R64). -/
def Reg.DBG_TC_SWITCH (c : Nat) : Nat := 0x8000028 + 0x4000 * c
/-- DBG_FLIT_INJ[c] (Table 2-12 of R64). -/
def Reg.DBG_FLIT_INJ (c : Nat) : Nat := 0x8000030 + 0x4000 * c
/-- DBG_FLIT_EJ[c] (Table 2-12 of R64). -/
def Reg.DBG_FLIT_EJ (c : Nat) : Nat := 0x8000038 + 0x4000 * c
/-- DBG_FLIT_TRANSIT[c] (Table 2-12 of R64). -/
def Reg.DBG_FLIT_TRANSIT (c : Nat) : Nat := 0x8000040 + 0x4000 * c
/-- DBG_GEN_DISCARD[c] (Table 2-12 of R64). -/
def Reg.DBG_GEN_DISCARD (c : Nat) : Nat := 0x8000048 + 0x4000 * c
/-- DBG_CFG_DISCARD[c] (Table 2-12 of R64). -/
def Reg.DBG_CFG_DISCARD (c : Nat) : Nat := 0x8000050 + 0x4000 * c
/-- DBG_INJ_REFUSE[c] (Table 2-12 of R64). -/
def Reg.DBG_INJ_REFUSE (c : Nat) : Nat := 0x8000058 + 0x4000 * c
/-- DBG_STALL_SUPPR[c] (Table 2-12 of R64). -/
def Reg.DBG_STALL_SUPPR (c : Nat) : Nat := 0x8000060 + 0x4000 * c
/-- DBG_WDOG[c] (Table 2-12 of R64). -/
def Reg.DBG_WDOG (c : Nat) : Nat := 0x8000068 + 0x4000 * c
/-- DBG_CTL[c] (Table 2-12 of R64). -/
def Reg.DBG_CTL (c : Nat) : Nat := 0x8000100 + 0x4000 * c
/-- MOLT_CMD[p] (Table 5-12 of R167). -/
def Reg.MOLT_CMD (p : Nat) : Nat := 0x800000 + 0x1000 * p
/-- MOLT_STAT[p] (Table 5-12 of R167). -/
def Reg.MOLT_STAT (p : Nat) : Nat := 0x800008 + 0x1000 * p
/-- MOLT_IMG_ADDR[p] (Table 5-12 of R167). -/
def Reg.MOLT_IMG_ADDR (p : Nat) : Nat := 0x800010 + 0x1000 * p
/-- MOLT_PLACE_ADDR[p] (Table 5-12 of R167). -/
def Reg.MOLT_PLACE_ADDR (p : Nat) : Nat := 0x800018 + 0x1000 * p
/-- MOLT_TIMES[p] (Table 5-12 of R167). -/
def Reg.MOLT_TIMES (p : Nat) : Nat := 0x800020 + 0x1000 * p
/-- MOLT_FLIPS[p] (Table 5-12 of R167). -/
def Reg.MOLT_FLIPS (p : Nat) : Nat := 0x800028 + 0x1000 * p
/-- MOLT_LOAD_CANCEL[p] (Table 5-12 of R167). -/
def Reg.MOLT_LOAD_CANCEL (p : Nat) : Nat := 0x800030 + 0x1000 * p
/-- MOLT_HSTAT[n] (Table 5-12 of R167). -/
def Reg.MOLT_HSTAT (n : Nat) : Nat := 0x810000 + 0x10 * n
/-- MOLT_HDIG[n] (Table 5-12 of R167). -/
def Reg.MOLT_HDIG (n : Nat) : Nat := 0x810008 + 0x10 * n
/-- MEM_CFG (Table 6-9 of R203). -/
def Reg.MEM_CFG : Nat := 0xD00000
/-- MEM_UNMAPPED (Table 6-9 of R203). -/
def Reg.MEM_UNMAPPED : Nat := 0xD00008
/-- MEM_PATROL_CTL (Table 6-9 of R203). -/
def Reg.MEM_PATROL_CTL : Nat := 0xD00010
/-- MEM_PATROL_STAT (Table 6-9 of R203). -/
def Reg.MEM_PATROL_STAT : Nat := 0xD00018
/-- MEM_PATROL_LAST (Table 6-9 of R203). -/
def Reg.MEM_PATROL_LAST : Nat := 0xD00020
/-- MEM_T1_CE[s] (Table 6-9 of R203). -/
def Reg.MEM_T1_CE (s : Nat) : Nat := 0xD00100 + 0x10 * s
/-- MEM_T1_UE[s] (Table 6-9 of R203). -/
def Reg.MEM_T1_UE (s : Nat) : Nat := 0xD00108 + 0x10 * s
/-- MEM_T2_CE[k], LP6 port k (Table 6-9 of R203). -/
def Reg.MEM_T2_CE (k : Nat) : Nat := 0xD00200 + 0x10 * k
/-- MEM_T2_UE[k] (Table 6-9 of R203). -/
def Reg.MEM_T2_UE (k : Nat) : Nat := 0xD00208 + 0x10 * k
/-- MEM_DEMAND[k], comb k (Table 6-9 of R203). -/
def Reg.MEM_DEMAND (k : Nat) : Nat := 0xD00300 + 0x8 * k
/-- MEM_FQ_LIMIT[n] (Table 6-9 of R203). -/
def Reg.MEM_FQ_LIMIT (n : Nat) : Nat := 0xD01000 + 0x8 * n
/-- MEM_LD_BASE[p] (Table 6-9 of R203). -/
def Reg.MEM_LD_BASE (p : Nat) : Nat := 0xD02000 + 0x40 * p
/-- MEM_LD_TAIL[p] (Table 6-9 of R203). -/
def Reg.MEM_LD_TAIL (p : Nat) : Nat := 0xD02008 + 0x40 * p
/-- MEM_LD_HEAD[p] (Table 6-9 of R203). -/
def Reg.MEM_LD_HEAD (p : Nat) : Nat := 0xD02010 + 0x40 * p
/-- MEM_MS_CMD[p] (Table 6-9 of R203). -/
def Reg.MEM_MS_CMD (p : Nat) : Nat := 0xD02018 + 0x40 * p
/-- MEM_BND_LAST[p] (Table 6-9 of R203). -/
def Reg.MEM_BND_LAST (p : Nat) : Nat := 0xD02020 + 0x40 * p
/-- MEM_MS_STAT[e] (Table 6-9 of R203). -/
def Reg.MEM_MS_STAT (e : Nat) : Nat := 0xD04000 + 0x10 * e
/-- MEM_MS_DIG[e] (Table 6-9 of R203). -/
def Reg.MEM_MS_DIG (e : Nat) : Nat := 0xD04008 + 0x10 * e
/-- STEP_DB[p] (Table 7-16 of R235). -/
def Reg.STEP_DB (p : Nat) : Nat := 0x900000 + 0x100 * p
/-- STEP_DB_STAT[p] (Table 7-16 of R235). -/
def Reg.STEP_DB_STAT (p : Nat) : Nat := 0x900008 + 0x100 * p
/-- STEP_BLK[p] (Table 7-16 of R235). -/
def Reg.STEP_BLK (p : Nat) : Nat := 0x900010 + 0x100 * p
/-- STEP_BLK_T1[p] (Table 7-16 of R235). -/
def Reg.STEP_BLK_T1 (p : Nat) : Nat := 0x900018 + 0x100 * p
/-- STEP_PFX_T2[p] (Table 7-16 of R235). -/
def Reg.STEP_PFX_T2 (p : Nat) : Nat := 0x900020 + 0x100 * p
/-- STEP_PFX_T2N[p] (Table 7-16 of R235). -/
def Reg.STEP_PFX_T2N (p : Nat) : Nat := 0x900028 + 0x100 * p
/-- STEP_FREE[p] (Table 7-16 of R235). -/
def Reg.STEP_FREE (p : Nat) : Nat := 0x900030 + 0x100 * p
/-- STEP_EVT_VA[p] (Table 7-16 of R235). -/
def Reg.STEP_EVT_VA (p : Nat) : Nat := 0x900038 + 0x100 * p
/-- STEP_EVT_CFG[p] (Table 7-16 of R235). -/
def Reg.STEP_EVT_CFG (p : Nat) : Nat := 0x900040 + 0x100 * p
/-- STEP_EVT_LOST[p] (Table 7-16 of R235). -/
def Reg.STEP_EVT_LOST (p : Nat) : Nat := 0x900048 + 0x100 * p
/-- STEP_PFX_CMD[p] (Table 7-16 of R235). -/
def Reg.STEP_PFX_CMD (p : Nat) : Nat := 0x900050 + 0x100 * p
/-- STEP_PFX_ARG[p] (Table 7-16 of R235). -/
def Reg.STEP_PFX_ARG (p : Nat) : Nat := 0x900058 + 0x100 * p
/-- STEP_HCH[p] (Table 7-16 of R235). -/
def Reg.STEP_HCH (p : Nat) : Nat := 0x900060 + 0x100 * p
/-- STEP_GEOM0[c] (Table 7-16 of R235). -/
def Reg.STEP_GEOM0 (c : Nat) : Nat := 0x910000 + 0x40 * c
/-- STEP_GEOM1[c] (Table 7-16 of R235). -/
def Reg.STEP_GEOM1 (c : Nat) : Nat := 0x910008 + 0x40 * c
/-- STEP_CHAIN[c] (Table 7-16 of R235). -/
def Reg.STEP_CHAIN (c : Nat) : Nat := 0x910010 + 0x40 * c
/-- STEP_CTL[c] (Table 7-16 of R235). -/
def Reg.STEP_CTL (c : Nat) : Nat := 0x910018 + 0x40 * c
/-- STEP_STAT[c] (Table 7-16 of R235). -/
def Reg.STEP_STAT (c : Nat) : Nat := 0x910020 + 0x40 * c
/-- STEP_EPOCH[c] (Table 7-16 of R235). -/
def Reg.STEP_EPOCH (c : Nat) : Nat := 0x910028 + 0x40 * c
/-- STEP_COMMITS[c] (Table 7-16 of R235). -/
def Reg.STEP_COMMITS (c : Nat) : Nat := 0x910030 + 0x40 * c
/-- STEP_ABORTS[c] (Table 7-16 of R235). -/
def Reg.STEP_ABORTS (c : Nat) : Nat := 0x910038 + 0x40 * c
/-- REQ_ENT[64·n + w] (Table 7-21 of R236). -/
def Reg.REQ_ENT (n : Nat) (w : Nat) : Nat := 0x1000000 + 0x200 * n + 0x8 * w
/-- STEP_ABORT[c] (Table 8-7 of R262). -/
def Reg.STEP_ABORT (c : Nat) : Nat := 0x920000 + 0x20 * c
/-- STEP_PHASE[c] (Table 8-7 of R262). -/
def Reg.STEP_PHASE (c : Nat) : Nat := 0x920008 + 0x20 * c
/-- STEP_TIMES[c] (Table 8-7 of R262). -/
def Reg.STEP_TIMES (c : Nat) : Nat := 0x920010 + 0x20 * c
/-- STEP_STALE[c] (Table 8-7 of R262). -/
def Reg.STEP_STALE (c : Nat) : Nat := 0x920018 + 0x20 * c
/-- XPT_CTL (Table 9-7 of R286). -/
def Reg.XPT_CTL : Nat := 0xF00000
/-- XPT_LINK_TX[l] (Table 9-7 of R286). -/
def Reg.XPT_LINK_TX (l : Nat) : Nat := 0xF00100 + 0x10 * l
/-- XPT_LINK_RX[l] (Table 9-7 of R286). -/
def Reg.XPT_LINK_RX (l : Nat) : Nat := 0xF00108 + 0x10 * l
/-- XPT_SENT[c] (Table 9-7 of R286). -/
def Reg.XPT_SENT (c : Nat) : Nat := 0xF01000 + 0x40 * c
/-- XPT_ADMIT[c] (Table 9-7 of R286). -/
def Reg.XPT_ADMIT (c : Nat) : Nat := 0xF01008 + 0x40 * c
/-- XPT_DROP[c] (Table 9-7 of R286). -/
def Reg.XPT_DROP (c : Nat) : Nat := 0xF01010 + 0x40 * c
/-- XPT_TOKSKIP[c] (Table 9-7 of R286). -/
def Reg.XPT_TOKSKIP (c : Nat) : Nat := 0xF01018 + 0x40 * c
/-- XPT_STALE[c] (Table 9-7 of R286). -/
def Reg.XPT_STALE (c : Nat) : Nat := 0xF01020 + 0x40 * c
/-- XPT_LAST[c] (Table 9-7 of R286). -/
def Reg.XPT_LAST (c : Nat) : Nat := 0xF01028 + 0x40 * c
/-- XPT_WAIT[c] (Table 9-7 of R286). -/
def Reg.XPT_WAIT (c : Nat) : Nat := 0xF01030 + 0x40 * c
/-- SCHED_PMAX[p] (Table 10-12 of R315). -/
def Reg.SCHED_PMAX (p : Nat) : Nat := 0xA00100 + 0x20 * p
/-- SCHED_STAT[p] (Table 10-12 of R315). -/
def Reg.SCHED_STAT (p : Nat) : Nat := 0xA00108 + 0x20 * p
/-- SCHED_SWAPS[p] (Table 10-12 of R315). -/
def Reg.SCHED_SWAPS (p : Nat) : Nat := 0xA00110 + 0x20 * p
/-- SCHED_PREEMPTS[p] (Table 10-12 of R315). -/
def Reg.SCHED_PREEMPTS (p : Nat) : Nat := 0xA00118 + 0x20 * p
/-- SCHED_CTX[c] (Table 10-12 of R315). -/
def Reg.SCHED_CTX (c : Nat) : Nat := 0xA01000 + 0x20 * c
/-- SCHED_CSTAT[c] (Table 10-12 of R315). -/
def Reg.SCHED_CSTAT (c : Nat) : Nat := 0xA01008 + 0x20 * c
/-- SCHED_CDL[c] (Table 10-12 of R315). -/
def Reg.SCHED_CDL (c : Nat) : Nat := 0xA01010 + 0x20 * c
/-- SCHED_CSWITCH[c] (Table 10-12 of R315). -/
def Reg.SCHED_CSWITCH (c : Nat) : Nat := 0xA01018 + 0x20 * c
/-- PART_CMD (Table 10-16 of R317). -/
def Reg.PART_CMD : Nat := 0xB00000
/-- PART_GLB (Table 10-16 of R317). -/
def Reg.PART_GLB : Nat := 0xB00008
/-- PART_STAT[p] (Table 10-16 of R317). -/
def Reg.PART_STAT (p : Nat) : Nat := 0xB00100 + 0x100 * p
/-- PART_COMBS[p] (Table 10-16 of R317). -/
def Reg.PART_COMBS (p : Nat) : Nat := 0xB00108 + 0x100 * p
/-- PART_T1[p] (Table 10-16 of R317). -/
def Reg.PART_T1 (p : Nat) : Nat := 0xB00110 + 0x100 * p
/-- PART_T2[p] (Table 10-16 of R317). -/
def Reg.PART_T2 (p : Nat) : Nat := 0xB00118 + 0x100 * p
/-- PART_REQ[p] (Table 10-16 of R317). -/
def Reg.PART_REQ (p : Nat) : Nat := 0xB00120 + 0x100 * p
/-- PART_CTX[p] (Table 10-16 of R317). -/
def Reg.PART_CTX (p : Nat) : Nat := 0xB00128 + 0x100 * p
/-- PART_QP[p] (Table 10-16 of R317). -/
def Reg.PART_QP (p : Nat) : Nat := 0xB00130 + 0x100 * p
/-- PART_SHARE[p] (Table 10-16 of R317). -/
def Reg.PART_SHARE (p : Nat) : Nat := 0xB00138 + 0x100 * p
/-- PART_CAP[p] (Table 10-16 of R317). -/
def Reg.PART_CAP (p : Nat) : Nat := 0xB00140 + 0x100 * p
/-- PART_CFG[p] (Table 10-16 of R317). -/
def Reg.PART_CFG (p : Nat) : Nat := 0xB00148 + 0x100 * p
/-- ACCT_CMD (Table 10-20 of R318). -/
def Reg.ACCT_CMD : Nat := 0xC00000
/-- ACCT_USED (Table 10-20 of R318). -/
def Reg.ACCT_USED : Nat := 0xC00008
/-- ACCT_REC[16·i + w], i 0–4,095 (Table 10-20 of R318). -/
def Reg.ACCT_REC (i : Nat) (w : Nat) : Nat := 0xC10000 + 0x80 * i + 0x8 * w
/-- ACCT_PART[16·p + w] (Table 10-20 of R318). -/
def Reg.ACCT_PART (p : Nat) (w : Nat) : Nat := 0xC90000 + 0x80 * p + 0x8 * w
/-- LNK_BROOD_STAT (Table 11-12 of R353). -/
def Reg.LNK_BROOD_STAT : Nat := 0xE00000
/-- LNK_RETX (Table 11-12 of R353). -/
def Reg.LNK_RETX : Nat := 0xE00008
/-- LNK_DUP (Table 11-12 of R353). -/
def Reg.LNK_DUP : Nat := 0xE00010
/-- LNK_RELAY (Table 11-12 of R353). -/
def Reg.LNK_RELAY : Nat := 0xE00018
/-- LNK_DOM_DROP (Table 11-12 of R353). -/
def Reg.LNK_DOM_DROP : Nat := 0xE00020
/-- LNK_BADPKT (Table 11-12 of R353). -/
def Reg.LNK_BADPKT : Nat := 0xE00028
/-- LNK_COLL_STALE (Table 11-12 of R353). -/
def Reg.LNK_COLL_STALE : Nat := 0xE00030
/-- LNK_DOMAIN[p] (Table 11-12 of R353). -/
def Reg.LNK_DOMAIN (p : Nat) : Nat := 0xE00100 + 0x8 * p
/-- LNK_CG_BASE[p] (Table 11-12 of R353). -/
def Reg.LNK_CG_BASE (p : Nat) : Nat := 0xE00180 + 0x8 * p
/-- LNK_STAGE[c] (Table 11-12 of R353). -/
def Reg.LNK_STAGE (c : Nat) : Nat := 0xE00200 + 0x10 * c
/-- LNK_HOFF[c] (Table 11-12 of R353). -/
def Reg.LNK_HOFF (c : Nat) : Nat := 0xE00208 + 0x10 * c
/-- LNK_BL_STAT[l] (Table 11-12 of R353). -/
def Reg.LNK_BL_STAT (l : Nat) : Nat := 0xE01000 + 0x100 * l
/-- LNK_BL_PEER[l] (Table 11-12 of R353). -/
def Reg.LNK_BL_PEER (l : Nat) : Nat := 0xE01008 + 0x100 * l
/-- LNK_BL_CTL[l] (Table 11-12 of R353). -/
def Reg.LNK_BL_CTL (l : Nat) : Nat := 0xE01010 + 0x100 * l
/-- LNK_BL_FEC_CE[l] (Table 11-12 of R353). -/
def Reg.LNK_BL_FEC_CE (l : Nat) : Nat := 0xE01018 + 0x100 * l
/-- LNK_BL_FEC_UE[l] (Table 11-12 of R353). -/
def Reg.LNK_BL_FEC_UE (l : Nat) : Nat := 0xE01020 + 0x100 * l
/-- LNK_BL_REPLAY[l] (Table 11-12 of R353). -/
def Reg.LNK_BL_REPLAY (l : Nat) : Nat := 0xE01028 + 0x100 * l
/-- LNK_BL_DOWNS[l] (Table 11-12 of R353). -/
def Reg.LNK_BL_DOWNS (l : Nat) : Nat := 0xE01030 + 0x100 * l
/-- LNK_FP_STAT[f] (Table 11-12 of R353). -/
def Reg.LNK_FP_STAT (f : Nat) : Nat := 0xE02000 + 0x100 * f
/-- LNK_FP_PEER[f] (Table 11-12 of R353). -/
def Reg.LNK_FP_PEER (f : Nat) : Nat := 0xE02008 + 0x100 * f
/-- LNK_FP_CTL[f] (Table 11-12 of R353). -/
def Reg.LNK_FP_CTL (f : Nat) : Nat := 0xE02010 + 0x100 * f
/-- LNK_FP_FEC_CE[f] (Table 11-12 of R353). -/
def Reg.LNK_FP_FEC_CE (f : Nat) : Nat := 0xE02018 + 0x100 * f
/-- LNK_FP_FEC_UE[f] (Table 11-12 of R353). -/
def Reg.LNK_FP_FEC_UE (f : Nat) : Nat := 0xE02020 + 0x100 * f
/-- LNK_FP_REPLAY[f] (Table 11-12 of R353). -/
def Reg.LNK_FP_REPLAY (f : Nat) : Nat := 0xE02028 + 0x100 * f
/-- LNK_FP_DOWNS[f] (Table 11-12 of R353). -/
def Reg.LNK_FP_DOWNS (f : Nat) : Nat := 0xE02030 + 0x100 * f
/-- LNK_RING_CTL (Table 12-8 of R391). -/
def Reg.LNK_RING_CTL : Nat := 0xE03000
/-- LNK_RING_STAT (Table 12-8 of R391). -/
def Reg.LNK_RING_STAT : Nat := 0xE03008
/-- LNK_RING_PEER[a] (Table 12-8 of R391). -/
def Reg.LNK_RING_PEER (a : Nat) : Nat := 0xE03010 + 0x8 * a
/-- LNK_RING_THOP (Table 12-8 of R391). -/
def Reg.LNK_RING_THOP : Nat := 0xE03020
/-- LNK_RING_HDROP (Table 12-8 of R391). -/
def Reg.LNK_RING_HDROP : Nat := 0xE03028
/-- LNK_RING_WRAPS (Table 12-8 of R391). -/
def Reg.LNK_RING_WRAPS : Nat := 0xE03030
/-- LNK_RING_TURN_DROP (Table 12-8 of R391). -/
def Reg.LNK_RING_TURN_DROP : Nat := 0xE03038
/-- LNK_RING_CTRL_RESEND (Table 12-8 of R391). -/
def Reg.LNK_RING_CTRL_RESEND : Nat := 0xE03040
/-- LNK_RING_CTRL_FAIL (Table 12-8 of R391). -/
def Reg.LNK_RING_CTRL_FAIL : Nat := 0xE03048
/-- LNK_RING_MISSES (Table 12-8 of R391). -/
def Reg.LNK_RING_MISSES : Nat := 0xE03050
/-- LNK_RB_CFG[k] (Table 12-8 of R391). -/
def Reg.LNK_RB_CFG (k : Nat) : Nat := 0xE03100 + 0x20 * k
/-- LNK_RB_SRC[k] (Table 12-8 of R391). -/
def Reg.LNK_RB_SRC (k : Nat) : Nat := 0xE03108 + 0x20 * k
/-- LNK_RB_STAT[k] (Table 12-8 of R391). -/
def Reg.LNK_RB_STAT (k : Nat) : Nat := 0xE03110 + 0x20 * k
/-- LNK_HP_STAT[e] (Table 12-8 of R391). -/
def Reg.LNK_HP_STAT (e : Nat) : Nat := 0xE04000 + 0x100 * e
/-- LNK_HP_CFG[e] (Table 12-8 of R391). -/
def Reg.LNK_HP_CFG (e : Nat) : Nat := 0xE04008 + 0x100 * e
/-- LNK_HP_PEER[e] (Table 12-8 of R391). -/
def Reg.LNK_HP_PEER (e : Nat) : Nat := 0xE04010 + 0x100 * e
/-- LNK_HP_RX[e] (Table 12-8 of R391). -/
def Reg.LNK_HP_RX (e : Nat) : Nat := 0xE04018 + 0x100 * e
/-- LNK_HP_TX[e] (Table 12-8 of R391). -/
def Reg.LNK_HP_TX (e : Nat) : Nat := 0xE04020 + 0x100 * e
/-- LNK_HP_DROP[e] (Table 12-8 of R391). -/
def Reg.LNK_HP_DROP (e : Nat) : Nat := 0xE04028 + 0x100 * e
/-- LNK_HP_CNP_RX[e] (Table 12-8 of R391). -/
def Reg.LNK_HP_CNP_RX (e : Nat) : Nat := 0xE04030 + 0x100 * e
/-- LNK_HP_CNP_TX[e] (Table 12-8 of R391). -/
def Reg.LNK_HP_CNP_TX (e : Nat) : Nat := 0xE04038 + 0x100 * e
/-- LNK_HP_MACSEC_DROP[e] (Table 12-8 of R391). -/
def Reg.LNK_HP_MACSEC_DROP (e : Nat) : Nat := 0xE04040 + 0x100 * e
/-- LNK_VIEW_KEY[v] (Table 12-8 of R391). -/
def Reg.LNK_VIEW_KEY (v : Nat) : Nat := 0xE05000 + 0x8 * v
/-- LNK_VIEW_IP[2·n] (Table 12-8 of R391). -/
def Reg.LNK_VIEW_IP (n : Nat) : Nat := 0xE06000 + 0x18 * n
/-- LNK_VIEW_IP[2·n + 1] (Table 12-8 of R391). -/
def Reg.LNK_VIEW_IP_HI (n : Nat) : Nat := 0xE06008 + 0x18 * n
/-- LNK_VIEW_CFG[n] (Table 12-8 of R391). -/
def Reg.LNK_VIEW_CFG (n : Nat) : Nat := 0xE06010 + 0x18 * n
/-- LNK_QP[8·q + w] (Table 12-8 of R391). -/
def Reg.LNK_QP (q : Nat) (w : Nat) : Nat := 0xE80000 + 0x40 * q + 0x8 * w
/-- CLK_IN_STAT (Table 13-12 of R420). -/
def Reg.CLK_IN_STAT : Nat := 0x100000
/-- CLK_MON_CTL (Table 13-12 of R420). -/
def Reg.CLK_MON_CTL : Nat := 0x100008
/-- CLK_MON_STAT (Table 13-12 of R420). -/
def Reg.CLK_MON_STAT : Nat := 0x100010
/-- CLK_FC_CMD (Table 13-12 of R420). -/
def Reg.CLK_FC_CMD : Nat := 0x100018
/-- CLK_FC_RES (Table 13-12 of R420). -/
def Reg.CLK_FC_RES : Nat := 0x100020
/-- CLK_DRST (Table 13-12 of R420). -/
def Reg.CLK_DRST : Nat := 0x100028
/-- CLK_PLL_STAT[d] (Table 13-12 of R420). -/
def Reg.CLK_PLL_STAT (d : Nat) : Nat := 0x100100 + 0x10 * d
/-- CLK_MUX_STAT[d] (Table 13-12 of R420). -/
def Reg.CLK_MUX_STAT (d : Nat) : Nat := 0x100108 + 0x10 * d
/-- CLK_COMB_PS[k] (Table 13-12 of R420). -/
def Reg.CLK_COMB_PS (k : Nat) : Nat := 0x100400 + 0x8 * k
/-- CLK_SLEEP[p] (Table 13-12 of R420). -/
def Reg.CLK_SLEEP (p : Nat) : Nat := 0x100500 + 0x8 * p
/-- TIME_SYSTIME (Table 13-14 of R421). -/
def Reg.TIME_SYSTIME : Nat := 0x200000
/-- TIME_STAT (Table 13-14 of R421). -/
def Reg.TIME_STAT : Nat := 0x200008
/-- TIME_TRIM (Table 13-14 of R421). -/
def Reg.TIME_TRIM : Nat := 0x200010
/-- TIME_CFG (Table 13-14 of R421). -/
def Reg.TIME_CFG : Nat := 0x200018
/-- TIME_BROOD_OFS (Table 13-14 of R421). -/
def Reg.TIME_BROOD_OFS : Nat := 0x200020
/-- TIME_TOD_OFS (Table 13-14 of R421). -/
def Reg.TIME_TOD_OFS : Nat := 0x200028
/-- TIME_CTL (Table 13-14 of R421). -/
def Reg.TIME_CTL : Nat := 0x200030
/-- TIME_LAUNCH_T[n] (Table 13-14 of R421). -/
def Reg.TIME_LAUNCH_T (n : Nat) : Nat := 0x200100 + 0x40 * n
/-- TIME_LAUNCH_ACT[n] (Table 13-14 of R421). -/
def Reg.TIME_LAUNCH_ACT (n : Nat) : Nat := 0x200108 + 0x40 * n
/-- TIME_LAUNCH_ID[n] (Table 13-14 of R421). -/
def Reg.TIME_LAUNCH_ID (n : Nat) : Nat := 0x200110 + 0x40 * n
/-- TIME_LAUNCH_DIG[n] (Table 13-14 of R421). -/
def Reg.TIME_LAUNCH_DIG (n : Nat) : Nat := 0x200118 + 0x40 * n
/-- TIME_LAUNCH_STAT[n] (Table 13-14 of R421). -/
def Reg.TIME_LAUNCH_STAT (n : Nat) : Nat := 0x200120 + 0x40 * n
/-- PWR_CAP (Table 14-6 of R442). -/
def Reg.PWR_CAP : Nat := 0x300000
/-- PWR_STAT (Table 14-6 of R442). -/
def Reg.PWR_STAT : Nat := 0x300008
/-- PWR_EST (Table 14-6 of R442). -/
def Reg.PWR_EST : Nat := 0x300010
/-- PWR_CAL (Table 14-6 of R442). -/
def Reg.PWR_CAL : Nat := 0x300018
/-- PWR_HB (Table 14-6 of R442). -/
def Reg.PWR_HB : Nat := 0x300020
/-- PWR_TEMP (Table 14-6 of R442). -/
def Reg.PWR_TEMP : Nat := 0x300028
/-- PWR_ENERGY_DEV (Table 14-6 of R442). -/
def Reg.PWR_ENERGY_DEV : Nat := 0x300030
/-- PWR_RAIL[r] (Table 14-6 of R442). -/
def Reg.PWR_RAIL (r : Nat) : Nat := 0x300100 + 0x8 * r
/-- PWR_THR_US[i], i 0–6 (Table 14-6 of R442). -/
def Reg.PWR_THR_US (i : Nat) : Nat := 0x300200 + 0x8 * i
/-- PWR_COMB[k] (Table 14-6 of R442). -/
def Reg.PWR_COMB (k : Nat) : Nat := 0x300300 + 0x8 * k
/-- PWR_FIXED[p] (Table 14-6 of R442). -/
def Reg.PWR_FIXED (p : Nat) : Nat := 0x300400 + 0x40 * p
/-- PWR_PART_EST[p] (Table 14-6 of R442). -/
def Reg.PWR_PART_EST (p : Nat) : Nat := 0x300408 + 0x40 * p
/-- PWR_PART_ENERGY[p] (Table 14-6 of R442). -/
def Reg.PWR_PART_ENERGY (p : Nat) : Nat := 0x300410 + 0x40 * p
/-- PWR_PART_THR_US[8·p + i], i 0–6 (Table 14-6 of R442). -/
def Reg.PWR_PART_THR_US (p : Nat) (i : Nat) : Nat := 0x300800 + 0x40 * p + 0x8 * i
/-- BOOT_STAT (Table 15-10 of R470). -/
def Reg.BOOT_STAT : Nat := 0x500000
/-- BOOT_FW (Table 15-10 of R470). -/
def Reg.BOOT_FW : Nat := 0x500008
/-- BOOT_FAIL (Table 15-10 of R470). -/
def Reg.BOOT_FAIL : Nat := 0x500010
/-- BOOT_SLOT[s], s 0 A, 1 B (Table 15-10 of R470). -/
def Reg.BOOT_SLOT (s : Nat) : Nat := 0x500020 + 0x8 * s
/-- BOOT_CMD (Table 15-10 of R470). -/
def Reg.BOOT_CMD : Nat := 0x500030
/-- BOOT_FW_SRC (Table 15-10 of R470). -/
def Reg.BOOT_FW_SRC : Nat := 0x500038
/-- BOOT_FW_LEN (Table 15-10 of R470). -/
def Reg.BOOT_FW_LEN : Nat := 0x500040
/-- BOOT_T_READY (Table 15-10 of R470). -/
def Reg.BOOT_T_READY : Nat := 0x500048
/-- BOOT_DIGEST[i], i 0–7 (Table 15-10 of R470). -/
def Reg.BOOT_DIGEST (i : Nat) : Nat := 0x500100 + 0x8 * i
/-- PSR_WORD[n], n 0–1,023 (Table 15-12 of R471). -/
def Reg.PSR_WORD (n : Nat) : Nat := 0x400000 + 0x8 * n
/-- PSR_WEAR[n] (Table 15-12 of R471). -/
def Reg.PSR_WEAR (n : Nat) : Nat := 0x402000 + 0x8 * n
/-- PSR_STAT (Table 15-12 of R471). -/
def Reg.PSR_STAT : Nat := 0x404000
/-- PSR_GRP_CMD (Table 15-12 of R471). -/
def Reg.PSR_GRP_CMD : Nat := 0x404008
/-- PSR_GRP_IDX[i], i 0–7 (Table 15-12 of R471). -/
def Reg.PSR_GRP_IDX (i : Nat) : Nat := 0x404010 + 0x10 * i
/-- PSR_GRP_VAL[i] (Table 15-12 of R471). -/
def Reg.PSR_GRP_VAL (i : Nat) : Nat := 0x404018 + 0x10 * i
/-- PSR_BAD[k], k 0–15 (Table 15-12 of R471). -/
def Reg.PSR_BAD (k : Nat) : Nat := 0x404100 + 0x8 * k
/-- BIST_CTL (Table 16-7 of R492). -/
def Reg.BIST_CTL : Nat := 0x700000
/-- BIST_STAT (Table 16-7 of R492). -/
def Reg.BIST_STAT : Nat := 0x700008
/-- BIST_SLICES (Table 16-7 of R492). -/
def Reg.BIST_SLICES : Nat := 0x700010
/-- BIST_DEFERS (Table 16-7 of R492). -/
def Reg.BIST_DEFERS : Nat := 0x700018
/-- BIST_FORCED (Table 16-7 of R492). -/
def Reg.BIST_FORCED : Nat := 0x700020
/-- BIST_SKIPPED (Table 16-7 of R492). -/
def Reg.BIST_SKIPPED : Nat := 0x700028
/-- BIST_LAST_FAIL (Table 16-7 of R492). -/
def Reg.BIST_LAST_FAIL : Nat := 0x700030
/-- BIST_GROUP[g], g 0–255 (Table 16-7 of R492). -/
def Reg.BIST_GROUP (g : Nat) : Nat := 0x700100 + 0x8 * g
/-- SEC_STAT (Table 16-9 of R493). -/
def Reg.SEC_STAT : Nat := 0x600000
/-- SEC_DBG_LOCK (Table 16-9 of R493). -/
def Reg.SEC_DBG_LOCK : Nat := 0x600008
/-- SEC_MR[8·m + i] (Table 16-9 of R493). -/
def Reg.SEC_MR (m : Nat) (i : Nat) : Nat := 0x600100 + 0x40 * m + 0x8 * i
/-- SEC_MRP[8·p + i] (Table 16-9 of R493). -/
def Reg.SEC_MRP (p : Nat) (i : Nat) : Nat := 0x600200 + 0x40 * p + 0x8 * i
/-- SEC_KEYDIG[32·p + 8·j + i] (Table 16-9 of R493). -/
def Reg.SEC_KEYDIG (p : Nat) (j : Nat) (i : Nat) : Nat := 0x600800 + 0x100 * p + 0x40 * j + 0x8 * i
/-- SEC_CERT_LEN (Table 16-9 of R493). -/
def Reg.SEC_CERT_LEN : Nat := 0x602000
/-- SEC_CERT[i], i 0–511 (Table 16-9 of R493). -/
def Reg.SEC_CERT (i : Nat) : Nat := 0x602100 + 0x8 * i
/-- SEC_CMD[v] (Table 16-9 of R493). -/
def Reg.SEC_CMD (v : Nat) : Nat := 0x604000 + 0x400 * v
/-- SEC_KEYBUF[8·v + i], i 0–7 (Table 16-9 of R493). -/
def Reg.SEC_KEYBUF (v : Nat) (i : Nat) : Nat := 0x604040 + 0x400 * v + 0x8 * i
/-- SEC_NONCE[8·v + i], i 0–7 (Table 16-9 of R493). -/
def Reg.SEC_NONCE (v : Nat) (i : Nat) : Nat := 0x604080 + 0x400 * v + 0x8 * i
/-- SEC_QUOTE[64·v + i], i 0–63 (Table 16-9 of R493). -/
def Reg.SEC_QUOTE (v : Nat) (i : Nat) : Nat := 0x604100 + 0x400 * v + 0x8 * i
/-- FLT_STAT (Table 18-7 of R525). -/
def Reg.FLT_STAT : Nat := 0x2000000
/-- FLT_PART_CNT[p] (Table 18-7 of R525). -/
def Reg.FLT_PART_CNT (p : Nat) : Nat := 0x2000100 + 0x8 * p
/-- FLT_CLASS_CNT[k], k 1–19 (Table 18-7 of R525). -/
def Reg.FLT_CLASS_CNT (k : Nat) : Nat := 0x2000200 + 0x8 * k
/-- FLT_REC[4·i + w], i 0–4,095 (Table 18-7 of R525). -/
def Reg.FLT_REC (i : Nat) (w : Nat) : Nat := 0x2010000 + 0x20 * i + 0x8 * w
/-- STEP_DEADLINE_MARGIN[c] (R316). -/
def Reg.STEP_DEADLINE_MARGIN (c : Nat) : Nat := 0x930000 + 0x8 * c
/-- Field PART of GLB_ID. -/
def Fld.GLB_ID_PART : Fld := ⟨16, 16⟩
/-- Field STEPPING of GLB_ID. -/
def Fld.GLB_ID_STEPPING : Fld := ⟨8, 8⟩
/-- Field VALID of GLB_NODE. -/
def Fld.GLB_NODE_VALID : Fld := ⟨63, 1⟩
/-- Field ROLE of GLB_NODE. -/
def Fld.GLB_NODE_ROLE : Fld := ⟨18, 2⟩
/-- Field NODE_ID of GLB_NODE. -/
def Fld.GLB_NODE_NODE_ID : Fld := ⟨0, 18⟩
/-- Field MG of GLB_DIE_PWR. -/
def Fld.GLB_DIE_PWR_MG : Fld := ⟨39, 1⟩
/-- Field CT of GLB_DIE_PWR. -/
def Fld.GLB_DIE_PWR_CT : Fld := ⟨38, 1⟩
/-- Field IO of GLB_DIE_PWR. -/
def Fld.GLB_DIE_PWR_IO : Fld := ⟨36, 2⟩
/-- Field PE of GLB_DIE_PWR. -/
def Fld.GLB_DIE_PWR_PE : Fld := ⟨32, 4⟩
/-- Field BD of GLB_DIE_PWR. -/
def Fld.GLB_DIE_PWR_BD : Fld := ⟨16, 16⟩
/-- Field CD of GLB_DIE_PWR. -/
def Fld.GLB_DIE_PWR_CD : Fld := ⟨0, 16⟩
/-- Field MG of GLB_DIE_FAIL. -/
def Fld.GLB_DIE_FAIL_MG : Fld := ⟨39, 1⟩
/-- Field CT of GLB_DIE_FAIL. -/
def Fld.GLB_DIE_FAIL_CT : Fld := ⟨38, 1⟩
/-- Field IO of GLB_DIE_FAIL. -/
def Fld.GLB_DIE_FAIL_IO : Fld := ⟨36, 2⟩
/-- Field PE of GLB_DIE_FAIL. -/
def Fld.GLB_DIE_FAIL_PE : Fld := ⟨32, 4⟩
/-- Field BD of GLB_DIE_FAIL. -/
def Fld.GLB_DIE_FAIL_BD : Fld := ⟨16, 16⟩
/-- Field CD of GLB_DIE_FAIL. -/
def Fld.GLB_DIE_FAIL_CD : Fld := ⟨0, 16⟩
/-- Field BROOD_MEMBERS of GLB_LEVEL. -/
def Fld.GLB_LEVEL_BROOD_MEMBERS : Fld := ⟨8, 8⟩
/-- Field SWARM_TIME of GLB_LEVEL. -/
def Fld.GLB_LEVEL_SWARM_TIME : Fld := ⟨3, 1⟩
/-- Field RING_IN of GLB_LEVEL. -/
def Fld.GLB_LEVEL_RING_IN : Fld := ⟨2, 1⟩
/-- Field BROOD of GLB_LEVEL. -/
def Fld.GLB_LEVEL_BROOD : Fld := ⟨1, 1⟩
/-- Field READY of GLB_LEVEL. -/
def Fld.GLB_LEVEL_READY : Fld := ⟨0, 1⟩
/-- Field GEN of DBG_CELL_STAT. -/
def Fld.DBG_CELL_STAT_GEN : Fld := ⟨56, 8⟩
/-- Field BANK of DBG_CELL_STAT. -/
def Fld.DBG_CELL_STAT_BANK : Fld := ⟨55, 1⟩
/-- Field SHADOW_VALID of DBG_CELL_STAT. -/
def Fld.DBG_CELL_STAT_SHADOW_VALID : Fld := ⟨54, 1⟩
/-- Field PSTATE of DBG_CELL_STAT. -/
def Fld.DBG_CELL_STAT_PSTATE : Fld := ⟨52, 2⟩
/-- Field PART of DBG_CELL_STAT. -/
def Fld.DBG_CELL_STAT_PART : Fld := ⟨48, 4⟩
/-- Field PART_VALID of DBG_CELL_STAT. -/
def Fld.DBG_CELL_STAT_PART_VALID : Fld := ⟨47, 1⟩
/-- Field TC3 of DBG_CELL_STAT. -/
def Fld.DBG_CELL_STAT_TC3 : Fld := ⟨12, 4⟩
/-- Field TC2 of DBG_CELL_STAT. -/
def Fld.DBG_CELL_STAT_TC2 : Fld := ⟨8, 4⟩
/-- Field TC1 of DBG_CELL_STAT. -/
def Fld.DBG_CELL_STAT_TC1 : Fld := ⟨4, 4⟩
/-- Field TC0 of DBG_CELL_STAT. -/
def Fld.DBG_CELL_STAT_TC0 : Fld := ⟨0, 4⟩
/-- Field TC_HALT of DBG_CTL. -/
def Fld.DBG_CTL_TC_HALT : Fld := ⟨4, 4⟩
/-- Field FREEZE of DBG_CTL. -/
def Fld.DBG_CTL_FREEZE : Fld := ⟨1, 1⟩
/-- Field CLR of DBG_CTL. -/
def Fld.DBG_CTL_CLR : Fld := ⟨0, 1⟩
/-- Field ORIGIN of MOLT_CMD. -/
def Fld.MOLT_CMD_ORIGIN : Fld := ⟨12, 4⟩
/-- Field HANDLE of MOLT_CMD. -/
def Fld.MOLT_CMD_HANDLE : Fld := ⟨8, 4⟩
/-- Field OP of MOLT_CMD. -/
def Fld.MOLT_CMD_OP : Fld := ⟨0, 4⟩
/-- Field GEN of MOLT_STAT. -/
def Fld.MOLT_STAT_GEN : Fld := ⟨56, 8⟩
/-- Field ACTIVE_INSTAR of MOLT_STAT. -/
def Fld.MOLT_STAT_ACTIVE_INSTAR : Fld := ⟨40, 16⟩
/-- Field ACTIVE_HANDLE of MOLT_STAT. -/
def Fld.MOLT_STAT_ACTIVE_HANDLE : Fld := ⟨36, 4⟩
/-- Field ACTIVE_VALID of MOLT_STAT. -/
def Fld.MOLT_STAT_ACTIVE_VALID : Fld := ⟨35, 1⟩
/-- Field STATE of MOLT_STAT. -/
def Fld.MOLT_STAT_STATE : Fld := ⟨32, 3⟩
/-- Field SHADOW_INSTAR of MOLT_STAT. -/
def Fld.MOLT_STAT_SHADOW_INSTAR : Fld := ⟨16, 16⟩
/-- Field SHADOW_HANDLE of MOLT_STAT. -/
def Fld.MOLT_STAT_SHADOW_HANDLE : Fld := ⟨12, 4⟩
/-- Field SHADOW_VALID of MOLT_STAT. -/
def Fld.MOLT_STAT_SHADOW_VALID : Fld := ⟨11, 1⟩
/-- Field CMD_RESULT of MOLT_STAT. -/
def Fld.MOLT_STAT_CMD_RESULT : Fld := ⟨8, 3⟩
/-- Field LOAD of MOLT_TIMES. -/
def Fld.MOLT_TIMES_LOAD : Fld := ⟨32, 16⟩
/-- Field DRAIN of MOLT_TIMES. -/
def Fld.MOLT_TIMES_DRAIN : Fld := ⟨16, 16⟩
/-- Field FLIP of MOLT_TIMES. -/
def Fld.MOLT_TIMES_FLIP : Fld := ⟨0, 16⟩
/-- Field STATE of MOLT_HSTAT. -/
def Fld.MOLT_HSTAT_STATE : Fld := ⟨60, 4⟩
/-- Field INSTARS of MOLT_HSTAT. -/
def Fld.MOLT_HSTAT_INSTARS : Fld := ⟨32, 16⟩
/-- Field PAGES of MOLT_HSTAT. -/
def Fld.MOLT_HSTAT_PAGES : Fld := ⟨16, 16⟩
/-- Field ORIGIN of MOLT_HSTAT. -/
def Fld.MOLT_HSTAT_ORIGIN : Fld := ⟨12, 4⟩
/-- Field FOOT_W of MOLT_HSTAT. -/
def Fld.MOLT_HSTAT_FOOT_W : Fld := ⟨8, 4⟩
/-- Field FOOT_H of MOLT_HSTAT. -/
def Fld.MOLT_HSTAT_FOOT_H : Fld := ⟨4, 4⟩
/-- Field T1_STACKS of MEM_CFG. -/
def Fld.MEM_CFG_T1_STACKS : Fld := ⟨40, 8⟩
/-- Field T1_GRANULES of MEM_CFG. -/
def Fld.MEM_CFG_T1_GRANULES : Fld := ⟨32, 8⟩
/-- Field LP6_PORTS of MEM_CFG. -/
def Fld.MEM_CFG_LP6_PORTS : Fld := ⟨24, 8⟩
/-- Field T2_GRANULES of MEM_CFG. -/
def Fld.MEM_CFG_T2_GRANULES : Fld := ⟨16, 8⟩
/-- Field LP6_GIB of MEM_CFG. -/
def Fld.MEM_CFG_LP6_GIB : Fld := ⟨0, 16⟩
/-- Field PASSES of MEM_PATROL_STAT. -/
def Fld.MEM_PATROL_STAT_PASSES : Fld := ⟨48, 16⟩
/-- Field TILES of MEM_PATROL_STAT. -/
def Fld.MEM_PATROL_STAT_TILES : Fld := ⟨0, 48⟩
/-- Field FAILS of MEM_PATROL_LAST. -/
def Fld.MEM_PATROL_LAST_FAILS : Fld := ⟨48, 16⟩
/-- Field ADDR of MEM_PATROL_LAST. -/
def Fld.MEM_PATROL_LAST_ADDR : Fld := ⟨0, 48⟩
/-- Field LOG2N of MEM_LD_BASE. -/
def Fld.MEM_LD_BASE_LOG2N : Fld := ⟨56, 4⟩
/-- Field BASE of MEM_LD_BASE. -/
def Fld.MEM_LD_BASE_BASE : Fld := ⟨0, 48⟩
/-- Field ENTRY of MEM_MS_CMD. -/
def Fld.MEM_MS_CMD_ENTRY : Fld := ⟨16, 9⟩
/-- Field HANDLE of MEM_MS_CMD. -/
def Fld.MEM_MS_CMD_HANDLE : Fld := ⟨8, 4⟩
/-- Field RESULT of MEM_MS_CMD. -/
def Fld.MEM_MS_CMD_RESULT : Fld := ⟨4, 3⟩
/-- Field OP of MEM_MS_CMD. -/
def Fld.MEM_MS_CMD_OP : Fld := ⟨0, 4⟩
/-- Field STATE of MEM_MS_STAT. -/
def Fld.MEM_MS_STAT_STATE : Fld := ⟨62, 2⟩
/-- Field PART of MEM_MS_STAT. -/
def Fld.MEM_MS_STAT_PART : Fld := ⟨56, 4⟩
/-- Field REGIONS of MEM_MS_STAT. -/
def Fld.MEM_MS_STAT_REGIONS : Fld := ⟨48, 8⟩
/-- Field REFS of MEM_MS_STAT. -/
def Fld.MEM_MS_STAT_REFS : Fld := ⟨0, 32⟩
/-- Field STREAM_ID of MEM_BND_LAST. -/
def Fld.MEM_BND_LAST_STREAM_ID : Fld := ⟨48, 16⟩
/-- Field DIM of MEM_BND_LAST. -/
def Fld.MEM_BND_LAST_DIM : Fld := ⟨45, 3⟩
/-- Field COUNT_SAT of MEM_BND_LAST. -/
def Fld.MEM_BND_LAST_COUNT_SAT : Fld := ⟨0, 16⟩
/-- Field OP of STEP_DB. -/
def Fld.STEP_DB_OP : Fld := ⟨60, 4⟩
/-- Field ENTRY of STEP_DB. -/
def Fld.STEP_DB_ENTRY : Fld := ⟨0, 14⟩
/-- Field RKEY of STEP_EVT_CFG. -/
def Fld.STEP_EVT_CFG_RKEY : Fld := ⟨32, 32⟩
/-- Field QP of STEP_EVT_CFG. -/
def Fld.STEP_EVT_CFG_QP : Fld := ⟨16, 12⟩
/-- Field LOG2N of STEP_EVT_CFG. -/
def Fld.STEP_EVT_CFG_LOG2N : Fld := ⟨0, 5⟩
/-- Field RESULT of STEP_PFX_CMD. -/
def Fld.STEP_PFX_CMD_RESULT : Fld := ⟨4, 3⟩
/-- Field OP of STEP_PFX_CMD. -/
def Fld.STEP_PFX_CMD_OP : Fld := ⟨0, 4⟩
/-- Field OP of STEP_CTL. -/
def Fld.STEP_CTL_OP : Fld := ⟨0, 2⟩
/-- Field STATE of STEP_STAT. -/
def Fld.STEP_STAT_STATE : Fld := ⟨62, 2⟩
/-- Field RESULT of STEP_STAT. -/
def Fld.STEP_STAT_RESULT : Fld := ⟨59, 3⟩
/-- Field ACTIVE of STEP_STAT. -/
def Fld.STEP_STAT_ACTIVE : Fld := ⟨32, 11⟩
/-- Field QUEUED of STEP_STAT. -/
def Fld.STEP_STAT_QUEUED : Fld := ⟨0, 16⟩
/-- Field CAUSE of STEP_ABORT. -/
def Fld.STEP_ABORT_CAUSE : Fld := ⟨56, 8⟩
/-- Field FCAUSE of STEP_ABORT. -/
def Fld.STEP_ABORT_FCAUSE : Fld := ⟨40, 16⟩
/-- Field ORIGIN of STEP_ABORT. -/
def Fld.STEP_ABORT_ORIGIN : Fld := ⟨37, 3⟩
/-- Field PHASE of STEP_ABORT. -/
def Fld.STEP_ABORT_PHASE : Fld := ⟨32, 3⟩
/-- Field EPOCH_LO of STEP_ABORT. -/
def Fld.STEP_ABORT_EPOCH_LO : Fld := ⟨0, 32⟩
/-- Field HALT_CAUSE of STEP_PHASE. -/
def Fld.STEP_PHASE_HALT_CAUSE : Fld := ⟨8, 8⟩
/-- Field FAILS of STEP_PHASE. -/
def Fld.STEP_PHASE_FAILS : Fld := ⟨4, 2⟩
/-- Field PHASE of STEP_PHASE. -/
def Fld.STEP_PHASE_PHASE : Fld := ⟨0, 3⟩
/-- Field EXEC of STEP_TIMES. -/
def Fld.STEP_TIMES_EXEC : Fld := ⟨32, 32⟩
/-- Field DECIDE of STEP_TIMES. -/
def Fld.STEP_TIMES_DECIDE : Fld := ⟨16, 16⟩
/-- Field ABORTING of STEP_TIMES. -/
def Fld.STEP_TIMES_ABORTING : Fld := ⟨0, 16⟩
/-- Field CLR of XPT_CTL. -/
def Fld.XPT_CTL_CLR : Fld := ⟨0, 1⟩
/-- Field LAYER of XPT_LAST. -/
def Fld.XPT_LAST_LAYER : Fld := ⟨52, 12⟩
/-- Field EXPERT of XPT_LAST. -/
def Fld.XPT_LAST_EXPERT : Fld := ⟨46, 6⟩
/-- Field RANK of XPT_LAST. -/
def Fld.XPT_LAST_RANK : Fld := ⟨43, 3⟩
/-- Field SLOT of XPT_LAST. -/
def Fld.XPT_LAST_SLOT : Fld := ⟨16, 16⟩
/-- Field TOKEN of XPT_LAST. -/
def Fld.XPT_LAST_TOKEN : Fld := ⟨0, 12⟩
/-- Field PREEMPT_PENDING of SCHED_STAT. -/
def Fld.SCHED_STAT_PREEMPT_PENDING : Fld := ⟨40, 1⟩
/-- Field RESIDENT of SCHED_STAT. -/
def Fld.SCHED_STAT_RESIDENT : Fld := ⟨32, 8⟩
/-- Field CUR_VALID of SCHED_STAT. -/
def Fld.SCHED_STAT_CUR_VALID : Fld := ⟨6, 1⟩
/-- Field CUR of SCHED_STAT. -/
def Fld.SCHED_STAT_CUR : Fld := ⟨0, 6⟩
/-- Field ENABLE of SCHED_CTX. -/
def Fld.SCHED_CTX_ENABLE : Fld := ⟨9, 1⟩
/-- Field BROOD of SCHED_CTX. -/
def Fld.SCHED_CTX_BROOD : Fld := ⟨8, 1⟩
/-- Field PRIO of SCHED_CTX. -/
def Fld.SCHED_CTX_PRIO : Fld := ⟨4, 3⟩
/-- Field HANDLE of SCHED_CTX. -/
def Fld.SCHED_CTX_HANDLE : Fld := ⟨0, 4⟩
/-- Field BLOCK of SCHED_CSTAT. -/
def Fld.SCHED_CSTAT_BLOCK : Fld := ⟨20, 4⟩
/-- Field RUNNABLE of SCHED_CSTAT. -/
def Fld.SCHED_CSTAT_RUNNABLE : Fld := ⟨19, 1⟩
/-- Field RSLOT of SCHED_CSTAT. -/
def Fld.SCHED_CSTAT_RSLOT : Fld := ⟨16, 3⟩
/-- Field RES of SCHED_CSTAT. -/
def Fld.SCHED_CSTAT_RES : Fld := ⟨0, 2⟩
/-- Field CHECK of PART_CMD. -/
def Fld.PART_CMD_CHECK : Fld := ⟨12, 4⟩
/-- Field RESULT of PART_CMD. -/
def Fld.PART_CMD_RESULT : Fld := ⟨8, 3⟩
/-- Field P of PART_CMD. -/
def Fld.PART_CMD_P : Fld := ⟨4, 4⟩
/-- Field OP of PART_CMD. -/
def Fld.PART_CMD_OP : Fld := ⟨0, 4⟩
/-- Field SCRUB_MS of PART_STAT. -/
def Fld.PART_STAT_SCRUB_MS : Fld := ⟨16, 16⟩
/-- Field STATE of PART_STAT. -/
def Fld.PART_STAT_STATE : Fld := ⟨0, 3⟩
/-- Field HOST of PART_SHARE. -/
def Fld.PART_SHARE_HOST : Fld := ⟨24, 5⟩
/-- Field FABRIC of PART_SHARE. -/
def Fld.PART_SHARE_FABRIC : Fld := ⟨16, 5⟩
/-- Field BROOD of PART_SHARE. -/
def Fld.PART_SHARE_BROOD : Fld := ⟨8, 5⟩
/-- Field T2 of PART_SHARE. -/
def Fld.PART_SHARE_T2 : Fld := ⟨0, 5⟩
/-- Field INDEX of ACCT_CMD. -/
def Fld.ACCT_CMD_INDEX : Fld := ⟨16, 13⟩
/-- Field RESULT of ACCT_CMD. -/
def Fld.ACCT_CMD_RESULT : Fld := ⟨4, 3⟩
/-- Field OP of ACCT_CMD. -/
def Fld.ACCT_CMD_OP : Fld := ⟨0, 4⟩
/-- Field DIRECT of LNK_BROOD_STAT. -/
def Fld.LNK_BROOD_STAT_DIRECT : Fld := ⟨16, 8⟩
/-- Field MEMBERS of LNK_BROOD_STAT. -/
def Fld.LNK_BROOD_STAT_MEMBERS : Fld := ⟨8, 8⟩
/-- Field LEAD of LNK_BROOD_STAT. -/
def Fld.LNK_BROOD_STAT_LEAD : Fld := ⟨5, 3⟩
/-- Field NOT_CAPABLE of LNK_BROOD_STAT. -/
def Fld.LNK_BROOD_STAT_NOT_CAPABLE : Fld := ⟨4, 1⟩
/-- Field DUPLICATE of LNK_BROOD_STAT. -/
def Fld.LNK_BROOD_STAT_DUPLICATE : Fld := ⟨3, 1⟩
/-- Field MISMATCH of LNK_BROOD_STAT. -/
def Fld.LNK_BROOD_STAT_MISMATCH : Fld := ⟨2, 1⟩
/-- Field FORMED of LNK_BROOD_STAT. -/
def Fld.LNK_BROOD_STAT_FORMED : Fld := ⟨0, 1⟩
/-- Field LANES of LNK_BL_STAT. -/
def Fld.LNK_BL_STAT_LANES : Fld := ⟨24, 8⟩
/-- Field USED of LNK_BL_STAT. -/
def Fld.LNK_BL_STAT_USED : Fld := ⟨23, 1⟩
/-- Field PEER_POS of LNK_BL_STAT. -/
def Fld.LNK_BL_STAT_PEER_POS : Fld := ⟨20, 3⟩
/-- Field DOWN_CAUSE of LNK_BL_STAT. -/
def Fld.LNK_BL_STAT_DOWN_CAUSE : Fld := ⟨8, 8⟩
/-- Field STATE of LNK_BL_STAT. -/
def Fld.LNK_BL_STAT_STATE : Fld := ⟨0, 3⟩
/-- Field LANES of LNK_FP_STAT. -/
def Fld.LNK_FP_STAT_LANES : Fld := ⟨24, 8⟩
/-- Field USED of LNK_FP_STAT. -/
def Fld.LNK_FP_STAT_USED : Fld := ⟨23, 1⟩
/-- Field PEER_POS of LNK_FP_STAT. -/
def Fld.LNK_FP_STAT_PEER_POS : Fld := ⟨20, 3⟩
/-- Field DOWN_CAUSE of LNK_FP_STAT. -/
def Fld.LNK_FP_STAT_DOWN_CAUSE : Fld := ⟨8, 8⟩
/-- Field STATE of LNK_FP_STAT. -/
def Fld.LNK_FP_STAT_STATE : Fld := ⟨0, 3⟩
/-- Field VALID of LNK_BL_PEER. -/
def Fld.LNK_BL_PEER_VALID : Fld := ⟨63, 1⟩
/-- Field KIND of LNK_BL_PEER. -/
def Fld.LNK_BL_PEER_KIND : Fld := ⟨61, 2⟩
/-- Field PEER_LINK of LNK_BL_PEER. -/
def Fld.LNK_BL_PEER_PEER_LINK : Fld := ⟨48, 8⟩
/-- Field FW_MAJOR of LNK_BL_PEER. -/
def Fld.LNK_BL_PEER_FW_MAJOR : Fld := ⟨40, 8⟩
/-- Field FW_MINOR of LNK_BL_PEER. -/
def Fld.LNK_BL_PEER_FW_MINOR : Fld := ⟨32, 8⟩
/-- Field DIGEST_EQ of LNK_BL_PEER. -/
def Fld.LNK_BL_PEER_DIGEST_EQ : Fld := ⟨21, 1⟩
/-- Field NODE_VALID of LNK_BL_PEER. -/
def Fld.LNK_BL_PEER_NODE_VALID : Fld := ⟨20, 1⟩
/-- Field ROLE of LNK_BL_PEER. -/
def Fld.LNK_BL_PEER_ROLE : Fld := ⟨18, 2⟩
/-- Field NODE_ID of LNK_BL_PEER. -/
def Fld.LNK_BL_PEER_NODE_ID : Fld := ⟨0, 18⟩
/-- Field VALID of LNK_FP_PEER. -/
def Fld.LNK_FP_PEER_VALID : Fld := ⟨63, 1⟩
/-- Field KIND of LNK_FP_PEER. -/
def Fld.LNK_FP_PEER_KIND : Fld := ⟨61, 2⟩
/-- Field PEER_LINK of LNK_FP_PEER. -/
def Fld.LNK_FP_PEER_PEER_LINK : Fld := ⟨48, 8⟩
/-- Field FW_MAJOR of LNK_FP_PEER. -/
def Fld.LNK_FP_PEER_FW_MAJOR : Fld := ⟨40, 8⟩
/-- Field FW_MINOR of LNK_FP_PEER. -/
def Fld.LNK_FP_PEER_FW_MINOR : Fld := ⟨32, 8⟩
/-- Field DIGEST_EQ of LNK_FP_PEER. -/
def Fld.LNK_FP_PEER_DIGEST_EQ : Fld := ⟨21, 1⟩
/-- Field NODE_VALID of LNK_FP_PEER. -/
def Fld.LNK_FP_PEER_NODE_VALID : Fld := ⟨20, 1⟩
/-- Field ROLE of LNK_FP_PEER. -/
def Fld.LNK_FP_PEER_ROLE : Fld := ⟨18, 2⟩
/-- Field NODE_ID of LNK_FP_PEER. -/
def Fld.LNK_FP_PEER_NODE_ID : Fld := ⟨0, 18⟩
/-- Field RETRAIN of LNK_BL_CTL. -/
def Fld.LNK_BL_CTL_RETRAIN : Fld := ⟨1, 1⟩
/-- Field DISABLE of LNK_BL_CTL. -/
def Fld.LNK_BL_CTL_DISABLE : Fld := ⟨0, 1⟩
/-- Field RETRAIN of LNK_FP_CTL. -/
def Fld.LNK_FP_CTL_RETRAIN : Fld := ⟨1, 1⟩
/-- Field DISABLE of LNK_FP_CTL. -/
def Fld.LNK_FP_CTL_DISABLE : Fld := ⟨0, 1⟩
/-- Field NEXT_VALID of LNK_STAGE. -/
def Fld.LNK_STAGE_NEXT_VALID : Fld := ⟨63, 1⟩
/-- Field PREV_VALID of LNK_STAGE. -/
def Fld.LNK_STAGE_PREV_VALID : Fld := ⟨62, 1⟩
/-- Field NEXT of LNK_STAGE. -/
def Fld.LNK_STAGE_NEXT : Fld := ⟨32, 18⟩
/-- Field PREV of LNK_STAGE. -/
def Fld.LNK_STAGE_PREV : Fld := ⟨0, 18⟩
/-- Field HSIZE of LNK_HOFF. -/
def Fld.LNK_HOFF_HSIZE : Fld := ⟨48, 12⟩
/-- Field BASE of LNK_HOFF. -/
def Fld.LNK_HOFF_BASE : Fld := ⟨0, 48⟩
/-- Field RETRAIN_B of LNK_RING_CTL. -/
def Fld.LNK_RING_CTL_RETRAIN_B : Fld := ⟨2, 1⟩
/-- Field RETRAIN_A of LNK_RING_CTL. -/
def Fld.LNK_RING_CTL_RETRAIN_A : Fld := ⟨1, 1⟩
/-- Field INSERT of LNK_RING_CTL. -/
def Fld.LNK_RING_CTL_INSERT : Fld := ⟨0, 1⟩
/-- Field LOOP_HOPS of LNK_RING_STAT. -/
def Fld.LNK_RING_STAT_LOOP_HOPS : Fld := ⟨56, 8⟩
/-- Field LOOP_TURNS of LNK_RING_STAT. -/
def Fld.LNK_RING_STAT_LOOP_TURNS : Fld := ⟨54, 2⟩
/-- Field LOOP_VALID of LNK_RING_STAT. -/
def Fld.LNK_RING_STAT_LOOP_VALID : Fld := ⟨53, 1⟩
/-- Field B_CAUSE of LNK_RING_STAT. -/
def Fld.LNK_RING_STAT_B_CAUSE : Fld := ⟨18, 4⟩
/-- Field A_CAUSE of LNK_RING_STAT. -/
def Fld.LNK_RING_STAT_A_CAUSE : Fld := ⟨14, 4⟩
/-- Field EXPELLED of LNK_RING_STAT. -/
def Fld.LNK_RING_STAT_EXPELLED : Fld := ⟨13, 1⟩
/-- Field BYPASS_N of LNK_RING_STAT. -/
def Fld.LNK_RING_STAT_BYPASS_N : Fld := ⟨12, 1⟩
/-- Field SWITCH of LNK_RING_STAT. -/
def Fld.LNK_RING_STAT_SWITCH : Fld := ⟨10, 2⟩
/-- Field B_STATE of LNK_RING_STAT. -/
def Fld.LNK_RING_STAT_B_STATE : Fld := ⟨4, 3⟩
/-- Field A_STATE of LNK_RING_STAT. -/
def Fld.LNK_RING_STAT_A_STATE : Fld := ⟨0, 3⟩
/-- Field STREAM of LNK_RB_CFG. -/
def Fld.LNK_RB_CFG_STREAM : Fld := ⟨48, 16⟩
/-- Field PART of LNK_RB_CFG. -/
def Fld.LNK_RB_CFG_PART : Fld := ⟨44, 4⟩
/-- Field RATE of LNK_RB_CFG. -/
def Fld.LNK_RB_CFG_RATE : Fld := ⟨36, 8⟩
/-- Field OP of LNK_RB_CFG. -/
def Fld.LNK_RB_CFG_OP : Fld := ⟨0, 2⟩
/-- Field STATE of LNK_RB_STAT. -/
def Fld.LNK_RB_STAT_STATE : Fld := ⟨62, 2⟩
/-- Field NAKS of LNK_RB_STAT. -/
def Fld.LNK_RB_STAT_NAKS : Fld := ⟨32, 24⟩
/-- Field FRAMES of LNK_RB_STAT. -/
def Fld.LNK_RB_STAT_FRAMES : Fld := ⟨0, 32⟩
/-- Field ROLES of LNK_HP_STAT. -/
def Fld.LNK_HP_STAT_ROLES : Fld := ⟨8, 3⟩
/-- Field STATE of LNK_HP_STAT. -/
def Fld.LNK_HP_STAT_STATE : Fld := ⟨0, 3⟩
/-- Field DISABLE of LNK_HP_CFG. -/
def Fld.LNK_HP_CFG_DISABLE : Fld := ⟨9, 1⟩
/-- Field MACSEC_OP of LNK_HP_CFG. -/
def Fld.LNK_HP_CFG_MACSEC_OP : Fld := ⟨8, 1⟩
/-- Field PFC_EN of LNK_HP_CFG. -/
def Fld.LNK_HP_CFG_PFC_EN : Fld := ⟨0, 8⟩
/-- Field CAUSE of LNK_QP0. -/
def Fld.LNK_QP0_CAUSE : Fld := ⟨24, 8⟩
/-- Field PCP of LNK_QP0. -/
def Fld.LNK_QP0_PCP : Fld := ⟨14, 3⟩
/-- Field DSCP of LNK_QP0. -/
def Fld.LNK_QP0_DSCP : Fld := ⟨8, 6⟩
/-- Field MGMT of LNK_QP0. -/
def Fld.LNK_QP0_MGMT : Fld := ⟨7, 1⟩
/-- Field LOADER of LNK_QP0. -/
def Fld.LNK_QP0_LOADER : Fld := ⟨6, 1⟩
/-- Field PORT of LNK_QP0. -/
def Fld.LNK_QP0_PORT : Fld := ⟨4, 2⟩
/-- Field STATE of LNK_QP0. -/
def Fld.LNK_QP0_STATE : Fld := ⟨0, 3⟩
/-- Field SQ_PSN of LNK_QP1. -/
def Fld.LNK_QP1_SQ_PSN : Fld := ⟨24, 24⟩
/-- Field DEST_QPN of LNK_QP1. -/
def Fld.LNK_QP1_DEST_QPN : Fld := ⟨0, 24⟩
/-- Field RNR_RETRY of LNK_QP2. -/
def Fld.LNK_QP2_RNR_RETRY : Fld := ⟨32, 3⟩
/-- Field RETRY of LNK_QP2. -/
def Fld.LNK_QP2_RETRY : Fld := ⟨29, 3⟩
/-- Field TIMEOUT of LNK_QP2. -/
def Fld.LNK_QP2_TIMEOUT : Fld := ⟨24, 5⟩
/-- Field RQ_PSN of LNK_QP2. -/
def Fld.LNK_QP2_RQ_PSN : Fld := ⟨0, 24⟩
/-- Field DEST_MAC of LNK_QP5. -/
def Fld.LNK_QP5_DEST_MAC : Fld := ⟨0, 48⟩
/-- Field RATE of LNK_QP6. -/
def Fld.LNK_QP6_RATE : Fld := ⟨0, 16⟩
/-- Field PKTS of LNK_QP7. -/
def Fld.LNK_QP7_PKTS : Fld := ⟨0, 48⟩
/-- Field LOSSES of CLK_IN_STAT. -/
def Fld.CLK_IN_STAT_LOSSES : Fld := ⟨16, 16⟩
/-- Field INTOSC of CLK_IN_STAT. -/
def Fld.CLK_IN_STAT_INTOSC : Fld := ⟨1, 1⟩
/-- Field PRESENT of CLK_IN_STAT. -/
def Fld.CLK_IN_STAT_PRESENT : Fld := ⟨0, 1⟩
/-- Field AUTO_COMB of CLK_MON_CTL. -/
def Fld.CLK_MON_CTL_AUTO_COMB : Fld := ⟨1, 1⟩
/-- Field ENABLE of CLK_MON_CTL. -/
def Fld.CLK_MON_CTL_ENABLE : Fld := ⟨0, 1⟩
/-- Field POLLS of CLK_MON_STAT. -/
def Fld.CLK_MON_STAT_POLLS : Fld := ⟨48, 16⟩
/-- Field DEV of CLK_MON_STAT. -/
def Fld.CLK_MON_STAT_DEV : Fld := ⟨0, 36⟩
/-- Field K of CLK_FC_CMD. -/
def Fld.CLK_FC_CMD_K : Fld := ⟨12, 5⟩
/-- Field REF of CLK_FC_CMD. -/
def Fld.CLK_FC_CMD_REF : Fld := ⟨6, 6⟩
/-- Field SRC of CLK_FC_CMD. -/
def Fld.CLK_FC_CMD_SRC : Fld := ⟨0, 6⟩
/-- Field STATUS of CLK_FC_RES. -/
def Fld.CLK_FC_RES_STATUS : Fld := ⟨61, 3⟩
/-- Field PAUSES of CLK_FC_RES. -/
def Fld.CLK_FC_RES_PAUSES : Fld := ⟨56, 5⟩
/-- Field COUNT of CLK_FC_RES. -/
def Fld.CLK_FC_RES_COUNT : Fld := ⟨0, 48⟩
/-- Field TARGET_MHZ of CLK_PLL_STAT. -/
def Fld.CLK_PLL_STAT_TARGET_MHZ : Fld := ⟨32, 16⟩
/-- Field CUR_MHZ of CLK_PLL_STAT. -/
def Fld.CLK_PLL_STAT_CUR_MHZ : Fld := ⟨16, 16⟩
/-- Field ON of CLK_PLL_STAT. -/
def Fld.CLK_PLL_STAT_ON : Fld := ⟨1, 1⟩
/-- Field LOCK of CLK_PLL_STAT. -/
def Fld.CLK_PLL_STAT_LOCK : Fld := ⟨0, 1⟩
/-- Field HANG of CLK_MUX_STAT. -/
def Fld.CLK_MUX_STAT_HANG : Fld := ⟨3, 1⟩
/-- Field SWITCHING of CLK_MUX_STAT. -/
def Fld.CLK_MUX_STAT_SWITCHING : Fld := ⟨2, 1⟩
/-- Field SEL of CLK_MUX_STAT. -/
def Fld.CLK_MUX_STAT_SEL : Fld := ⟨0, 2⟩
/-- Field WAKES of CLK_COMB_PS. -/
def Fld.CLK_COMB_PS_WAKES : Fld := ⟨32, 32⟩
/-- Field MOVING of CLK_COMB_PS. -/
def Fld.CLK_COMB_PS_MOVING : Fld := ⟨2, 1⟩
/-- Field STATE of CLK_COMB_PS. -/
def Fld.CLK_COMB_PS_STATE : Fld := ⟨0, 2⟩
/-- Field OFF_MS of CLK_SLEEP. -/
def Fld.CLK_SLEEP_OFF_MS : Fld := ⟨32, 32⟩
/-- Field RET_US of CLK_SLEEP. -/
def Fld.CLK_SLEEP_RET_US : Fld := ⟨0, 32⟩
/-- Field STATE of TIME_STAT. -/
def Fld.TIME_STAT_STATE : Fld := ⟨61, 3⟩
/-- Field UNSURE of TIME_STAT. -/
def Fld.TIME_STAT_UNSURE : Fld := ⟨60, 1⟩
/-- Field SWARM_MASTER of TIME_STAT. -/
def Fld.TIME_STAT_SWARM_MASTER : Fld := ⟨59, 1⟩
/-- Field COLONY_MASTER of TIME_STAT. -/
def Fld.TIME_STAT_COLONY_MASTER : Fld := ⟨58, 1⟩
/-- Field PARENT of TIME_STAT. -/
def Fld.TIME_STAT_PARENT : Fld := ⟨56, 2⟩
/-- Field HOPS of TIME_STAT. -/
def Fld.TIME_STAT_HOPS : Fld := ⟨48, 8⟩
/-- Field SWARM_U of TIME_STAT. -/
def Fld.TIME_STAT_SWARM_U : Fld := ⟨24, 24⟩
/-- Field COLONY_U of TIME_STAT. -/
def Fld.TIME_STAT_COLONY_U : Fld := ⟨0, 24⟩
/-- Field FAB_ASYM of TIME_CFG. -/
def Fld.TIME_CFG_FAB_ASYM : Fld := ⟨16, 16⟩
/-- Field HOP_U of TIME_CFG. -/
def Fld.TIME_CFG_HOP_U : Fld := ⟨0, 16⟩
/-- Field CMD of TIME_LAUNCH_ACT. -/
def Fld.TIME_LAUNCH_ACT_CMD : Fld := ⟨60, 4⟩
/-- Field PART of TIME_LAUNCH_ACT. -/
def Fld.TIME_LAUNCH_ACT_PART : Fld := ⟨56, 4⟩
/-- Field ACTION of TIME_LAUNCH_ACT. -/
def Fld.TIME_LAUNCH_ACT_ACTION : Fld := ⟨52, 4⟩
/-- Field SCOPE of TIME_LAUNCH_ACT. -/
def Fld.TIME_LAUNCH_ACT_SCOPE : Fld := ⟨50, 2⟩
/-- Field PSTATE of TIME_LAUNCH_ACT. -/
def Fld.TIME_LAUNCH_ACT_PSTATE : Fld := ⟨48, 2⟩
/-- Field GROUP of TIME_LAUNCH_ACT. -/
def Fld.TIME_LAUNCH_ACT_GROUP : Fld := ⟨40, 8⟩
/-- Field CTX of TIME_LAUNCH_ACT. -/
def Fld.TIME_LAUNCH_ACT_CTX : Fld := ⟨34, 6⟩
/-- Field HANDLE of TIME_LAUNCH_ACT. -/
def Fld.TIME_LAUNCH_ACT_HANDLE : Fld := ⟨28, 4⟩
/-- Field INSTAR of TIME_LAUNCH_ACT. -/
def Fld.TIME_LAUNCH_ACT_INSTAR : Fld := ⟨16, 12⟩
/-- Field COMBS of TIME_LAUNCH_ACT. -/
def Fld.TIME_LAUNCH_ACT_COMBS : Fld := ⟨0, 16⟩
/-- Field STATE of TIME_LAUNCH_STAT. -/
def Fld.TIME_LAUNCH_STAT_STATE : Fld := ⟨61, 3⟩
/-- Field CLASS of TIME_LAUNCH_STAT. -/
def Fld.TIME_LAUNCH_STAT_CLASS : Fld := ⟨48, 8⟩
/-- Field CAUSE of TIME_LAUNCH_STAT. -/
def Fld.TIME_LAUNCH_STAT_CAUSE : Fld := ⟨32, 16⟩
/-- Field ORIGIN of TIME_LAUNCH_STAT. -/
def Fld.TIME_LAUNCH_STAT_ORIGIN : Fld := ⟨0, 18⟩
/-- Field FTOP of PWR_CAP. -/
def Fld.PWR_CAP_FTOP : Fld := ⟨16, 7⟩
/-- Field CAP of PWR_CAP. -/
def Fld.PWR_CAP_CAP : Fld := ⟨0, 12⟩
/-- Field LIMITING of PWR_STAT. -/
def Fld.PWR_STAT_LIMITING : Fld := ⟨32, 7⟩
/-- Field ALERT of PWR_STAT. -/
def Fld.PWR_STAT_ALERT : Fld := ⟨24, 1⟩
/-- Field EMERG of PWR_STAT. -/
def Fld.PWR_STAT_EMERG : Fld := ⟨23, 1⟩
/-- Field SAFE_ON of PWR_STAT. -/
def Fld.PWR_STAT_SAFE_ON : Fld := ⟨22, 1⟩
/-- Field EXT_IN of PWR_STAT. -/
def Fld.PWR_STAT_EXT_IN : Fld := ⟨21, 1⟩
/-- Field SUPERVISED of PWR_STAT. -/
def Fld.PWR_STAT_SUPERVISED : Fld := ⟨20, 1⟩
/-- Field EFF_CAP of PWR_STAT. -/
def Fld.PWR_STAT_EFF_CAP : Fld := ⟨0, 12⟩
/-- Field CALS of PWR_CAL. -/
def Fld.PWR_CAL_CALS : Fld := ⟨48, 16⟩
/-- Field CLAMPED of PWR_CAL. -/
def Fld.PWR_CAL_CLAMPED : Fld := ⟨16, 8⟩
/-- Field DEV of PWR_CAL. -/
def Fld.PWR_CAL_DEV : Fld := ⟨0, 16⟩
/-- Field SINCE_MS of PWR_HB. -/
def Fld.PWR_HB_SINCE_MS : Fld := ⟨16, 32⟩
/-- Field BEAT of PWR_HB. -/
def Fld.PWR_HB_BEAT : Fld := ⟨0, 1⟩
/-- Field HOT of PWR_TEMP. -/
def Fld.PWR_TEMP_HOT : Fld := ⟨40, 8⟩
/-- Field HBM_MAX of PWR_TEMP. -/
def Fld.PWR_TEMP_HBM_MAX : Fld := ⟨32, 8⟩
/-- Field TJ_MAX of PWR_TEMP. -/
def Fld.PWR_TEMP_TJ_MAX : Fld := ⟨0, 16⟩
/-- Field SCALE of PWR_RAIL. -/
def Fld.PWR_RAIL_SCALE : Fld := ⟨48, 16⟩
/-- Field MW of PWR_RAIL. -/
def Fld.PWR_RAIL_MW : Fld := ⟨0, 32⟩
/-- Field DROOP_CYC of PWR_COMB. -/
def Fld.PWR_COMB_DROOP_CYC : Fld := ⟨32, 32⟩
/-- Field DROOP_EVT of PWR_COMB. -/
def Fld.PWR_COMB_DROOP_EVT : Fld := ⟨16, 16⟩
/-- Field LIMIT of PWR_COMB. -/
def Fld.PWR_COMB_LIMIT : Fld := ⟨12, 4⟩
/-- Field FSTEP of PWR_COMB. -/
def Fld.PWR_COMB_FSTEP : Fld := ⟨0, 7⟩
/-- Field ENABLE of PWR_FIXED. -/
def Fld.PWR_FIXED_ENABLE : Fld := ⟨8, 1⟩
/-- Field FSTEP of PWR_FIXED. -/
def Fld.PWR_FIXED_FSTEP : Fld := ⟨0, 7⟩
/-- Field US of PWR_THR_US. -/
def Fld.PWR_THR_US_US : Fld := ⟨0, 64⟩
/-- Field US of PWR_PART_THR_US. -/
def Fld.PWR_PART_THR_US_US : Fld := ⟨0, 64⟩
/-- Field VALID of PSR_NODE. -/
def Fld.PSR_NODE_VALID : Fld := ⟨63, 1⟩
/-- Field ROLE of PSR_NODE. -/
def Fld.PSR_NODE_ROLE : Fld := ⟨18, 2⟩
/-- Field NODE_ID of PSR_NODE. -/
def Fld.PSR_NODE_NODE_ID : Fld := ⟨0, 18⟩
/-- Field BASE of PSR_MAC_BASE. -/
def Fld.PSR_MAC_BASE_BASE : Fld := ⟨0, 48⟩
/-- Field POLICY of PSR_BIST_POLICY. -/
def Fld.PSR_BIST_POLICY_POLICY : Fld := ⟨0, 2⟩
/-- Field CAP of PSR_SAFE_CAP. -/
def Fld.PSR_SAFE_CAP_CAP : Fld := ⟨0, 12⟩
/-- Field ISOLATE of PSR_BOOT_POLICY. -/
def Fld.PSR_BOOT_POLICY_ISOLATE : Fld := ⟨2, 1⟩
/-- Field HOLD of PSR_BOOT_POLICY. -/
def Fld.PSR_BOOT_POLICY_HOLD : Fld := ⟨1, 1⟩
/-- Field NETBOOT of PSR_BOOT_POLICY. -/
def Fld.PSR_BOOT_POLICY_NETBOOT : Fld := ⟨0, 1⟩
/-- Field PREFERRED of PSR_FW_SLOT. -/
def Fld.PSR_FW_SLOT_PREFERRED : Fld := ⟨0, 1⟩
/-- Field SVN of PSR_ARB. -/
def Fld.PSR_ARB_SVN : Fld := ⟨0, 32⟩
/-- Field VALID of PSR_FIREFLY. -/
def Fld.PSR_FIREFLY_VALID : Fld := ⟨18, 1⟩
/-- Field MASTER of PSR_FIREFLY. -/
def Fld.PSR_FIREFLY_MASTER : Fld := ⟨0, 18⟩
/-- Field RING_B of PSR_FF_CAL. -/
def Fld.PSR_FF_CAL_RING_B : Fld := ⟨16, 16⟩
/-- Field RING_A of PSR_FF_CAL. -/
def Fld.PSR_FF_CAL_RING_A : Fld := ⟨0, 16⟩
/-- Field STAGE of PSR_BOOT_LASTFAIL. -/
def Fld.PSR_BOOT_LASTFAIL_STAGE : Fld := ⟨48, 8⟩
/-- Field CODE of PSR_BOOT_LASTFAIL. -/
def Fld.PSR_BOOT_LASTFAIL_CODE : Fld := ⟨40, 8⟩
/-- Field SOURCE of PSR_BOOT_LASTFAIL. -/
def Fld.PSR_BOOT_LASTFAIL_SOURCE : Fld := ⟨32, 8⟩
/-- Field ATTEMPT of PSR_BOOT_LASTFAIL. -/
def Fld.PSR_BOOT_LASTFAIL_ATTEMPT : Fld := ⟨0, 32⟩
/-- Field T1_KEY of PSR_OPKEY. -/
def Fld.PSR_OPKEY_T1_KEY : Fld := ⟨32, 32⟩
/-- Field CS_KEY of PSR_OPKEY. -/
def Fld.PSR_OPKEY_CS_KEY : Fld := ⟨0, 32⟩
/-- Field AUTO of PSR_PART_DEF0. -/
def Fld.PSR_PART_DEF0_AUTO : Fld := ⟨63, 1⟩
/-- Field COMBS of PSR_PART_DEF0. -/
def Fld.PSR_PART_DEF0_COMBS : Fld := ⟨32, 16⟩
/-- Field T1 of PSR_PART_DEF0. -/
def Fld.PSR_PART_DEF0_T1 : Fld := ⟨0, 32⟩
/-- Field T2 of PSR_PART_DEF1. -/
def Fld.PSR_PART_DEF1_T2 : Fld := ⟨32, 32⟩
/-- Field CAP of PSR_PART_DEF1. -/
def Fld.PSR_PART_DEF1_CAP : Fld := ⟨20, 12⟩
/-- Field SHARE of PSR_PART_DEF1. -/
def Fld.PSR_PART_DEF1_SHARE : Fld := ⟨0, 20⟩
/-- Field STAGE of BOOT_STAT. -/
def Fld.BOOT_STAT_STAGE : Fld := ⟨56, 8⟩
/-- Field WAIT_MAIN of BOOT_STAT. -/
def Fld.BOOT_STAT_WAIT_MAIN : Fld := ⟨55, 1⟩
/-- Field WAIT_CONT of BOOT_STAT. -/
def Fld.BOOT_STAT_WAIT_CONT : Fld := ⟨54, 1⟩
/-- Field CAUSE of BOOT_STAT. -/
def Fld.BOOT_STAT_CAUSE : Fld := ⟨40, 8⟩
/-- Field SOURCE of BOOT_STAT. -/
def Fld.BOOT_STAT_SOURCE : Fld := ⟨38, 2⟩
/-- Field WAIT_S of BOOT_STAT. -/
def Fld.BOOT_STAT_WAIT_S : Fld := ⟨16, 16⟩
/-- Field ATTEMPT of BOOT_STAT. -/
def Fld.BOOT_STAT_ATTEMPT : Fld := ⟨0, 16⟩
/-- Field SVN of BOOT_FW. -/
def Fld.BOOT_FW_SVN : Fld := ⟨32, 32⟩
/-- Field MAJOR of BOOT_FW. -/
def Fld.BOOT_FW_MAJOR : Fld := ⟨16, 8⟩
/-- Field MINOR of BOOT_FW. -/
def Fld.BOOT_FW_MINOR : Fld := ⟨8, 8⟩
/-- Field PATCH of BOOT_FW. -/
def Fld.BOOT_FW_PATCH : Fld := ⟨0, 8⟩
/-- Field STAGE of BOOT_FAIL. -/
def Fld.BOOT_FAIL_STAGE : Fld := ⟨56, 8⟩
/-- Field CODE of BOOT_FAIL. -/
def Fld.BOOT_FAIL_CODE : Fld := ⟨48, 8⟩
/-- Field ATTEMPT of BOOT_FAIL. -/
def Fld.BOOT_FAIL_ATTEMPT : Fld := ⟨0, 32⟩
/-- Field SVN of BOOT_SLOT. -/
def Fld.BOOT_SLOT_SVN : Fld := ⟨32, 32⟩
/-- Field RESULT of BOOT_SLOT. -/
def Fld.BOOT_SLOT_RESULT : Fld := ⟨28, 4⟩
/-- Field WRITES_HI of BOOT_SLOT. -/
def Fld.BOOT_SLOT_WRITES_HI : Fld := ⟨24, 4⟩
/-- Field MAJOR of BOOT_SLOT. -/
def Fld.BOOT_SLOT_MAJOR : Fld := ⟨16, 8⟩
/-- Field MINOR of BOOT_SLOT. -/
def Fld.BOOT_SLOT_MINOR : Fld := ⟨8, 8⟩
/-- Field PATCH of BOOT_SLOT. -/
def Fld.BOOT_SLOT_PATCH : Fld := ⟨0, 8⟩
/-- Field WRITES of BOOT_CMD. -/
def Fld.BOOT_CMD_WRITES : Fld := ⟨34, 14⟩
/-- Field RESULT of BOOT_CMD. -/
def Fld.BOOT_CMD_RESULT : Fld := ⟨8, 3⟩
/-- Field SLOT of BOOT_CMD. -/
def Fld.BOOT_CMD_SLOT : Fld := ⟨4, 1⟩
/-- Field OP of BOOT_CMD. -/
def Fld.BOOT_CMD_OP : Fld := ⟨0, 4⟩
/-- Field LOCKED of PSR_WEAR. -/
def Fld.PSR_WEAR_LOCKED : Fld := ⟨63, 1⟩
/-- Field COUNT of PSR_WEAR. -/
def Fld.PSR_WEAR_COUNT : Fld := ⟨0, 17⟩
/-- Field RESULT of PSR_STAT. -/
def Fld.PSR_STAT_RESULT : Fld := ⟨61, 3⟩
/-- Field PENDING of PSR_STAT. -/
def Fld.PSR_STAT_PENDING : Fld := ⟨56, 5⟩
/-- Field JOURNAL_WORN of PSR_STAT. -/
def Fld.PSR_STAT_JOURNAL_WORN : Fld := ⟨55, 1⟩
/-- Field JWEAR of PSR_STAT. -/
def Fld.PSR_STAT_JWEAR : Fld := ⟨0, 17⟩
/-- Field GO of PSR_GRP_CMD. -/
def Fld.PSR_GRP_CMD_GO : Fld := ⟨8, 1⟩
/-- Field COUNT of PSR_GRP_CMD. -/
def Fld.PSR_GRP_CMD_COUNT : Fld := ⟨0, 4⟩
/-- Field PASSES of BIST_STAT. -/
def Fld.BIST_STAT_PASSES : Fld := ⟨48, 16⟩
/-- Field NEXT of BIST_STAT. -/
def Fld.BIST_STAT_NEXT : Fld := ⟨40, 8⟩
/-- Field DUE of BIST_STAT. -/
def Fld.BIST_STAT_DUE : Fld := ⟨39, 1⟩
/-- Field DEFERRED of BIST_STAT. -/
def Fld.BIST_STAT_DEFERRED : Fld := ⟨38, 1⟩
/-- Field CHRYSALIS of BIST_STAT. -/
def Fld.BIST_STAT_CHRYSALIS : Fld := ⟨37, 1⟩
/-- Field POLICY of BIST_STAT. -/
def Fld.BIST_STAT_POLICY : Fld := ⟨32, 2⟩
/-- Field START_MS of BIST_STAT. -/
def Fld.BIST_STAT_START_MS : Fld := ⟨16, 16⟩
/-- Field KIND of BIST_LAST_FAIL. -/
def Fld.BIST_LAST_FAIL_KIND : Fld := ⟨62, 2⟩
/-- Field DIE of BIST_LAST_FAIL. -/
def Fld.BIST_LAST_FAIL_DIE : Fld := ⟨56, 6⟩
/-- Field UNIT of BIST_LAST_FAIL. -/
def Fld.BIST_LAST_FAIL_UNIT : Fld := ⟨52, 4⟩
/-- Field GROUP of BIST_LAST_FAIL. -/
def Fld.BIST_LAST_FAIL_GROUP : Fld := ⟨32, 8⟩
/-- Field CELL of BIST_LAST_FAIL. -/
def Fld.BIST_LAST_FAIL_CELL : Fld := ⟨0, 13⟩
/-- Field T_S of BIST_GROUP. -/
def Fld.BIST_GROUP_T_S : Fld := ⟨32, 32⟩
/-- Field PASSES of BIST_GROUP. -/
def Fld.BIST_GROUP_PASSES : Fld := ⟨16, 16⟩
/-- Field RESULT of BIST_GROUP. -/
def Fld.BIST_GROUP_RESULT : Fld := ⟨0, 2⟩
/-- Field ID_VALID of SEC_STAT. -/
def Fld.SEC_STAT_ID_VALID : Fld := ⟨63, 1⟩
/-- Field DBG_LOCKED of SEC_STAT. -/
def Fld.SEC_STAT_DBG_LOCKED : Fld := ⟨62, 1⟩
/-- Field RESULT of SEC_CMD. -/
def Fld.SEC_CMD_RESULT : Fld := ⟨12, 3⟩
/-- Field KSLOT of SEC_CMD. -/
def Fld.SEC_CMD_KSLOT : Fld := ⟨10, 2⟩
/-- Field P of SEC_CMD. -/
def Fld.SEC_CMD_P : Fld := ⟨4, 4⟩
/-- Field OP of SEC_CMD. -/
def Fld.SEC_CMD_OP : Fld := ⟨0, 4⟩
/-- Field LOST of FLT_STAT. -/
def Fld.FLT_STAT_LOST : Fld := ⟨48, 16⟩
/-- Field WRITTEN of FLT_STAT. -/
def Fld.FLT_STAT_WRITTEN : Fld := ⟨0, 48⟩
/-- Field REFUSED of STEP_DB_STAT. -/
def Fld.STEP_DB_STAT_REFUSED : Fld := ⟨48, 16⟩
/-- Field TAKEN of STEP_DB_STAT. -/
def Fld.STEP_DB_STAT_TAKEN : Fld := ⟨0, 48⟩
/-- Field COUNT of STEP_BLK. -/
def Fld.STEP_BLK_COUNT : Fld := ⟨24, 24⟩
/-- Field FIRST of STEP_BLK. -/
def Fld.STEP_BLK_FIRST : Fld := ⟨0, 24⟩
/-- Field T2 of STEP_FREE. -/
def Fld.STEP_FREE_T2 : Fld := ⟨24, 24⟩
/-- Field T1 of STEP_FREE. -/
def Fld.STEP_FREE_T1 : Fld := ⟨0, 24⟩
/-- Field SLOTS of STEP_HCH. -/
def Fld.STEP_HCH_SLOTS : Fld := ⟨48, 16⟩
/-- Field BASE of STEP_HCH. -/
def Fld.STEP_HCH_BASE : Fld := ⟨0, 48⟩
/-- Field MAX_CTX of STEP_GEOM0. -/
def Fld.STEP_GEOM0_MAX_CTX : Fld := ⟨32, 32⟩
/-- Field SLOTS of STEP_GEOM0. -/
def Fld.STEP_GEOM0_SLOTS : Fld := ⟨0, 11⟩
/-- Field CHUNK of STEP_GEOM1. -/
def Fld.STEP_GEOM1_CHUNK : Fld := ⟨32, 13⟩
/-- Field TREE_DEPTH of STEP_GEOM1. -/
def Fld.STEP_GEOM1_TREE_DEPTH : Fld := ⟨16, 6⟩
/-- Field TREE_NODES of STEP_GEOM1. -/
def Fld.STEP_GEOM1_TREE_NODES : Fld := ⟨0, 9⟩
/-- Field COUNT of PART_REQ. -/
def Fld.PART_REQ_COUNT : Fld := ⟨32, 15⟩
/-- Field FIRST of PART_REQ. -/
def Fld.PART_REQ_FIRST : Fld := ⟨0, 14⟩
/-- Field COUNT of PART_CTX. -/
def Fld.PART_CTX_COUNT : Fld := ⟨32, 7⟩
/-- Field FIRST of PART_CTX. -/
def Fld.PART_CTX_FIRST : Fld := ⟨0, 6⟩
/-- Field COUNT of PART_QP. -/
def Fld.PART_QP_COUNT : Fld := ⟨32, 13⟩
/-- Field FIRST of PART_QP. -/
def Fld.PART_QP_FIRST : Fld := ⟨0, 12⟩
/-- Field MACSEC of PART_CFG. -/
def Fld.PART_CFG_MACSEC : Fld := ⟨1, 1⟩
/-- Field ENC of PART_CFG. -/
def Fld.PART_CFG_ENC : Fld := ⟨0, 1⟩
/-- Field OVERFLOW of ACCT_USED. -/
def Fld.ACCT_USED_OVERFLOW : Fld := ⟨16, 48⟩
/-- Field USED of ACCT_USED. -/
def Fld.ACCT_USED_USED : Fld := ⟨0, 13⟩
/-- Field B of LNK_RING_THOP. -/
def Fld.LNK_RING_THOP_B : Fld := ⟨16, 16⟩
/-- Field A of LNK_RING_THOP. -/
def Fld.LNK_RING_THOP_A : Fld := ⟨0, 16⟩
/-- Field T1 of LNK_VIEW_KEY. -/
def Fld.LNK_VIEW_KEY_T1 : Fld := ⟨32, 32⟩
/-- Field CS of LNK_VIEW_KEY. -/
def Fld.LNK_VIEW_KEY_CS : Fld := ⟨0, 32⟩
/-- Field ENABLE of LNK_VIEW_CFG. -/
def Fld.LNK_VIEW_CFG_ENABLE : Fld := ⟨12, 1⟩
/-- Field VLAN of LNK_VIEW_CFG. -/
def Fld.LNK_VIEW_CFG_VLAN : Fld := ⟨0, 12⟩
/-- Field EST of PWR_EST. -/
def Fld.PWR_EST_EST : Fld := ⟨32, 32⟩
/-- Field MEAS of PWR_EST. -/
def Fld.PWR_EST_MEAS : Fld := ⟨0, 32⟩
/-- Field ISOLATE of PART_GLB. -/
def Fld.PART_GLB_ISOLATE : Fld := ⟨0, 1⟩
/-- Field ENABLE of BIST_CTL. -/
def Fld.BIST_CTL_ENABLE : Fld := ⟨0, 1⟩
/-- Field RESYNC of TIME_CTL. -/
def Fld.TIME_CTL_RESYNC : Fld := ⟨0, 1⟩
/-- Field LOCK of SEC_DBG_LOCK. -/
def Fld.SEC_DBG_LOCK_LOCK : Fld := ⟨0, 1⟩
/-- Field ENABLE of MEM_PATROL_CTL. -/
def Fld.MEM_PATROL_CTL_ENABLE : Fld := ⟨0, 1⟩
/-- Field LIMIT of DBG_WDOG. -/
def Fld.DBG_WDOG_LIMIT : Fld := ⟨0, 10⟩
/-- Field LIMIT of MEM_FQ_LIMIT. -/
def Fld.MEM_FQ_LIMIT_LIMIT : Fld := ⟨0, 7⟩
/-- Field PREEMPT_MAX of SCHED_PMAX. -/
def Fld.SCHED_PMAX_PREEMPT_MAX : Fld := ⟨0, 18⟩
/-- Field DEST_IP of LNK_QP3. -/
def Fld.LNK_QP3_DEST_IP : Fld := ⟨0, 64⟩
/-- Field DEST_IP of LNK_QP4. -/
def Fld.LNK_QP4_DEST_IP : Fld := ⟨0, 64⟩

/-- Register rows, part 0. -/
def regRows0 : List RegRow := [
  ⟨"GLB_ID", 0x0, [], 0x5840B200, .ro, 0x0, 0x0⟩,
  ⟨"GLB_NODE", 0x8, [], 0x0, .ro, 0x0, 0x0⟩,
  ⟨"GLB_DIE_PWR", 0x10, [], 0x8000000000, .ro, 0x0, 0x0⟩,
  ⟨"GLB_DIE_FAIL", 0x18, [], 0x0, .ro, 0x0, 0x0⟩,
  ⟨"GLB_LEVEL", 0x20, [], 0x0, .ro, 0x0, 0x0⟩,
  ⟨"DBG_CELL_STAT", 0x8000000, [(0x4000, 8192)], 0x0, .ro, 0x0, 0x0⟩,
  ⟨"DBG_CYC_ACTIVE", 0x8000008, [(0x4000, 8192)], 0x0, .ro, 0x0, 0x0⟩,
  ⟨"DBG_CYC_WAIT_IN", 0x8000010, [(0x4000, 8192)], 0x0, .ro, 0x0, 0x0⟩,
  ⟨"DBG_CYC_WAIT_OUT", 0x8000018, [(0x4000, 8192)], 0x0, .ro, 0x0, 0x0⟩,
  ⟨"DBG_MAC", 0x8000020, [(0x4000, 8192)], 0x0, .ro, 0x0, 0x0⟩,
  ⟨"DBG_TC_SWITCH", 0x8000028, [(0x4000, 8192)], 0x0, .ro, 0x0, 0x0⟩,
  ⟨"DBG_FLIT_INJ", 0x8000030, [(0x4000, 8192)], 0x0, .ro, 0x0, 0x0⟩,
  ⟨"DBG_FLIT_EJ", 0x8000038, [(0x4000, 8192)], 0x0, .ro, 0x0, 0x0⟩,
  ⟨"DBG_FLIT_TRANSIT", 0x8000040, [(0x4000, 8192)], 0x0, .ro, 0x0, 0x0⟩,
  ⟨"DBG_GEN_DISCARD", 0x8000048, [(0x4000, 8192)], 0x0, .ro, 0x0, 0x0⟩,
  ⟨"DBG_CFG_DISCARD", 0x8000050, [(0x4000, 8192)], 0x0, .ro, 0x0, 0x0⟩,
  ⟨"DBG_INJ_REFUSE", 0x8000058, [(0x4000, 8192)], 0x0, .ro, 0x0, 0x0⟩,
  ⟨"DBG_STALL_SUPPR", 0x8000060, [(0x4000, 8192)], 0x0, .ro, 0x0, 0x0⟩,
  ⟨"DBG_WDOG", 0x8000068, [(0x4000, 8192)], 0xA, .ro, 0x0, 0x0⟩,
  ⟨"DBG_CTL", 0x8000100, [(0x4000, 8192)], 0x0, .rwl, 0xF2, 0x1⟩,
  ⟨"MOLT_CMD", 0x800000, [(0x1000, 16)], 0x0, .rw, 0xFF0F, 0x0⟩,
  ⟨"MOLT_STAT", 0x800008, [(0x1000, 16)], 0x0, .ro, 0x0, 0x0⟩,
  ⟨"MOLT_IMG_ADDR", 0x800010, [(0x1000, 16)], 0x0, .rw, 0xFFFFFFFFFFFF, 0x0⟩,
  ⟨"MOLT_PLACE_ADDR", 0x800018, [(0x1000, 16)], 0x0, .rw, 0xFFFFFFFFFFFF, 0x0⟩]

/-- Register rows, part 1. -/
def regRows1 : List RegRow := [
  ⟨"MOLT_TIMES", 0x800020, [(0x1000, 16)], 0x0, .ro, 0x0, 0x0⟩,
  ⟨"MOLT_FLIPS", 0x800028, [(0x1000, 16)], 0x0, .ro, 0x0, 0x0⟩,
  ⟨"MOLT_LOAD_CANCEL", 0x800030, [(0x1000, 16)], 0x0, .ro, 0x0, 0x0⟩,
  ⟨"MOLT_HSTAT", 0x810000, [(0x10, 256)], 0x0, .ro, 0x0, 0x0⟩,
  ⟨"MOLT_HDIG", 0x810008, [(0x10, 256)], 0x0, .ro, 0x0, 0x0⟩,
  ⟨"MEM_CFG", 0xD00000, [], 0x0, .ro, 0x0, 0x0⟩,
  ⟨"MEM_UNMAPPED", 0xD00008, [], 0x0, .ro, 0x0, 0x0⟩,
  ⟨"MEM_PATROL_CTL", 0xD00010, [], 0x1, .rw, 0x1, 0x0⟩,
  ⟨"MEM_PATROL_STAT", 0xD00018, [], 0x0, .ro, 0x0, 0x0⟩,
  ⟨"MEM_PATROL_LAST", 0xD00020, [], 0x0, .ro, 0x0, 0x0⟩,
  ⟨"MEM_T1_CE", 0xD00100, [(0x10, 8)], 0x0, .ro, 0x0, 0x0⟩,
  ⟨"MEM_T1_UE", 0xD00108, [(0x10, 8)], 0x0, .ro, 0x0, 0x0⟩,
  ⟨"MEM_T2_CE", 0xD00200, [(0x10, 8)], 0x0, .ro, 0x0, 0x0⟩,
  ⟨"MEM_T2_UE", 0xD00208, [(0x10, 8)], 0x0, .ro, 0x0, 0x0⟩,
  ⟨"MEM_DEMAND", 0xD00300, [(0x8, 16)], 0x0, .ro, 0x0, 0x0⟩,
  ⟨"MEM_FQ_LIMIT", 0xD01000, [(0x8, 256)], 0x20, .rwl, 0x7F, 0x0⟩,
  ⟨"MEM_LD_BASE", 0xD02000, [(0x40, 16)], 0x0, .rwl, 0xF00FFFFFFFFFFFF, 0x0⟩,
  ⟨"MEM_LD_TAIL", 0xD02008, [(0x40, 16)], 0x0, .rw, 0xFFFFFFFF, 0x0⟩,
  ⟨"MEM_LD_HEAD", 0xD02010, [(0x40, 16)], 0x0, .ro, 0x0, 0x0⟩,
  ⟨"MEM_MS_CMD", 0xD02018, [(0x40, 16)], 0x0, .rw, 0x1FF0F0F, 0x0⟩,
  ⟨"MEM_BND_LAST", 0xD02020, [(0x40, 16)], 0x0, .ro, 0x0, 0x0⟩,
  ⟨"MEM_MS_STAT", 0xD04000, [(0x10, 512)], 0x0, .ro, 0x0, 0x0⟩,
  ⟨"MEM_MS_DIG", 0xD04008, [(0x10, 512)], 0x0, .ro, 0x0, 0x0⟩,
  ⟨"STEP_DB", 0x900000, [(0x100, 16)], 0x0, .rw, 0xF000000000003FFF, 0x0⟩]

/-- Register rows, part 2. -/
def regRows2 : List RegRow := [
  ⟨"STEP_DB_STAT", 0x900008, [(0x100, 16)], 0x0, .ro, 0x0, 0x0⟩,
  ⟨"STEP_BLK", 0x900010, [(0x100, 16)], 0x0, .rwl, 0xFFFFFFFFFFFF, 0x0⟩,
  ⟨"STEP_BLK_T1", 0x900018, [(0x100, 16)], 0x0, .rwl, 0xFFFFFFFFFFFF, 0x0⟩,
  ⟨"STEP_PFX_T2", 0x900020, [(0x100, 16)], 0x0, .rwl, 0xFFFFFFFFFFFF, 0x0⟩,
  ⟨"STEP_PFX_T2N", 0x900028, [(0x100, 16)], 0x0, .rwl, 0xFFFFFF, 0x0⟩,
  ⟨"STEP_FREE", 0x900030, [(0x100, 16)], 0x0, .ro, 0x0, 0x0⟩,
  ⟨"STEP_EVT_VA", 0x900038, [(0x100, 16)], 0x0, .rwl, 0xFFFFFFFFFFFFFFFF, 0x0⟩,
  ⟨"STEP_EVT_CFG", 0x900040, [(0x100, 16)], 0x0, .rwl, 0xFFFFFFFF0FFF001F, 0x0⟩,
  ⟨"STEP_EVT_LOST", 0x900048, [(0x100, 16)], 0x0, .ro, 0x0, 0x0⟩,
  ⟨"STEP_PFX_CMD", 0x900050, [(0x100, 16)], 0x0, .rw, 0xF, 0x0⟩,
  ⟨"STEP_PFX_ARG", 0x900058, [(0x100, 16)], 0x0, .rw, 0xFFFFFFFFFFFFFFFF, 0x0⟩,
  ⟨"STEP_HCH", 0x900060, [(0x100, 16)], 0x0, .rwl, 0xFFFFFFFFFFFFFFFF, 0x0⟩,
  ⟨"STEP_GEOM0", 0x910000, [(0x40, 64)], 0x0, .rwl, 0xFFFFFFFF000007FF, 0x0⟩,
  ⟨"STEP_GEOM1", 0x910008, [(0x40, 64)], 0x0, .rwl, 0x1FFF003F01FF, 0x0⟩,
  ⟨"STEP_CHAIN", 0x910010, [(0x40, 64)], 0x0, .rwl, 0xFFFFFFFFFFFF, 0x0⟩,
  ⟨"STEP_CTL", 0x910018, [(0x40, 64)], 0x0, .rw, 0x3, 0x0⟩,
  ⟨"STEP_STAT", 0x910020, [(0x40, 64)], 0x0, .ro, 0x0, 0x0⟩,
  ⟨"STEP_EPOCH", 0x910028, [(0x40, 64)], 0x0, .ro, 0x0, 0x0⟩,
  ⟨"STEP_COMMITS", 0x910030, [(0x40, 64)], 0x0, .ro, 0x0, 0x0⟩,
  ⟨"STEP_ABORTS", 0x910038, [(0x40, 64)], 0x0, .ro, 0x0, 0x0⟩,
  ⟨"REQ_ENT", 0x1000000, [(0x200, 16384), (0x8, 32)], 0x0, .rw, 0xFFFFFFFFFFFFFFFF, 0x0⟩,
  ⟨"REQ_ENT_STATUS", 0x1000100, [(0x200, 16384), (0x8, 32)], 0x0, .ro, 0x0, 0x0⟩,
  ⟨"STEP_ABORT", 0x920000, [(0x20, 64)], 0x0, .ro, 0x0, 0x0⟩,
  ⟨"STEP_PHASE", 0x920008, [(0x20, 64)], 0x0, .ro, 0x0, 0x0⟩]

/-- Register rows, part 3. -/
def regRows3 : List RegRow := [
  ⟨"STEP_TIMES", 0x920010, [(0x20, 64)], 0x0, .ro, 0x0, 0x0⟩,
  ⟨"STEP_STALE", 0x920018, [(0x20, 64)], 0x0, .ro, 0x0, 0x0⟩,
  ⟨"XPT_CTL", 0xF00000, [], 0x0, .w1s, 0x0, 0x1⟩,
  ⟨"XPT_LINK_TX", 0xF00100, [(0x10, 7)], 0x0, .ro, 0x0, 0x0⟩,
  ⟨"XPT_LINK_RX", 0xF00108, [(0x10, 7)], 0x0, .ro, 0x0, 0x0⟩,
  ⟨"XPT_SENT", 0xF01000, [(0x40, 64)], 0x0, .ro, 0x0, 0x0⟩,
  ⟨"XPT_ADMIT", 0xF01008, [(0x40, 64)], 0x0, .ro, 0x0, 0x0⟩,
  ⟨"XPT_DROP", 0xF01010, [(0x40, 64)], 0x0, .ro, 0x0, 0x0⟩,
  ⟨"XPT_TOKSKIP", 0xF01018, [(0x40, 64)], 0x0, .ro, 0x0, 0x0⟩,
  ⟨"XPT_STALE", 0xF01020, [(0x40, 64)], 0x0, .ro, 0x0, 0x0⟩,
  ⟨"XPT_LAST", 0xF01028, [(0x40, 64)], 0x0, .ro, 0x0, 0x0⟩,
  ⟨"XPT_WAIT", 0xF01030, [(0x40, 64)], 0x0, .ro, 0x0, 0x0⟩,
  ⟨"SCHED_PMAX", 0xA00100, [(0x20, 16)], 0xC8, .rwl, 0x3FFFF, 0x0⟩,
  ⟨"SCHED_STAT", 0xA00108, [(0x20, 16)], 0x0, .ro, 0x0, 0x0⟩,
  ⟨"SCHED_SWAPS", 0xA00110, [(0x20, 16)], 0x0, .ro, 0x0, 0x0⟩,
  ⟨"SCHED_PREEMPTS", 0xA00118, [(0x20, 16)], 0x0, .ro, 0x0, 0x0⟩,
  ⟨"SCHED_CTX", 0xA01000, [(0x20, 64)], 0x0, .rw, 0x37F, 0x0⟩,
  ⟨"SCHED_CSTAT", 0xA01008, [(0x20, 64)], 0x0, .ro, 0x0, 0x0⟩,
  ⟨"SCHED_CDL", 0xA01010, [(0x20, 64)], 0x0, .ro, 0x0, 0x0⟩,
  ⟨"SCHED_CSWITCH", 0xA01018, [(0x20, 64)], 0x0, .ro, 0x0, 0x0⟩,
  ⟨"PART_CMD", 0xB00000, [], 0x0, .rw, 0xFF, 0x0⟩,
  ⟨"PART_GLB", 0xB00008, [], 0x0, .rw, 0x1, 0x0⟩,
  ⟨"PART_STAT", 0xB00100, [(0x100, 16)], 0x0, .ro, 0x0, 0x0⟩,
  ⟨"PART_COMBS", 0xB00108, [(0x100, 16)], 0x0, .rwl, 0xFFFF, 0x0⟩]

/-- Register rows, part 4. -/
def regRows4 : List RegRow := [
  ⟨"PART_T1", 0xB00110, [(0x100, 16)], 0x0, .rwl, 0xFFFFFFFF, 0x0⟩,
  ⟨"PART_T2", 0xB00118, [(0x100, 16)], 0x0, .rwl, 0xFFFFFFFF, 0x0⟩,
  ⟨"PART_REQ", 0xB00120, [(0x100, 16)], 0x0, .rwl, 0x7FFF00003FFF, 0x0⟩,
  ⟨"PART_CTX", 0xB00128, [(0x100, 16)], 0x0, .rwl, 0x7F0000003F, 0x0⟩,
  ⟨"PART_QP", 0xB00130, [(0x100, 16)], 0x0, .rwl, 0x1FFF00000FFF, 0x0⟩,
  ⟨"PART_SHARE", 0xB00138, [(0x100, 16)], 0x0, .rwl, 0x1F1F1F1F, 0x0⟩,
  ⟨"PART_CAP", 0xB00140, [(0x100, 16)], 0x0, .rwl, 0xFFF, 0x0⟩,
  ⟨"PART_CFG", 0xB00148, [(0x100, 16)], 0x0, .rwl, 0x3, 0x0⟩,
  ⟨"ACCT_CMD", 0xC00000, [], 0x0, .rw, 0x1FFF000F, 0x0⟩,
  ⟨"ACCT_USED", 0xC00008, [], 0x0, .ro, 0x0, 0x0⟩,
  ⟨"ACCT_REC", 0xC10000, [(0x80, 4096), (0x8, 16)], 0x0, .ro, 0x0, 0x0⟩,
  ⟨"ACCT_PART", 0xC90000, [(0x80, 16), (0x8, 16)], 0x0, .ro, 0x0, 0x0⟩,
  ⟨"LNK_BROOD_STAT", 0xE00000, [], 0x0, .ro, 0x0, 0x0⟩,
  ⟨"LNK_RETX", 0xE00008, [], 0x0, .ro, 0x0, 0x0⟩,
  ⟨"LNK_DUP", 0xE00010, [], 0x0, .ro, 0x0, 0x0⟩,
  ⟨"LNK_RELAY", 0xE00018, [], 0x0, .ro, 0x0, 0x0⟩,
  ⟨"LNK_DOM_DROP", 0xE00020, [], 0x0, .ro, 0x0, 0x0⟩,
  ⟨"LNK_BADPKT", 0xE00028, [], 0x0, .ro, 0x0, 0x0⟩,
  ⟨"LNK_COLL_STALE", 0xE00030, [], 0x0, .ro, 0x0, 0x0⟩,
  ⟨"LNK_DOMAIN", 0xE00100, [(0x8, 16)], 0x0, .rwl, 0xFFFF, 0x0⟩,
  ⟨"LNK_CG_BASE", 0xE00180, [(0x8, 16)], 0x0, .rwl, 0xFFFFFFFFFFFF, 0x0⟩,
  ⟨"LNK_STAGE", 0xE00200, [(0x10, 64)], 0x0, .rwl, 0xC003FFFF0003FFFF, 0x0⟩,
  ⟨"LNK_HOFF", 0xE00208, [(0x10, 64)], 0x0, .rwl, 0xFFFFFFFFFFFFFFF, 0x0⟩,
  ⟨"LNK_BL_STAT", 0xE01000, [(0x100, 7)], 0x4, .ro, 0x0, 0x0⟩]

/-- Register rows, part 5. -/
def regRows5 : List RegRow := [
  ⟨"LNK_BL_PEER", 0xE01008, [(0x100, 7)], 0x0, .ro, 0x0, 0x0⟩,
  ⟨"LNK_BL_CTL", 0xE01010, [(0x100, 7)], 0x0, .rw, 0x1, 0x2⟩,
  ⟨"LNK_BL_FEC_CE", 0xE01018, [(0x100, 7)], 0x0, .ro, 0x0, 0x0⟩,
  ⟨"LNK_BL_FEC_UE", 0xE01020, [(0x100, 7)], 0x0, .ro, 0x0, 0x0⟩,
  ⟨"LNK_BL_REPLAY", 0xE01028, [(0x100, 7)], 0x0, .ro, 0x0, 0x0⟩,
  ⟨"LNK_BL_DOWNS", 0xE01030, [(0x100, 7)], 0x0, .ro, 0x0, 0x0⟩,
  ⟨"LNK_FP_STAT", 0xE02000, [(0x100, 12)], 0x4, .ro, 0x0, 0x0⟩,
  ⟨"LNK_FP_PEER", 0xE02008, [(0x100, 12)], 0x0, .ro, 0x0, 0x0⟩,
  ⟨"LNK_FP_CTL", 0xE02010, [(0x100, 12)], 0x0, .rw, 0x1, 0x2⟩,
  ⟨"LNK_FP_FEC_CE", 0xE02018, [(0x100, 12)], 0x0, .ro, 0x0, 0x0⟩,
  ⟨"LNK_FP_FEC_UE", 0xE02020, [(0x100, 12)], 0x0, .ro, 0x0, 0x0⟩,
  ⟨"LNK_FP_REPLAY", 0xE02028, [(0x100, 12)], 0x0, .ro, 0x0, 0x0⟩,
  ⟨"LNK_FP_DOWNS", 0xE02030, [(0x100, 12)], 0x0, .ro, 0x0, 0x0⟩,
  ⟨"LNK_RING_CTL", 0xE03000, [], 0x0, .rw, 0x1, 0x6⟩,
  ⟨"LNK_RING_STAT", 0xE03008, [], 0x0, .ro, 0x0, 0x0⟩,
  ⟨"LNK_RING_PEER", 0xE03010, [(0x8, 2)], 0x0, .ro, 0x0, 0x0⟩,
  ⟨"LNK_RING_THOP", 0xE03020, [], 0x0, .ro, 0x0, 0x0⟩,
  ⟨"LNK_RING_HDROP", 0xE03028, [], 0x0, .ro, 0x0, 0x0⟩,
  ⟨"LNK_RING_WRAPS", 0xE03030, [], 0x0, .ro, 0x0, 0x0⟩,
  ⟨"LNK_RING_TURN_DROP", 0xE03038, [], 0x0, .ro, 0x0, 0x0⟩,
  ⟨"LNK_RING_CTRL_RESEND", 0xE03040, [], 0x0, .ro, 0x0, 0x0⟩,
  ⟨"LNK_RING_CTRL_FAIL", 0xE03048, [], 0x0, .ro, 0x0, 0x0⟩,
  ⟨"LNK_RING_MISSES", 0xE03050, [], 0x0, .ro, 0x0, 0x0⟩,
  ⟨"LNK_RB_CFG", 0xE03100, [(0x20, 4)], 0x0, .rw, 0xFFFFFFF000000003, 0x0⟩]

/-- Register rows, part 6. -/
def regRows6 : List RegRow := [
  ⟨"LNK_RB_SRC", 0xE03108, [(0x20, 4)], 0x0, .rw, 0xFFFFFFFFFFFF, 0x0⟩,
  ⟨"LNK_RB_STAT", 0xE03110, [(0x20, 4)], 0x0, .ro, 0x0, 0x0⟩,
  ⟨"LNK_HP_STAT", 0xE04000, [(0x100, 4)], 0x0, .ro, 0x0, 0x0⟩,
  ⟨"LNK_HP_CFG", 0xE04008, [(0x100, 4)], 0x0, .rw, 0x3FF, 0x0⟩,
  ⟨"LNK_HP_PEER", 0xE04010, [(0x100, 4)], 0x0, .ro, 0x0, 0x0⟩,
  ⟨"LNK_HP_RX", 0xE04018, [(0x100, 4)], 0x0, .ro, 0x0, 0x0⟩,
  ⟨"LNK_HP_TX", 0xE04020, [(0x100, 4)], 0x0, .ro, 0x0, 0x0⟩,
  ⟨"LNK_HP_DROP", 0xE04028, [(0x100, 4)], 0x0, .ro, 0x0, 0x0⟩,
  ⟨"LNK_HP_CNP_RX", 0xE04030, [(0x100, 4)], 0x0, .ro, 0x0, 0x0⟩,
  ⟨"LNK_HP_CNP_TX", 0xE04038, [(0x100, 4)], 0x0, .ro, 0x0, 0x0⟩,
  ⟨"LNK_HP_MACSEC_DROP", 0xE04040, [(0x100, 4)], 0x0, .ro, 0x0, 0x0⟩,
  ⟨"LNK_VIEW_KEY", 0xE05000, [(0x8, 17)], 0x0, .rw, 0xFFFFFFFFFFFFFFFF, 0x0⟩,
  ⟨"LNK_VIEW_IP", 0xE06000, [(0x18, 68)], 0x0, .rw, 0xFFFFFFFFFFFFFFFF, 0x0⟩,
  ⟨"LNK_VIEW_IP_HI", 0xE06008, [(0x18, 68)], 0x0, .rw, 0xFFFFFFFFFFFFFFFF, 0x0⟩,
  ⟨"LNK_VIEW_CFG", 0xE06010, [(0x18, 68)], 0x0, .rw, 0x1FFF, 0x0⟩,
  ⟨"LNK_QP word 0", 0xE80000, [(0x40, 4096)], 0x0, .rw, 0x1FFF7, 0x0⟩,
  ⟨"LNK_QP word 1", 0xE80008, [(0x40, 4096)], 0x0, .rw, 0xFFFFFFFFFFFF, 0x0⟩,
  ⟨"LNK_QP word 2", 0xE80010, [(0x40, 4096)], 0x0, .rw, 0x7FFFFFFFF, 0x0⟩,
  ⟨"LNK_QP word 3", 0xE80018, [(0x40, 4096)], 0x0, .rw, 0xFFFFFFFFFFFFFFFF, 0x0⟩,
  ⟨"LNK_QP word 4", 0xE80020, [(0x40, 4096)], 0x0, .rw, 0xFFFFFFFFFFFFFFFF, 0x0⟩,
  ⟨"LNK_QP word 5", 0xE80028, [(0x40, 4096)], 0x0, .rw, 0xFFFFFFFFFFFF, 0x0⟩,
  ⟨"LNK_QP word 6", 0xE80030, [(0x40, 4096)], 0x0, .ro, 0x0, 0x0⟩,
  ⟨"LNK_QP word 7", 0xE80038, [(0x40, 4096)], 0x0, .ro, 0x0, 0x0⟩,
  ⟨"CLK_IN_STAT", 0x100000, [], 0x1, .ro, 0x0, 0x0⟩]

/-- Register rows, part 7. -/
def regRows7 : List RegRow := [
  ⟨"CLK_MON_CTL", 0x100008, [], 0x3, .rw, 0x3, 0x0⟩,
  ⟨"CLK_MON_STAT", 0x100010, [], 0x0, .ro, 0x0, 0x0⟩,
  ⟨"CLK_FC_CMD", 0x100018, [], 0x0, .rw, 0x1FFFF, 0x0⟩,
  ⟨"CLK_FC_RES", 0x100020, [], 0x0, .ro, 0x0, 0x0⟩,
  ⟨"CLK_DRST", 0x100028, [], 0x0, .w1s, 0x0, 0xFFFFFFFFF⟩,
  ⟨"CLK_PLL_STAT", 0x100100, [(0x10, 36)], 0x0, .ro, 0x0, 0x0⟩,
  ⟨"CLK_MUX_STAT", 0x100108, [(0x10, 36)], 0x0, .ro, 0x0, 0x0⟩,
  ⟨"CLK_COMB_PS", 0x100400, [(0x8, 16)], 0x0, .ro, 0x0, 0x0⟩,
  ⟨"CLK_SLEEP", 0x100500, [(0x8, 16)], 0x64, .rwl, 0xFFFFFFFFFFFFFFFF, 0x0⟩,
  ⟨"TIME_SYSTIME", 0x200000, [], 0x0, .ro, 0x0, 0x0⟩,
  ⟨"TIME_STAT", 0x200008, [], 0x1000000000000000, .ro, 0x0, 0x0⟩,
  ⟨"TIME_TRIM", 0x200010, [], 0x0, .ro, 0x0, 0x0⟩,
  ⟨"TIME_CFG", 0x200018, [], 0x140064, .rw, 0xFFFFFFFF, 0x0⟩,
  ⟨"TIME_BROOD_OFS", 0x200020, [], 0x0, .ro, 0x0, 0x0⟩,
  ⟨"TIME_TOD_OFS", 0x200028, [], 0x0, .ro, 0x0, 0x0⟩,
  ⟨"TIME_CTL", 0x200030, [], 0x0, .w1s, 0x0, 0x1⟩,
  ⟨"TIME_LAUNCH_T", 0x200100, [(0x40, 32)], 0x0, .rw, 0xFFFFFFFFFFFFFFFF, 0x0⟩,
  ⟨"TIME_LAUNCH_ACT", 0x200108, [(0x40, 32)], 0x0, .rw, 0xFFFFFFFCFFFFFFFF, 0x0⟩,
  ⟨"TIME_LAUNCH_ID", 0x200110, [(0x40, 32)], 0x0, .rw, 0xFFFFFFFFFFFFFFFF, 0x0⟩,
  ⟨"TIME_LAUNCH_DIG", 0x200118, [(0x40, 32)], 0x0, .rw, 0xFFFFFFFFFFFFFFFF, 0x0⟩,
  ⟨"TIME_LAUNCH_STAT", 0x200120, [(0x40, 32)], 0x0, .ro, 0x0, 0x0⟩,
  ⟨"PWR_CAP", 0x300000, [], 0x440BB8, .rw, 0x7F0FFF, 0x0⟩,
  ⟨"PWR_STAT", 0x300008, [], 0x0, .ro, 0x0, 0x0⟩,
  ⟨"PWR_EST", 0x300010, [], 0x0, .ro, 0x0, 0x0⟩]

/-- Register rows, part 8. -/
def regRows8 : List RegRow := [
  ⟨"PWR_CAL", 0x300018, [], 0x0, .ro, 0x0, 0x0⟩,
  ⟨"PWR_HB", 0x300020, [], 0x0, .w1s, 0x0, 0x1⟩,
  ⟨"PWR_TEMP", 0x300028, [], 0x0, .ro, 0x0, 0x0⟩,
  ⟨"PWR_ENERGY_DEV", 0x300030, [], 0x0, .ro, 0x0, 0x0⟩,
  ⟨"PWR_RAIL", 0x300100, [(0x8, 8)], 0x8000000000000000, .ro, 0x0, 0x0⟩,
  ⟨"PWR_THR_US", 0x300200, [(0x8, 7)], 0x0, .ro, 0x0, 0x0⟩,
  ⟨"PWR_COMB", 0x300300, [(0x8, 16)], 0xF000, .ro, 0x0, 0x0⟩,
  ⟨"PWR_FIXED", 0x300400, [(0x40, 16)], 0x0, .rwl, 0x17F, 0x0⟩,
  ⟨"PWR_PART_EST", 0x300408, [(0x40, 16)], 0x0, .ro, 0x0, 0x0⟩,
  ⟨"PWR_PART_ENERGY", 0x300410, [(0x40, 16)], 0x0, .ro, 0x0, 0x0⟩,
  ⟨"PWR_PART_THR_US", 0x300800, [(0x40, 16), (0x8, 7)], 0x0, .ro, 0x0, 0x0⟩,
  ⟨"BOOT_STAT", 0x500000, [], 0x10000C000000001, .ro, 0x0, 0x0⟩,
  ⟨"BOOT_FW", 0x500008, [], 0x0, .ro, 0x0, 0x0⟩,
  ⟨"BOOT_FAIL", 0x500010, [], 0x0, .ro, 0x0, 0x0⟩,
  ⟨"BOOT_SLOT", 0x500020, [(0x8, 2)], 0x0, .ro, 0x0, 0x0⟩,
  ⟨"BOOT_CMD", 0x500030, [], 0x0, .rw, 0x1F, 0x0⟩,
  ⟨"BOOT_FW_SRC", 0x500038, [], 0x0, .rw, 0xFFFFFFFFFFFF, 0x0⟩,
  ⟨"BOOT_FW_LEN", 0x500040, [], 0x0, .rw, 0xFFFFFF, 0x0⟩,
  ⟨"BOOT_T_READY", 0x500048, [], 0x0, .ro, 0x0, 0x0⟩,
  ⟨"BOOT_DIGEST", 0x500100, [(0x8, 8)], 0x0, .ro, 0x0, 0x0⟩,
  ⟨"PSR_WORD", 0x400000, [(0x8, 1024)], 0x0, .wp, 0xFFFFFFFFFFFFFFFF, 0x0⟩,
  ⟨"PSR_WEAR", 0x402000, [(0x8, 1024)], 0x0, .ro, 0x0, 0x0⟩,
  ⟨"PSR_STAT", 0x404000, [], 0x0, .ro, 0x0, 0x0⟩,
  ⟨"PSR_GRP_CMD", 0x404008, [], 0x0, .rw, 0xF, 0x100⟩]

/-- Register rows, part 9. -/
def regRows9 : List RegRow := [
  ⟨"PSR_GRP_IDX", 0x404010, [(0x10, 8)], 0x0, .rw, 0x3FF, 0x0⟩,
  ⟨"PSR_GRP_VAL", 0x404018, [(0x10, 8)], 0x0, .rw, 0xFFFFFFFFFFFFFFFF, 0x0⟩,
  ⟨"PSR_BAD", 0x404100, [(0x8, 16)], 0x0, .ro, 0x0, 0x0⟩,
  ⟨"BIST_CTL", 0x700000, [], 0x1, .rw, 0x1, 0x0⟩,
  ⟨"BIST_STAT", 0x700008, [], 0x0, .ro, 0x0, 0x0⟩,
  ⟨"BIST_SLICES", 0x700010, [], 0x0, .ro, 0x0, 0x0⟩,
  ⟨"BIST_DEFERS", 0x700018, [], 0x0, .ro, 0x0, 0x0⟩,
  ⟨"BIST_FORCED", 0x700020, [], 0x0, .ro, 0x0, 0x0⟩,
  ⟨"BIST_SKIPPED", 0x700028, [], 0x0, .ro, 0x0, 0x0⟩,
  ⟨"BIST_LAST_FAIL", 0x700030, [], 0x0, .ro, 0x0, 0x0⟩,
  ⟨"BIST_GROUP", 0x700100, [(0x8, 256)], 0x0, .ro, 0x0, 0x0⟩,
  ⟨"SEC_STAT", 0x600000, [], 0x0, .ro, 0x0, 0x0⟩,
  ⟨"SEC_DBG_LOCK", 0x600008, [], 0x0, .w1s, 0x0, 0x1⟩,
  ⟨"SEC_MR", 0x600100, [(0x40, 3), (0x8, 8)], 0x0, .ro, 0x0, 0x0⟩,
  ⟨"SEC_MRP", 0x600200, [(0x40, 16), (0x8, 8)], 0x0, .ro, 0x0, 0x0⟩,
  ⟨"SEC_KEYDIG", 0x600800, [(0x100, 16), (0x40, 4), (0x8, 8)], 0x0, .ro, 0x0, 0x0⟩,
  ⟨"SEC_CERT_LEN", 0x602000, [], 0x0, .ro, 0x0, 0x0⟩,
  ⟨"SEC_CERT", 0x602100, [(0x8, 512)], 0x0, .ro, 0x0, 0x0⟩,
  ⟨"SEC_CMD", 0x604000, [(0x400, 17)], 0x0, .rw, 0xCFF, 0x0⟩,
  ⟨"SEC_KEYBUF", 0x604040, [(0x400, 17), (0x8, 8)], 0x0, .rw, 0xFFFFFFFFFFFFFFFF, 0x0⟩,
  ⟨"SEC_NONCE", 0x604080, [(0x400, 17), (0x8, 8)], 0x0, .rw, 0xFFFFFFFFFFFFFFFF, 0x0⟩,
  ⟨"SEC_QUOTE", 0x604100, [(0x400, 17), (0x8, 64)], 0x0, .ro, 0x0, 0x0⟩,
  ⟨"FLT_STAT", 0x2000000, [], 0x0, .ro, 0x0, 0x0⟩,
  ⟨"FLT_PART_CNT", 0x2000100, [(0x8, 16)], 0x0, .ro, 0x0, 0x0⟩]

/-- Register rows, part 10. -/
def regRows10 : List RegRow := [
  ⟨"FLT_CLASS_CNT", 0x2000200, [(0x8, 20)], 0x0, .ro, 0x0, 0x0⟩,
  ⟨"FLT_REC", 0x2010000, [(0x20, 4096), (0x8, 4)], 0x0, .ro, 0x0, 0x0⟩,
  ⟨"STEP_DEADLINE_MARGIN", 0x930000, [(0x8, 64)], 0x19, .rw, 0x3FF, 0x0⟩]

/-- Every register of the control space (Table 18-9). -/
def regRows : List RegRow :=
  regRows0 ++ regRows1 ++ regRows2 ++ regRows3 ++ regRows4 ++ regRows5 ++ regRows6 ++ regRows7 ++ regRows8 ++ regRows9 ++ regRows10

/-- The reset value of the register at a control-space offset; 0 for every register whose map gives 0 and for offsets that no map lists. -/
def regReset (off : Nat) : Nat :=
  if off = 0x0 then 0x5840B200 else  -- GLB_ID
  if off = 0x10 then 0x8000000000 else  -- GLB_DIE_PWR
  if 0x8000068 ≤ off ∧ off < 0x10000068 ∧ (off - 0x8000068) % 0x4000 = 0 then 0xA else  -- DBG_WDOG
  if off = 0xD00010 then 0x1 else  -- MEM_PATROL_CTL
  if 0xD01000 ≤ off ∧ off < 0xD01800 ∧ (off - 0xD01000) % 0x8 = 0 then 0x20 else  -- MEM_FQ_LIMIT
  if 0xA00100 ≤ off ∧ off < 0xA00300 ∧ (off - 0xA00100) % 0x20 = 0 then 0xC8 else  -- SCHED_PMAX
  if 0xE01000 ≤ off ∧ off < 0xE01700 ∧ (off - 0xE01000) % 0x100 = 0 then 0x4 else  -- LNK_BL_STAT
  if 0xE02000 ≤ off ∧ off < 0xE02C00 ∧ (off - 0xE02000) % 0x100 = 0 then 0x4 else  -- LNK_FP_STAT
  if off = 0x100000 then 0x1 else  -- CLK_IN_STAT
  if off = 0x100008 then 0x3 else  -- CLK_MON_CTL
  if 0x100500 ≤ off ∧ off < 0x100580 ∧ (off - 0x100500) % 0x8 = 0 then 0x64 else  -- CLK_SLEEP
  if off = 0x200008 then 0x1000000000000000 else  -- TIME_STAT
  if off = 0x200018 then 0x140064 else  -- TIME_CFG
  if off = 0x300000 then 0x440BB8 else  -- PWR_CAP
  if 0x300100 ≤ off ∧ off < 0x300140 ∧ (off - 0x300100) % 0x8 = 0 then 0x8000000000000000 else  -- PWR_RAIL
  if 0x300300 ≤ off ∧ off < 0x300380 ∧ (off - 0x300300) % 0x8 = 0 then 0xF000 else  -- PWR_COMB
  if off = 0x500000 then 0x10000C000000001 else  -- BOOT_STAT
  if off = 0x700000 then 0x1 else  -- BIST_CTL
  if 0x930000 ≤ off ∧ off < 0x930200 ∧ (off - 0x930000) % 0x8 = 0 then 0x19 else  -- STEP_DEADLINE_MARGIN
  0

end Sys2Proof
end

