-- ==== Sys2Proof/Machine/StateArray.lean ====
section
/-!
DEFINITION. State of the array (chapters 02 to 06): cells with their task contexts, queues, banks and registers, sequencers, bound
registers, work counters, issued streams, packets in the mesh, molt controllers, image handles and the loader.
-/
namespace Sys2Proof.Machine

/-! ### Cells (R31) -/

/-- Task-context states with the codes of Table 2-4. -/
inductive TcState where
  | unused | ready | running | waitIn | waitOut | done | halted
  deriving DecidableEq, Repr

/-- What a waiting task context waits for (R40, R62): a queue, an output as 16·context + output, a summary register as 16·context + register. -/
inductive Wait where
  | none
  | queue (q : Nat)
  | output (o : Nat)
  | summary (r : Nat)
  deriving DecidableEq, Repr

/-- A summary register with its valid and EMPTY flags (R36, R90). -/
structure SumReg where
  val : W32
  valid : Bool
  empty : Bool
  deriving DecidableEq, Repr

/-- Who must get the credit of a queue slot back (R43, R180): a cell with the TAG its tile carried (16·context + output), the forager of an issue, or
an edge die, at the port that sent the tile, with the TAG of the tile and the node whose cell produced it (log entry 43). -/
inductive Producer where
  | cell (c : Nat) (tag : Nat)
  | forager (issue : Nat)
  | edge (port : Nat) (tag : Nat) (node : Nat)
  deriving DecidableEq, Repr

/-- A slot of a stream queue that is taken: its position in the ring, its producer, whether the tile has landed, whether it is the last of
its stream, and when it landed. -/
structure QSlot where
  pos : Nat
  prod : Producer
  landed : Bool
  eos : Bool
  at_ : Nat
  deriving DecidableEq, Repr

/-- A stream queue: the next ring position and the taken slots, oldest first. -/
structure Queue where
  next : Nat
  slots : List QSlot
  deriving DecidableEq, Repr

/-- An output of a task context: credits held (R43), tiles put in the present issue, END_OF_STREAM sent (R120). -/
structure OutPort where
  credits : Nat
  put : Nat
  ended : Bool
  deriving DecidableEq, Repr

/-- A running chain (R75, R82, R84): its bank, grain base, grain count and total, reduction length, whether it is a combining chain, the products
formed, and the stack of pending subtree sums (level, 4,096 elements keyed 64·row + column), top first. -/
structure ChainRun where
  bank : Nat
  b : Nat
  c : Nat
  n : Nat
  k : Nat
  combine : Bool
  done : Nat
  total : Nat
  pend : List (Nat × Store W32)
  token : Nat
  deriving DecidableEq, Repr

/-- Progress of a steering construct (Table 2-9): stream ID of the last tile taken, the pass of a LOOP or copy of a REPEAT, the sequence number of the last tile
taken, and the count N and the BOUND selector as read at issue. -/
structure SteerRun where
  lastStream : Nat
  pass : Nat
  lastSeq : Nat
  n : Nat
  sel : Nat
  deriving DecidableEq, Repr

/-- A task context (R40). `since` is the time of its last progress for the stall watchdog (R61), moved on by the time that a halt stopped
the count. -/
structure Tc where
  st : TcState
  pc : Nat
  wait : Wait
  since : Nat
  progEnd : Bool
  sums : Store SumReg
  outs : Store OutPort
  inEnded : List Nat
  chains : Store (Option ChainRun)
  steer : SteerRun
  deriving DecidableEq, Repr

/-- A configuration record in a bank (R138), its coordinates already resolved to the cell that holds it. -/
structure CfgRec where
  typ : Nat
  tc : Nat
  payload : List Byte
  deriving DecidableEq, Repr

/-- A cell (Table 2-1). SRAM bytes live in memory at the cell's T0 window (R169); everything else is here: `bufFresh` names the
tile buffers whose landed tile no use has checked yet (R103), `last` the task context that last held the issue slot, `haltAt` the time from which a
halted task context stops the watchdog, `forCredits` the credits that the cell's forager holds for each of its queues (R43, R180). -/
structure Cell where
  gen : Byte
  bank : Bool
  active : List CfgRec
  shadow : List CfgRec
  shadowValid : Bool
  shadowBad : Bool
  tcs : Store Tc
  queues : Store Queue
  bufFresh : List Nat
  vregs : Store W32
  acc : Store W32
  unacked : Nat
  drainSent : Bool
  last : Nat
  haltAt : Option Nat
  forCredits : Store Nat
  deriving DecidableEq, Repr

/-! ### Streams (chapter 04) -/

/-- A dimension record of a stream descriptor (Table 4-6). -/
structure Dim where
  stride : Int
  count : Nat
  max : Nat
  srcBnd : Bool
  srcIdx : Nat
  b0 : Nat
  b1 : Nat
  deriving DecidableEq, Repr

/-- A stream descriptor (Tables 4-5 to 4-7). -/
structure StreamDesc where
  base : Nat
  streamId : Nat
  kind : Nat
  tier : Nat
  format : Nat
  buffered : Bool
  blocked : Bool
  slotted : Bool
  eosSeparate : Bool
  speculative : Bool
  spillable : Bool
  producer : Nat
  consumer : Nat
  dims : List Dim
  spillDepth : Nat
  order2 : Nat
  order1 : Nat
  order0 : Nat
  deriving DecidableEq, Repr

/-- An issue of a stream on one binding, or of a chain on one cell (R115, R119, R181): its own number and the token its sequencer got, the cell and task context bound, the descriptor and
the counts it read, its queue and first buffer (of a chain: its bank), the forager context it holds, its T1 staging slots, how many transfers were sent, landed and
taken, the tiles spilled, the fetches of a BUFFERED LOAD that have landed, the tiles copied into staging, whether END_OF_STREAM was delivered and whether the issue has ended. -/
structure Issue where
  uid : Nat
  token : Nat
  part : Nat
  comb : Nat
  cell : Nat
  tc : Nat
  descIdx : Nat
  sd : StreamDesc
  counts : List Nat
  queue : Nat
  buf : Nat
  chain : Option Nat
  forager : Option Nat
  stage : Option Nat
  sent : Nat
  landed : Nat
  taken : Nat
  spilled : List Nat
  demand : Bool
  got : List Nat
  copied : Nat
  eos : Bool
  ended : Bool
  deriving DecidableEq, Repr

/-- The flits of a packet in one input buffer of a router (R48): the router, its input port (0 N, 1 E, 2 S, 3 W, 4 local) and how many of the packet's
flits the buffer holds, and since when (the model's clock when the first of them came). -/
structure Hop where
  router : Nat
  port : Nat
  held : Nat
  since : Nat
  deriving DecidableEq, Repr

/-- A packet on its way through the routers (R48): the output port of each router on its route (as an input port is numbered; 4 also for a local port), the flits that are still to
enter the first buffer, and the buffers on the route in order. A packet all of whose flits have reached the last router's output has no buffers left. -/
structure Flight where
  pkt : Packet
  outs : List Nat
  toEnter : Nat
  hops : List Hop
  deriving DecidableEq, Repr

/-- A work counter (R124, R127). -/
structure Wkc where
  val : Nat
  live : Bool
  deriving DecidableEq, Repr

/-! ### Sequencers (R149, R153) -/

/-- What a sequencer waits for. -/
inductive SeqWait where
  | none
  | wkc (rd : Nat)
  | molt (rd : Nat) (instar : Nat)
  | step (rd : Nat)
  | launch (rd : Nat) (slot : Nat)
  deriving DecidableEq, Repr

/-- A sequencer: whether it runs, its program counter, x1 to x31, its summary registers q0 to q15, its data memory and what it
waits for. -/
structure SeqSt where
  on : Bool
  pc : Nat
  x : Store Word
  q : Store SumReg
  data : Store Byte
  wait : SeqWait
  stepEpoch : Nat
  deriving DecidableEq, Repr

/-- A sequencer program in a comb's program store (R143). -/
structure Prog where
  text : List Byte
  data : List Byte
  entry : Nat
  voter : Bool
  deriving DecidableEq, Repr

/-- The array. `combMap` is the routers' map from comb to partition, 0 for none and p + 1 for p (R54); `genAt` the time of a comb's
last generation change (R164); `stallEpoch` marks combs that have recorded FLT_STALL in the present step epoch. -/
structure Fabric where
  cells : Store Cell
  seqs : Store SeqSt
  bnd : Store W32
  wkc : Store Wkc
  issues : List Issue
  nextToken : Nat
  transit : List Packet
  combMap : Store Nat
  stalled : List Nat
  deriving DecidableEq, Repr

/-! ### Images and molts (chapter 05) -/

/-- A registered or registering image: its area, length, origin comb and placed region addresses. -/
structure Img where
  addr : Nat
  len : Nat
  origin : Nat
  place : List Nat
  deriving DecidableEq, Repr

/-- One partition's molt controller beside MOLT_STAT (R154 to R166): cells whose last CFG_WRITE is not yet acknowledged, the requests
of the voters (comb, instar), combs whose collectors have all DRAINs counted, DRAIN counts, the barrier's completion, the target of a switch,
times of the phases, a timed molt's hold, and an abort that waits for the end of FLIPPING. -/
structure Molt where
  unacked : List Nat
  requests : List (Nat × Nat)
  draining : Bool
  drained : Store Nat
  barrier : Bool
  target : Option (Nat × Nat)
  loadStart : Nat
  drainStart : Nat
  flipStart : Nat
  genAt : Nat
  abortWaits : Bool
  held : Option Nat
  cmdHandle : Nat
  deriving DecidableEq, Repr

/-- Images and molts: handles keyed 16·p + h, programs keyed 64·(16·p + h) + 4·comb + sequencer. -/
structure ImgPart where
  imgs : Store (Option Img)
  progs : Store (Option Prog)
  molts : Store Molt
  deriving DecidableEq, Repr

/-! ### Memory, loader and model store (chapter 06) -/

/-- A running loader job (R189, R190): its record, index in the ring, source bytes received from the host or the ring, the ranges
(offset, length) still missing, since when one of them is a hole, the colony index of the broadcast's origin, and the time of its last byte. -/
structure Job where
  part : Nat
  index : Nat
  record : List Byte
  src : Store Byte
  got : Nat
  status : Nat
  holes : List (Nat × Nat)
  holeAt : Nat
  origin : Option Nat
  lastAt : Nat
  deriving DecidableEq, Repr

/-- A repair (R201): the model-store entry, the region record, the failing tile's address, and for a host source the bytes read so far and
the ranges (offset, length) still missing. -/
structure Repair where
  entry : Nat
  region : Nat
  addr : Nat
  src : Store Byte
  holes : List (Nat × Nat)
  deriving DecidableEq, Repr

/-- A place in the patrol's walk (R200): regions come before blocks; then 64·entry + region, or the handle; the block's position in its chain; the slot. -/
structure PatrolKey where
  kind : Nat
  owner : Nat
  pos : Nat
  slot : Nat
  deriving DecidableEq, Repr

/-- An error that a 512-byte unit of T1 or T2 holds (R173, R175) and that no read has met yet: the unit (device address ÷ 512), and whether it cannot be
corrected. -/
structure DramError where
  unit : Nat
  fatal : Bool
  deriving DecidableEq, Repr

/-- The loader and the memories: running jobs, ended jobs (partition, index) that HEAD has not passed, the partition from which the next job is looked for,
repairs waiting or running, oldest first, the place from which the patrol's walk goes on, the tile slots of each region of the model store, keyed
64·entry + region, and the DRAM errors that no read has met. -/
structure Loader where
  jobs : List Job
  ended : List (Nat × Nat)
  turn : Nat
  repairs : List Repair
  patrolAt : PatrolKey
  sizes : Store Nat
  ecc : List DramError
  deriving DecidableEq, Repr

end Sys2Proof.Machine
end

