-- ==== Sys2Proof/Machine/StateLink.lean ====
section
/-!
DEFINITION. State of the brood links, fabric ports, flows, collectives and handoffs (chapter 11) that no register holds.
-/
namespace Sys2Proof.Machine

/-- A link flit kept for replay with the number of times it was sent (R322, R324). -/
structure ReplayFlit where
  lseq : Nat
  cls : Nat
  start : Nat
  payload : List Byte
  sends : Nat
  deriving DecidableEq, Repr

/-- The fields of a hello that a port keeps (Table 11-4). -/
structure HelloInfo where
  node : Word
  link : Nat
  kind : Nat
  fwMinor : Nat
  fwMajor : Nat
  session : Nat
  flags : Nat
  direct : Nat
  members : Nat
  digest : List Byte
  deriving DecidableEq, Repr

/-- A packet that waits at a port, with the partition whose frame slots serve it (R310): its class and the bytes still to be sent, whether its first bytes went out in an earlier flit. -/
structure QueuedPkt where
  owner : Option Nat
  cls : Nat
  cut : Bool
  bytes : List Byte
  deriving DecidableEq, Repr

/-- A port's link layer and last hello (R320 to R325). Credits and freed counts are CTRL, RESP, DATA; `txq` holds the packets, in order of arrival,
that wait for a credit or for room in the replay buffer; `lastCls` is the class of the last RESP or DATA flit sent, `slots` the next slot of each class's frame;
`skip` discards flits until the expected LSEQ comes again. -/
structure Port where
  since : Nat
  txSeq : Nat
  rxSeq : Nat
  skip : Bool
  replay : List ReplayFlit
  creditsCtrl : Nat
  creditsResp : Nat
  creditsData : Nat
  freedCtrl : Nat
  freedResp : Nat
  freedData : Nat
  txq : List QueuedPkt
  lastCls : Nat
  slots : Store Nat
  lastRx : Nat
  lastTx : Nat
  lastHello : Nat
  helloAcked : Bool
  hello : Option HelloInfo
  deriving DecidableEq, Repr

/-- A packet of a flow as sent, with its kind, the time of its last send and the number of sends (R335). -/
structure SentPkt where
  kind : Nat
  pkt : FrPkt
  at_ : Nat
  sends : Nat
  deriving DecidableEq, Repr

/-- The sending side of a flow. -/
structure FlowTx where
  next : Nat
  unacked : List SentPkt
  waiting : List SentPkt
  lastPort : Nat
  deriving DecidableEq, Repr

/-- The receiving side of a flow: the session, the next FSEQ to deliver, held packets (kind and packet), and the packets not yet acknowledged. -/
structure FlowRx where
  session : Nat
  next : Nat
  held : List (Nat × FrPkt)
  toAck : Nat
  since : Nat
  deriving DecidableEq, Repr

/-- What the device knows of another node's reachability (R339, R340). -/
structure Peer where
  lastBeat : Nat
  unreachAt : Option Nat
  refused : List Nat
  beatSentAt : Nat
  withdrawn : Bool
  deriving DecidableEq, Repr

/-- A remote wait (R341): what waits, since when progress, and the node awaited. -/
inductive WaitKind where
  | queue (cell : Nat) (tc : Nat) (stream : Nat)
  | counter (comb : Nat) (seq : Nat) (index : Nat)
  | collective (part : Nat) (group : Nat)
  deriving DecidableEq, Repr

/-- A wait of R341. -/
structure RemoteWait where
  kind : WaitKind
  comb : Nat
  node : Nat
  since : Nat
  deriving DecidableEq, Repr

/-- A piece of a collective (R346, R348): phase, sender rank, tile index, tile. -/
structure Piece where
  phase : Nat
  rank : Nat
  tile : Nat
  data : List Byte
  deriving DecidableEq, Repr

/-- The active or retained issue of a group (R347 to R349): its stamp (epoch or launch time, CINDEX), the record's fields, the ranks' node IDs,
the input tiles, the pieces accepted, the number of tiles delivered and the highest TRY seen by rank. -/
structure CollIssue where
  ctx : Nat
  index : Nat
  stamp : Nat
  cindex : Nat
  scope : Nat
  op : Nat
  fmtIn : Nat
  fmtOut : Nat
  s : Nat
  nodes : List Nat
  rank : Nat
  inputs : List (List Byte)
  pieces : List Piece
  results : List (Nat × List Byte)
  delivered : Nat
  tries : Store Nat
  deriving DecidableEq, Repr

/-- One collective group of a partition: the issue in progress, the last completed one, issues counted in the attempt, and tiles (index, whether their stream has EOS_SEPARATE, tile) of issues
that follow. -/
structure CollGroup where
  active : Option CollIssue
  kept : Option CollIssue
  issued : Nat
  waiting : List (Nat × Bool × List Byte)
  deriving DecidableEq, Repr

/-- The handoff buffer of a stage-linked context (R258, R350, R351): the number being received, bad and complete numbers, the handoff in the
consume area (number, whether consumed), the node it came from, numbers sent and acknowledged. -/
structure Handoff where
  bad : List Nat
  complete : List Nat
  consume : Option Nat
  copying : Option Nat
  usable : Bool
  src : Nat
  sent : Nat
  acked : Nat
  deriving DecidableEq, Repr

/-- The link logic of both IO dies. -/
structure Links where
  session : Nat
  ports : Store Port
  tx : Store FlowTx
  rx : Store FlowRx
  peers : Store Peer
  lead : Option Nat
  participants : Store (List Nat)
  misEnd : Option Nat
  dupEnd : Option Nat
  waits : List RemoteWait
  groups : Store CollGroup
  heldPieces : List (Nat × FrPkt)
  handoff : Store Handoff
  served : Store (Nat × Nat)
  deriving DecidableEq, Repr

end Sys2Proof.Machine
end

