-- ==== Sys2Proof/Machine/StateServe.lean ====
section
/-!
DEFINITION. State of the serving engine, step commit, expert engines, scheduler, partitions and accounting (chapters 07 to 10) that no
register of the control space holds. The tables of the serving reserve whose layout R219 gives (block table, reference counts, committed and
working copies of the request table) are bytes of memory at the addresses of Table 7-9; chain lists and result tables are bytes of T1.
-/
namespace Sys2Proof.Machine

/-- Why an attempt aborts: its code of Table 8-3, the fault cause, whether it counts in F, the brood position of the originating device, and the fault class. -/
structure AbortInfo where
  code : Nat
  fcause : Nat
  counted : Bool
  origin : Nat
  cls : Nat
  deriving DecidableEq, Repr

/-- One computing slot of an attempt: slot, request entry, tokens entering KV, prompt tokens among them, whether the slot samples, and the tree
(token, parent) of a speculating slot from node 1 on. -/
structure SlotPlan where
  slot : Nat
  entry : Nat
  new : Nat
  prompt : Nat
  samples : Bool
  tree : List (Nat × Nat)
  deriving DecidableEq, Repr

/-- A slot of stage 0 whose step has committed and whose samples are still to come back from the last stage (R259): its plan, KV_LEN before the step, SLOT_GEN. -/
structure SlotAwait where
  plan : SlotPlan
  kv : Nat
  slotGen : Nat
  deriving DecidableEq, Repr

/-- A slot of a context that holds a request in the committed state (R216). -/
structure SlotHold where
  slot : Nat
  entry : Nat
  deriving DecidableEq, Repr

/-- A tile whose check failed (R255): stream ID and SEQ, or 2^16 and the block ID for cause 0x0B11; what it is (0 another tile, 1 a weight tile from T2 at
address `arg`, 2 a KV tile of block `arg`). -/
structure TileKey where
  a : Nat
  b : Nat
  what : Nat
  arg : Nat
  deriving DecidableEq, Repr

/-- What a loop in HELD waits for (R255): the repair of a region of a model-store entry, or the rewrite of a block. -/
inductive Hold where
  | repair (entry : Nat) (region : Nat)
  | block (b : Nat)
  deriving DecidableEq, Repr

/-- A block that an attempt took (R217, R223): the request entry, the address of the chain-list entry written, the block, what the chain-list entry held
before, and whether it takes the place of a shared block. -/
structure Taken where
  entry : Nat
  addr : Nat
  block : Nat
  old : Nat
  copied : Bool
  deriving DecidableEq, Repr

/-- A START that a member holds (R241, R296): the epoch, the serving tiles that precede it and the digest prefix. -/
structure StartMsg where
  epoch : Nat
  tiles : Nat
  digest : Nat
  deriving DecidableEq, Repr

/-- The attempt of a context (R237 to R252). `epoch` is the last epoch the series has given; `admits` the admissions of the present
attempt (slot, entry); `mustReplay` that the next attempt repeats them; `plan` its computing slots; `votes` the combs that voted COMMIT; `mvotes` and
`acks` brood positions heard; `sent` that the lead has sent DECIDE at time `tc`; `decided` that the decision instant has passed; `taken` the
blocks that the present attempt took, `shared` the chains that its admissions copied (entry, handle index, blocks), `pauses` the entries that become PAUSED at its
commit; `lastTile` the failing tile of the last attempt and how often in a row it failed; `launchT` the launch time of the step (R347); `lateAbort` that a member heard
ABORT for the epoch it had committed (R244); `records` the output records (entry, place, bytes) that the attempt has sent (R230). -/
structure Attempt where
  epoch : Nat
  lastCommitted : Nat
  admits : List (Nat × Nat)
  mustReplay : Bool
  plan : List SlotPlan
  votes : List Nat
  mvotes : List Nat
  acks : List Nat
  decideSent : Bool
  acked : Bool
  tc : Nat
  decided : Bool
  applying : Bool
  pend : Option AbortInfo
  pendStart : Option StartMsg
  startAt : Nat
  voteAt : Nat
  abortAt : Nat
  lastAbort : Nat
  lastTile : Option TileKey
  tileFails : Nat
  taken : List Taken
  shared : List (Nat × Nat × List Nat)
  pauses : List Nat
  hold : Option Hold
  launchT : Option Nat
  lateAbort : Bool
  records : List (Nat × Nat × List Byte)
  deriving DecidableEq, Repr

/-- Prefix-handle states (R223). -/
inductive HandleState where
  | free | valid | demoting | demoted | promoting
  deriving DecidableEq, Repr

/-- A handle entry (R223): the handle's partition, generation, length in tokens, uses, digest prefix, TPB, PLANES, chain slot, the blocks of the chain entries
copied into it, none while it is DEMOTED and those promoted so far while it is PROMOTING, and the T2 copies of its blocks (place in the chain, T2 address), kept from
demotion until release (R256). -/
structure Handle where
  st : HandleState
  part : Nat
  gen : Nat
  len : Nat
  uses : Nat
  digest : Nat
  tpb : Nat
  planes : Nat
  chain : Nat
  blocks : List Nat
  copies : List (Nat × Nat)
  deriving DecidableEq, Repr

/-- An event record that awaits ring room (Table 7-14). -/
structure Event where
  typ : Nat
  loop : Nat
  object : Nat
  epoch : Nat
  time : Nat
  detail : Nat
  deriving DecidableEq, Repr

/-- A block copy in progress (R224, R255): the block in T1, its place in the handle's chain, the device addresses copied from and to, whether it is a demotion, and
the handle it serves (2^20 for the rewrite of a block). -/
structure BlockCopy where
  part : Nat
  block : Nat
  pos : Nat
  src : Nat
  dst : Nat
  toT2 : Bool
  handle : Nat
  deriving DecidableEq, Repr

/-- A host read that waits for the end of a commit (R247): queue pair, address, key, length. -/
structure HeldRead where
  qp : Nat
  va : Nat
  rkey : Nat
  len : Nat
  deriving DecidableEq, Repr

/-- The serving engine. Slot holdings are keyed by context; slot generations by 1,024·context + slot; last ring HEAD read, submit order,
prompt tokens, prefix length, last emitted token, chain entries in use, blocks still reserved and the change due at the next commit (7 KV_LOST, 8 OUTPUT_QP,
16 SUSPENDED) by entry; `stageKv` the KV length of a slot at a later stage by 1,024·context + slot (R259); `awaits` the committed steps of a stage 0 whose results are still to come, oldest first, by context; event state by partition; events that await a commit by context; doorbells (operation, entry, view) by partition. -/
structure Serving where
  att : Store Attempt
  slots : Store (List SlotHold)
  slotGen : Store Nat
  handles : Store Handle
  order : Store Nat
  nextOrder : Nat
  heads : Store Nat
  prompts : Store (List Nat)
  prefixLen : Store Nat
  lastTok : Store Nat
  chainN : Store Nat
  pausedAt : Store Nat
  polledAt : Store Nat
  evts : Store (List Event)
  evtHead : Store Nat
  evtTail : Store Nat
  evtLost : Store Nat
  evtPolledAt : Store Nat
  later : Store (List Event)
  doorbells : Store (List (Nat × Nat × Nat))
  copies : List BlockCopy
  dead : List Nat
  reserved : Store Nat
  due : Store Nat
  held : List HeldRead
  awaits : Store (List (List SlotAwait))
  stageKv : Store Nat
  deriving DecidableEq, Repr

/-! ### Expert engines (chapter 09) -/

/-- An entry as its source sent it (R270): rank, slot, token, expert, slot generation and source row; whether it is resolved and kept. -/
structure SentEntry where
  slot : Nat
  token : Nat
  rank : Nat
  expert : Nat
  slotGen : Nat
  srcRow : Nat
  resolved : Bool
  kept : Bool
  deriving DecidableEq, Repr

/-- A row of the choice stream as read (Table 9-3). -/
structure ChoiceRow where
  slot : Nat
  token : Nat
  srcRow : Nat
  skip : Bool
  exps : List Nat
  ws : List W32
  deriving DecidableEq, Repr

/-- The source side of a layer in the present attempt; `checked` are the activation tiles that it has read and that passed their check (R270). -/
structure XptSource where
  layer : Nat
  rows : List ChoiceRow
  checked : List Nat
  sent : List SentEntry
  ended : Bool
  notified : Bool
  deriving DecidableEq, Repr

/-- An entry at a home's merge (R271): its key, expert, slot generation, source row, source position and activation rows. -/
structure HomeEntry where
  slot : Nat
  token : Nat
  rank : Nat
  expert : Nat
  slotGen : Nat
  srcRow : Nat
  pos : Nat
  data : List Byte
  deriving DecidableEq, Repr

/-- The home side of a layer: waiting entries, positions whose stream has ended, admitted entries in order of admission, drops, whether the
admitted counts were sent, output tiles (SEQ, tile) received per expert, and the experts whose output stream has ended. -/
structure XptHome where
  layer : Nat
  waiting : List HomeEntry
  ended : List Nat
  admitted : List HomeEntry
  drops : List HomeEntry
  notified : Bool
  outs : Store (List (Nat × List Byte))
  outEnded : List Nat
  deriving DecidableEq, Repr

/-- The expert engines, keyed by context; `progress` is the time of the last progress of an engine that waits, keyed 2·context + engine, and `longest` the longest
wait of the present attempt (R280, R286). -/
structure Expert where
  src : Store (List XptSource)
  home : Store (List XptHome)
  progress : Store Nat
  longest : Store Nat
  deriving DecidableEq, Repr

/-! ### Scheduler, partitions, accounting (chapter 10) -/

/-- The scheduler, partition and accounting logic. Resident slots are keyed 8·p + k and hold context + 1; `prio` is the priority by context that counts since the last boundary; `lastStart` and `blockedAt`
are times by context; `counter` the step counter of a partition in millionths of a cycle; `compare` the armed
pre-emption compare; `chosen` the context the last boundary chose; `act` the activity
gathered by context (64 + p between attempts) in the order of Table 10-11 from CELL_CYC on; `unclean` resources by kind and index, as 65,536·kind + index, that a scrub has
covered; `scrubAt` when a scrub began and whether it is a teardown; `undo`
what the last commit of a context added to accounting records (record, word, amount), and `undoAct` the activity it charged (R244); `sealing` is the
partition whose SEAL runs (R305). -/
structure Sched where
  resident : Store Nat
  prio : Store Nat
  lastStart : Store Nat
  started : Store Bool
  blockedAt : Store Nat
  counter : Store Nat
  compare : Store (Option Nat)
  chosen : Store Nat
  switchAt : Store Nat
  clean : List Nat
  scrubAt : Store (Option Nat)
  act : Store (List Nat)
  undo : Store (List (Nat × Nat × Nat))
  undoAct : Store (List Nat)
  sealing : Option Nat
  deriving DecidableEq, Repr

end Sys2Proof.Machine
end

