-- ==== Sys2Proof/Machine/StateSys.lean ====
section
/-!
DEFINITION. State of the ring, host ports, clocks, time, launch slots, power governor, boot, persistent store, self-test and root of trust
(chapters 12 to 16) that no register holds.
-/
namespace Sys2Proof.Machine

/-! ### The ring (chapter 12) -/

/-- A ring port (R361, R362): time of entry into its state, next HSEQ, sent frames not yet covered (HSEQ, time, counted as a miss), times of
misses, FWD_ACK to report, time of the last flit received and sent, time of the last RHELLO sent, the SYSTIME in the last received, EXPELs left to
send, the code in them and the time of the last, the neighbour declared faulty and when, and the last hello. -/
structure RingPort where
  since : Nat
  txSeq : Nat
  sent : List (Nat × Nat × Bool)
  misses : List Nat
  fwdAck : Nat
  lastRx : Nat
  lastTx : Nat
  helloTx : Nat
  sysRx : Nat
  expelLeft : Nat
  expelCode : Nat
  expelAt : Nat
  lost : Option (Nat × Nat)
  lostTold : Bool
  hello : Option HelloInfo
  deriving DecidableEq, Repr

/-- A control message in delivery at its origin (R372). -/
structure CtrlMsg where
  mseq : Nat
  dst : Nat
  payload : List Byte
  at_ : Nat
  sends : Nat
  deriving DecidableEq, Repr

/-- A broadcast origin slot (R373, R374): ranges by shard (address, length), bytes sent by shard, the next shard of the round, the next SEQ,
ranges to repair (shard, offset, length), the time from which RATE allows the next frame, and the time of the last BC_ENDs. -/
structure Bcast where
  ranges : List (Nat × Nat)
  done : List Nat
  turn : Nat
  seq : Nat
  repairs : List (Nat × Nat × Nat)
  nextAt : Nat
  endAt : Nat
  deriving DecidableEq, Repr

/-- The ring logic: ports, whether the switch is driven, when its drive is to be removed, the level of BYPASS_N, LOOP
times, control messages and broadcast slots; `naks` the time of the last BC_NAK of a partition's job. -/
structure Ring where
  ports : Store RingPort
  drive : Bool
  leaveAt : Option Nat
  bypassLow : Bool
  loopAt : Nat
  loopBack : Nat
  ctrl : List CtrlMsg
  nextMseq : Nat
  kept : List (Nat × Nat)
  bc : Store Bcast
  naks : Store Nat
  deriving DecidableEq, Repr

/-! ### Host ports (chapter 12) -/

/-- What an RDMA READ that the Drimar sends is for (R218, R228, R231, R233, R189). -/
inductive ReadUse where
  | none
  | ringHead (entry : Nat)
  | eventHead (part : Nat)
  | prompt (entry : Nat)
  | loader (part : Nat) (index : Nat) (off : Nat)
  deriving DecidableEq, Repr

/-- An operation that the Drimar has sent, or holds until it may (16 READs at a time, R381): 0 WRITE, 1 READ, 2 SEND; its last PSN, time and
retries. -/
structure QpReq where
  op : Nat
  va : Nat
  rkey : Nat
  data : List Byte
  len : Nat
  use : ReadUse
  psn : Nat
  at_ : Nat
  tries : Nat
  sent : Bool
  deriving DecidableEq, Repr

/-- A queue pair beside LNK_QP: the next PSN, operations not yet retired, times of the last CNP sent, received and rate step. -/
structure QpSt where
  psn : Nat
  reqs : List QpReq
  cnpTx : Option Nat
  cnpRx : Option Nat
  rateAt : Nat
  deriving DecidableEq, Repr

/-- What the device sends or drives outside: RDMA operations on a queue pair, Frarax packets and link flits on a port. The list is the model's
own record of outputs (log entry 3). -/
inductive Output where
  | rdma (qp : Nat) (req : QpReq)
  | rdmaReply (qp : Nat) (data : List Byte)
  | rdmaNak (qp : Nat) (kind : NakKind)
  | cnp (qp : Nat)
  | pfc (port : Nat) (prio : Nat) (on : Bool)
  | lldp (port : Nat) (chassis : Nat)
  | ring (port : Nat) (kind : Nat) (frame : RingFrame)
  | frarax (port : Nat) (kind : Nat) (pkt : FrPkt)
  | flit (port : Nat) (f : LinkFlit)
  | note (kind : String) (args : List Nat)
  deriving DecidableEq, Repr

/-- A host port: bytes that await processing by priority, priorities paused by XOFF, the end of a received pause by priority, what waits for it with its
priority, the time of the last MACsec record and those of the drops of the last second. -/
structure HostSt where
  backlog : Store Nat
  xoff : List Nat
  pausedTo : Store Nat
  waiting : List (Nat × Output)
  macAt : Option Nat
  macDrops : List Nat
  lldpAt : Nat
  deriving DecidableEq, Repr

/-! ### Clocks and comb power states (chapter 13) -/

/-- Clocks: CLKIN lost, a running measurement and whether it is paused (R399), whether the monitor holds the counter and since when, combs entering RET or OFF
(target), combs waking and from which state, wakes that wait for the end of an entry, the time from which a partition has had no runnable context,
the time its combs entered RET, and multiplexer requests by domain. -/
structure ClkSt where
  lost : Bool
  fc : Option Bool
  monHolds : Bool
  monAt : Nat
  entering : Store (Option Nat)
  waking : Store (Option Nat)
  wakeNext : List Nat
  idleSince : Store (Option Nat)
  retSince : Store (Option Nat)
  muxReq : Store (Option Nat)
  deriving DecidableEq, Repr

/-! ### Time and launch slots (chapter 13) -/

/-- A Firefly exchange in flight: its path (0 RING_A, 1 RING_B, 2 brood, 3 fabric), SEQ and T1 in ticks with its fraction. -/
structure FfSent where
  path : Nat
  seq : Nat
  t1 : Nat
  t1f : Nat
  deriving DecidableEq, Repr

/-- What the last REPLY of a ring neighbour said (R408), with the offset of that exchange in units of 2^-17 tick. -/
structure FfReply where
  at_ : Nat
  hops : Nat
  flags : Nat
  colonyU : Nat
  swarmU : Nat
  master : Nat
  trim : Nat
  offset : Int
  deriving DecidableEq, Repr

/-- A verdict kept for a launch that no slot holds armed, or heard for one that a slot holds (R416). -/
structure Verdict where
  id : Nat
  ready : Bool
  cls : Nat
  cause : Nat
  origin : Nat
  t : Nat
  dig : Nat
  deriving DecidableEq, Repr

/-- A launch slot beside its registers: its participants' node IDs, READY and REFUSE verdicts heard, whether the guard check was made, whether the
attempt of a fired STEP_START or COLLECTIVE is still to start, and the target handle of a MOLT, read at arming (R165). -/
structure LaunchSt where
  nodes : List Nat
  ready : List Nat
  refused : List Verdict
  guarded : Bool
  owed : Bool
  handle : Nat
  deriving DecidableEq, Repr

/-- Time: the fraction of SYSTIME and the slew still to apply, both in units of 2^-40 tick; exchanges in flight, their next number and the time of
the last REQUEST by scope; ring neighbours' replies; COLONY_U and SWARM_U (ps) at the exchange that gave them, and its time; swarm exchanges (round trip
in 2^-16 tick, offset in 2^-40 tick plus `adj` at its time, its time; newest first), the smallest round trip, the time of the last swarm reply; `adj` sums the
slew and the steps applied, in 2^-40 tick; since when the parent has been
worse, and the COLONY_U before that; whether any result was accepted since reset; FLAGS.UNSURE of the parent's last REPLY; kept verdicts; the launch slots. -/
structure TimeSt where
  frac : Nat
  slew : Int
  sent : List FfSent
  nextSeq : Nat
  reqAt : Store Nat
  replies : Store (Option FfReply)
  colonyBase : Nat
  colonyAt : Nat
  swarmBase : Nat
  swarmAt : Nat
  swarmEx : List (Nat × Int × Nat)
  rttMin : Option Nat
  swarmHeard : Nat
  adj : Int
  badSince : Option Nat
  goodU : Nat
  accepted : Bool
  parentUnsure : Bool
  kept : List Verdict
  launch : Store LaunchSt
  deriving DecidableEq, Repr

/-! ### Power (chapter 14) -/

/-- The control law of a reason (R426): its ceiling, the time from which the estimate has been below 98 % of the limit, the time of the last
step. Keyed 17·reason for the package and 17·reason + 1 + p for partition p. -/
structure Ceil where
  step : Nat
  below : Option Nat
  raisedAt : Nat
  deriving DecidableEq, Repr

/-- The governor: ceilings, the present package estimate and partition estimates (mW), sums of the present millisecond and averages of the last,
rail sums of the present millisecond, energy not yet a whole µJ, combs under droop stretching with the time of detection, combs under EXT stretching,
EXT_IN and since when it is high, hot since and cool since, temperatures (1/16 °C by sensor), the emergency abort's timers, announced reasons with
the time each last limited or began, heartbeat time, the safe cap in force (W), the PWR_FIXED words in force, and the forced slice's limits. -/
structure PwrSt where
  ceil : Store Ceil
  est : Nat
  partEst : Store Nat
  sumEst : Nat
  sumPart : Store Nat
  sumRail : Store Nat
  ticks : Nat
  avgEst : Nat
  avgPart : Store Nat
  energy : Store Nat
  droop : List (Nat × Nat)
  extStretch : List Nat
  extHigh : Option Nat
  hot : Bool
  coolAt : Option Nat
  temps : Store Nat
  overAt : Option Nat
  underAt : Option Nat
  announced : List Nat
  lastLimit : Store (Option Nat)
  beatAt : Nat
  fixed : Store Word
  safeCap : Nat
  sliceLimit : Store (Option Nat)
  trip : Bool
  deriving DecidableEq, Repr

/-! ### Boot and the persistent store (chapter 15) -/

/-- A FW_WRITE in progress (R453). -/
structure FwWrite where
  slot : Nat
  src : Nat
  len : Nat
  deriving DecidableEq, Repr

/-- A persistent operation in the queue (R459): by the host, its words, and whether it is a group commit. -/
structure PsrOp where
  host : Bool
  group : Bool
  words : List (Nat × Word)
  deriving DecidableEq, Repr

/-- Boot: levels of PG_AON, PG_MAIN and PORST_N, whether the device is held in reset or shut down, stage start, end of reset, back-off end, the
stage's failed attempt, time of the last PSR_BOOT_LASTFAIL write, firmware slots (bytes keyed 2^24·slot + offset) with lengths and write counts, a
slot write, the netboot port in turn, ports that failed, the bytes so far, the next block and block size and the time of the first block, the words in
force from the last reset (keyed by index), whether PG_MAIN fell at or after stage 6, and whether stage 6's work is done. -/
structure BootSt where
  pgAon : Bool
  pgMain : Bool
  porstLow : Bool
  held : Bool
  stageAt : Nat
  resetAt : Nat
  backoffAt : Option Nat
  failWrote : Option Nat
  slots : Store Byte
  slotWrites : Store Nat
  fwWrite : Option FwWrite
  net : Option Nat
  netFailed : List Nat
  netUrl : Bool
  netData : List Byte
  netBlock : Nat
  netSize : Nat
  netAt : Nat
  eff : Store Word
  mainFell : Bool
  cont : Bool
  deriving DecidableEq, Repr

/-- The persistent file: its words and the count of writes that changed each (PSR_WORD, PSR_WEAR), operations waiting and in progress, journal
words written, and words whose 0x1301 was recorded since reset. -/
structure PsrSt where
  words : Store Word
  wear : Store Nat
  ops : List PsrOp
  journal : Nat
  told : List Nat
  deriving DecidableEq, Repr

/-! ### Self-test and trust (chapter 16) -/

/-- The slice in progress (R475, R476): its group and the comb's state to return to. -/
structure Slice where
  group : Nat
  back : Nat
  deriving DecidableEq, Repr

/-- Periodic BIST: when the present slice fell due, with the time it was held by an armed launch taken off, when the next falls due, the slice
in progress, by partition the time before which the lead sends no START, the former state of a comb woken for the due slice, the contexts whose
present attempt has heard a request for a gap (R478), and the combs whose pre-wake waits for the end of a slice (R301). -/
structure BistSt where
  fellAt : Nat
  nextAt : Nat
  slice : Option Slice
  gapTo : Store Nat
  woke : Option Nat
  gapAsk : List Nat
  prewake : List Nat
  deriving DecidableEq, Repr

/-- A KEY_ADD, KEY_CLEAR or MACSEC_CAK that runs (R489): its OP, partition and key slot, and the bytes that it took from the key buffer. -/
structure SecCmd where
  op : Nat
  p : Nat
  j : Nat
  key : List Byte
  deriving DecidableEq, Repr

/-- The root of trust: nonces of running quotes by view, MACsec keys (CAK and CKN) by view, the identities of the AES-XTS key pairs by
partition (0 for none), and the key command that runs in each view's window. -/
structure SecSt where
  quotes : Store (Option (List Byte))
  cak : Store (List Byte)
  xts : Store Nat
  cmds : Store (Option SecCmd)
  deriving DecidableEq, Repr

end Sys2Proof.Machine
end

