-- ==== Sys2Proof/Machine/State.lean ====
section
/-!
DEFINITION. The state of the Drimar, the reasons for a stop, and the state after reset.
-/
namespace Sys2Proof.Machine

/-- A fault record (R520): word 0, EPOCH, SYSTIME and DETAIL. -/
structure FaultRec where
  w0 : Word
  epoch : Word
  time : Word
  detail : Word
  deriving DecidableEq, Repr

/-- The whole device. `alertLow` and `tripLow` are the pins ALERT_N and TRIP_N driven low. `routers` is what the input buffers of the routers hold (R48), `turns` whom each output port of a router last served (R49). `ps` is the model's clock in picoseconds since power-on, `fresh` the model's own counter of free values, `out` the outputs, newest first. -/
structure Dev where
  regs : Store Word
  mem : Store Byte
  fab : Fabric
  routers : List Flight
  turns : Store Nat
  img : ImgPart
  ldr : Loader
  srv : Serving
  xpt : Expert
  sch : Sched
  lnk : Links
  ring : Ring
  hp : Store HostSt
  qps : Store QpSt
  clk : ClkSt
  tim : TimeSt
  pwr : PwrSt
  boot : BootSt
  psr : PsrSt
  bist : BistSt
  sec : SecSt
  fltq : List FaultRec
  alertLow : Bool
  tripLow : Bool
  out : List Output
  fresh : Nat
  ps : Nat
  deriving DecidableEq, Repr

/-- The state of the model: the device and the commands that wait, first in, first out. -/
structure State where
  dev : Dev
  pending : List Instr
  deriving DecidableEq, Repr

/-- Reasons for a fault. No command of the Drimar ends in one: every command has an effect that the manual gives. -/
inductive Fault where
  /-- Raised by no command; safe. -/
  | none
  deriving DecidableEq, Repr

/-- Reasons for a refusal. -/
inductive Refusal where
  /-- Raised by an arm of Dispatch whose command has no meaning yet; safe. -/
  | notModelled (mnemonic : String)
  deriving DecidableEq, Repr

/-! ### Reset -/

/-- A session draw: nonzero and 16 bits wide (R331). -/
def sessionOf (n : Nat) : Nat := 1 + (Config.random n).toNat % 65535

def Fabric.zero : Fabric := ⟨[], [], [], [], [], 1, [], [], []⟩
def ImgPart.zero : ImgPart := ⟨[], [], []⟩
def Loader.zero : Loader := ⟨[], [], 0, [], ⟨0, 0, 0, 0⟩, [], []⟩
def Serving.zero : Serving := ⟨[], [], [], [], [], 0, [], [], [], [], [], [], [], [], [], [], [], [], [], [], [], [], [], [], [], [], []⟩
def Expert.zero : Expert := ⟨[], [], [], []⟩
def Sched.zero : Sched := ⟨[], [], [], [], [], [], [], [], [], [], [], [], [], [], none⟩
def Links.zero : Links := ⟨0, [], [], [], [], none, [], none, none, [], [], [], [], []⟩
def Ring.zero : Ring := ⟨[], false, none, false, 0, 0, [], 0, [], [], []⟩
def ClkSt.zero : ClkSt := ⟨false, none, false, 0, [], [], [], [], [], []⟩
def TimeSt.zero : TimeSt := ⟨0, 0, [], 0, [], [], 0, 0, 0, 0, [], none, 0, 0, none, 0, false, false, [], []⟩
def PwrSt.zero : PwrSt where
  ceil := []
  est := 0
  partEst := []
  sumEst := 0
  sumPart := []
  sumRail := []
  ticks := 0
  avgEst := 0
  avgPart := []
  energy := []
  droop := []
  extStretch := []
  extHigh := none
  hot := false
  coolAt := none
  temps := []
  overAt := none
  underAt := none
  announced := []
  lastLimit := []
  beatAt := 0
  fixed := []
  safeCap := 0
  sliceLimit := []
  trip := false
def BootSt.zero : BootSt := ⟨true, false, false, false, 0, 0, none, none, [], [], none, none, [], false, [], 0, 0, 0, [], false, false⟩
def PsrSt.zero : PsrSt := ⟨[], [], [], 0, []⟩
def BistSt.zero : BistSt := ⟨0, 0, none, [], none, [], []⟩
def SecSt.zero : SecSt := ⟨[], [], [], []⟩

/-- The device right after a POWER_ON reset with the file as shipped: PG_AON high, PG_MAIN low, boot stage 1; every register at its reset value,
every cell, queue and table empty. -/
def Dev.powerOn : Dev where
  regs := []
  mem := []
  fab := Fabric.zero
  routers := []
  turns := []
  img := ImgPart.zero
  ldr := Loader.zero
  srv := Serving.zero
  xpt := Expert.zero
  sch := Sched.zero
  lnk := { Links.zero with session := sessionOf 0 }
  ring := Ring.zero
  hp := []
  qps := []
  clk := ClkSt.zero
  tim := TimeSt.zero
  pwr := PwrSt.zero
  boot := BootSt.zero
  psr := PsrSt.zero
  bist := BistSt.zero
  sec := SecSt.zero
  fltq := []
  alertLow := false
  tripLow := false
  out := []
  fresh := 1
  ps := 0

/-- The machine right after reset. -/
def State.reset : State := ⟨Dev.powerOn, []⟩

end Sys2Proof.Machine
end

