-- ==== Sys2Proof/Machine/Ops.lean ====
section
/-!
DEFINITION. The named operations over the state: the sparse store, registers and fields (R5, R64), memory (R169 to R173), SYSTIME, the
fault log's queue (R520 to R523), events (R233), Frarax sends (R335) and the abort of an attempt (R249 to R251).
-/
namespace Sys2Proof.Machine

/-! ### The sparse store -/

/-- The value at a key; what an unlisted key reads as is the default. -/
def sget {α : Type} (dflt : Nat → α) : Store α → Nat → α
  | [], k => dflt k
  | (a, x) :: m, k => if k = a then x else sget dflt m k

/-- Drop a key. -/
def sdel {α : Type} (m : Store α) (k : Nat) : Store α := m.filter fun q => q.1 != k

/-- Put a pair in front of the first greater key. -/
def sins {α : Type} : Store α → Nat → α → Store α
  | [], k, v => [(k, v)]
  | (a, x) :: m, k, v => if k < a then (k, v) :: (a, x) :: m else (a, x) :: sins m k v

/-- Write a value. The canonical form stays: keys rising, no pair equal to the default. -/
def sput {α : Type} [DecidableEq α] (dflt : Nat → α) (m : Store α) (k : Nat) (v : α) : Store α :=
  if v = dflt k then sdel m k else sins (sdel m k) k v

/-- Every key above a bound and rising, and no value equal to the default. -/
def swfFrom {α : Type} [DecidableEq α] (dflt : Nat → α) : Nat → Store α → Bool
  | _, [] => true
  | lo, (a, x) :: m => lo ≤ a && x != dflt a && swfFrom dflt (a + 1) m

/-- The canonical form of a store. -/
def swf {α : Type} [DecidableEq α] (dflt : Nat → α) (m : Store α) : Bool := swfFrom dflt 0 m

/-- The canonical form of memory: an unlisted byte reads as zero (log entry 2). -/
def Memory.wf (m : Store Byte) : Bool := swf (fun _ => 0#8) m

/-! ### Registers and fields -/

/-- What a register reads as when nothing has changed it: its reset value. The operator view's keys load from their persistent word (R384),
whose shipped value is unique to the part. -/
def regDefault (k : Nat) : Word := if k = 0xE05000 then Config.shipped 20 else BitVec.ofNat 64 (regReset k)

/-- The value of a register by its control-space offset. -/
def Dev.rd (d : Dev) (off : Nat) : Word := sget regDefault d.regs off

/-- Set a register. -/
def Dev.wr (d : Dev) (off : Nat) (v : Word) : Dev :=
  { d with regs := sput regDefault d.regs off v }

/-- A field of a word. -/
def fget (v : Word) (f : Fld) : Nat := v.toNat / 2 ^ f.lo % 2 ^ f.w

/-- A word with one field replaced, modulo the field's width. -/
def fset (v : Word) (f : Fld) (n : Nat) : Word :=
  BitVec.ofNat 64 (v.toNat - fget v f * 2 ^ f.lo + n % 2 ^ f.w * 2 ^ f.lo)

/-- A field of a register. -/
def Dev.rf (d : Dev) (off : Nat) (f : Fld) : Nat := fget (d.rd off) f

/-- Set a field of a register. -/
def Dev.wf (d : Dev) (off : Nat) (f : Fld) (n : Nat) : Dev := d.wr off (fset (d.rd off) f n)

/-- Add to a field, saturating at its largest value. -/
def Dev.addf (d : Dev) (off : Nat) (f : Fld) (n : Nat) : Dev := d.wf off f (min (d.rf off f + n) (2 ^ f.w - 1))

/-- The 48-bit counters of R64, R203, R286 and R353. -/
def cnt48 : Fld := ⟨0, 48⟩
def cnt64 : Fld := ⟨0, 64⟩

/-- Add to a 48-bit saturating counter. -/
def Dev.bump (d : Dev) (off n : Nat) : Dev := d.addf off cnt48 n

def b2n (b : Bool) : Nat := if b then 1 else 0

/-! ### Bytes and memory -/

/-- A number from little-endian bytes (R4). -/
def leNat : List Byte → Nat
  | [] => 0
  | b :: bs => b.toNat + 256 * leNat bs

/-- n bytes of a number, least significant first (R4). -/
def toLe : Nat → Nat → List Byte
  | 0, _ => []
  | n + 1, v => BitVec.ofNat 8 v :: toLe n (v / 256)

/-- n bytes of a number, most significant first. -/
def toBe (n v : Nat) : List Byte := (toLe n v).reverse

/-- A number from big-endian bytes. -/
def beNat (bs : List Byte) : Nat := leNat bs.reverse

def byteAt (bs : List Byte) (i : Nat) : Nat := (bs.getD i 0#8).toNat

/-- A little-endian field of len bytes at byte i. -/
def leAt (bs : List Byte) (i len : Nat) : Nat := leNat ((bs.drop i).take len)

/-- Replace bytes from position i on. -/
def putAt (bs : List Byte) (i : Nat) (v : List Byte) : List Byte := bs.take i ++ v ++ bs.drop (i + v.length)

def zeros (n : Nat) : List Byte := List.replicate n 0#8

/-- One byte of device memory; a byte that nothing has written reads as zero (log entry 2). -/
def Dev.byte (d : Dev) (a : Nat) : Byte := sget (fun _ => 0#8) d.mem a

def Dev.setByte (d : Dev) (a : Nat) (v : Byte) : Dev := { d with mem := sput (fun _ => 0#8) d.mem a v }

/-- k n, in a form that makes evaluation turn n into a numeral first. -/
def withNum {α : Type} (n : Nat) (k : Nat → α) : α := match n with | 0 => k 0 | m + 1 => k (m + 1)

/-- n bytes from an address on. -/
def Dev.bytes (d : Dev) : Nat → Nat → List Byte
  | _, 0 => []
  | a, n + 1 => withNum a fun b => d.byte b :: Dev.bytes d (b + 1) n

/-- Write bytes from an address on. -/
def Dev.setBytes (d : Dev) : Nat → List Byte → Dev
  | _, [] => d
  | a, b :: bs => Dev.setBytes (d.setByte a b) (a + 1) bs

/-- A little-endian number of n bytes in memory. -/
def Dev.num (d : Dev) (a n : Nat) : Nat := leNat (d.bytes a n)

def Dev.setNum (d : Dev) (a n v : Nat) : Dev := d.setBytes a (toLe n v)

/-- Bases of the device address map (R169). -/
def t1Base : Nat := 0x008000000000
def t1End : Nat := 0x010000000000
def t2Base : Nat := 0x020000000000
def csBase : Nat := 0x0000F0000000
def cellBase (c : Nat) : Nat := c * 0x40000

/-- Is an address a populated byte of T0, T1 or T2 (R169, R170)? -/
def Dev.mapped (d : Dev) (a : Nat) : Bool :=
  (a < 0x80000000 && a % 0x40000 < 0x30000) ||
  (t1Base ≤ a && a < t1End) ||
  (t2Base ≤ a && a < t2Base + d.rf Reg.MEM_CFG Fld.MEM_CFG_T2_GRANULES * 2 ^ 36)

/-- The end of the populated range that holds a mapped address. -/
def Dev.mapEnd (d : Dev) (a : Nat) : Nat :=
  if a < 0x80000000 then a / 0x40000 * 0x40000 + 0x30000
  else if a < t1End then t1End else t2Base + d.rf Reg.MEM_CFG Fld.MEM_CFG_T2_GRANULES * 2 ^ 36
/-- The first unmapped address of a range, none where all of it is populated (R170). -/
def Dev.firstUnmapped (d : Dev) (a n : Nat) : Option Nat :=
  if n = 0 then none else if !d.mapped a then some a else if d.mapEnd a < a + n then some (d.mapEnd a) else none

/-! ### DRAM errors (R173, R175) -/

/-- The counter of an error: the HBM4 stack or the LP6 port that holds the unit is bits [11:9] of its place in the granule (R171, R175). -/
def DramError.counter (x : DramError) : Nat :=
  if x.unit * 512 < t2Base then (if x.fatal then Reg.MEM_T1_UE (x.unit % 8) else Reg.MEM_T1_CE (x.unit % 8))
  else if x.fatal then Reg.MEM_T2_UE (x.unit % 8) else Reg.MEM_T2_CE (x.unit % 8)
/-- Does a read of n bytes at a touch the unit of an error? -/
def DramError.within (x : DramError) (a n : Nat) : Bool := n != 0 && a / 512 ≤ x.unit && x.unit * 512 < a + n
/-- A read of n bytes at a meets the errors of its units: each is counted, once. -/
def Dev.meetErrors (a n : Nat) (d : Dev) : Dev :=
  let d1 := (d.ldr.ecc.filter fun x => x.within a n).foldl (fun (e : Dev) x => e.bump x.counter 1) d
  { d1 with ldr := { d1.ldr with ecc := d1.ldr.ecc.filter fun x => !x.within a n } }

/-- CRC-32C over bytes (R102): reflected Castagnoli polynomial, initial value and final XOR all ones. -/
def crcStep (c : Nat) : Nat := if c % 2 = 1 then (c / 2) ^^^ 0x82F63B78 else c / 2
def crcByte (c : Nat) (b : Byte) : Nat :=
  crcStep (crcStep (crcStep (crcStep (crcStep (crcStep (crcStep (crcStep (c ^^^ b.toNat))))))))
def crcRun : List Byte → Nat → Nat
  | [], c => c
  | b :: l, c => withNum (crcByte c b) (crcRun l)
def crc32c (bs : List Byte) : Nat := crcRun bs 0xFFFFFFFF ^^^ 0xFFFFFFFF

/-! ### Combs, partitions, contexts -/

/-- Mesh column and row of a cell, and its comb (R13). -/
def cellX (c : Nat) : Nat := c % 128
def cellY (c : Nat) : Nat := c / 128
def combOf (c : Nat) : Nat := 4 * (cellY c / 16) + cellX c / 32
/-- The cell at mesh column x and row y. -/
def cellAt (x y : Nat) : Nat := 128 * y + x
/-- The cell at local coordinates of a comb (R13). -/
def combCell (k lx ly : Nat) : Nat := cellAt (32 * (k % 4) + lx) (16 * (k / 4) + ly)

/-- The partition that the routers' map gives a comb (R54). -/
def Dev.partOfComb (d : Dev) (k : Nat) : Option Nat :=
  match sget (fun _ => 0) d.fab.combMap k with
  | 0 => none
  | p + 1 => some p

/-- Partition states (Table 10-7). -/
def Dev.partState (d : Dev) (p : Nat) : Nat := d.rf (Reg.PART_STAT p) Fld.PART_STAT_STATE
def Dev.partUsable (d : Dev) (p : Nat) : Bool := d.partState p == 2 || d.partState p == 3
def Dev.sealed (d : Dev) (p : Nat) : Bool := d.partState p == 3

/-- Bit i of a number. -/
def bit (n i : Nat) : Bool := n / 2 ^ i % 2 == 1

/-- The numbers below n at which a test holds. -/
def filterBelow (n : Nat) (t : Nat → Bool) : List Nat := (List.range n).filter t

/-- The combs of a partition (R302). -/
def Dev.partCombs (d : Dev) (p : Nat) : List Nat := filterBelow 16 fun k => bit (d.rd (Reg.PART_COMBS p)).toNat k

/-- The partition whose context range holds c (R287). -/
def Dev.partOfCtx (d : Dev) (c : Nat) : Option Nat :=
  (List.range 16).find? fun p =>
    d.partState p != 0 && d.rf (Reg.PART_CTX p) Fld.PART_CTX_FIRST ≤ c &&
    c < d.rf (Reg.PART_CTX p) Fld.PART_CTX_FIRST + d.rf (Reg.PART_CTX p) Fld.PART_CTX_COUNT

/-- The CURRENT context of a partition (R289). -/
def Dev.curCtx (d : Dev) (p : Nat) : Option Nat :=
  if d.rf (Reg.SCHED_STAT p) Fld.SCHED_STAT_CUR_VALID = 1 then some (d.rf (Reg.SCHED_STAT p) Fld.SCHED_STAT_CUR) else none

/-- Granules of T1 (16 GiB) and T2 (64 GiB), and the granules of a partition (R171, R176). -/
def t1Granule (a : Nat) : Nat := (a - t1Base) / 2 ^ 34
def t2Granule (a : Nat) : Nat := (a - t2Base) / 2 ^ 36

/-- Does every granule that a range touches satisfy a test? -/
def granulesIn (lo hi : Nat) (t : Nat → Bool) : Bool := (List.range (hi + 1 - lo)).all fun i => t (lo + i)

/-- Does a T1 range lie wholly in granules of partition p? -/
def Dev.t1Owned (d : Dev) (p a len : Nat) : Bool :=
  t1Base ≤ a && a + len ≤ t1End && granulesIn (t1Granule a) (t1Granule (a + (len - 1))) fun g => bit (d.rd (Reg.PART_T1 p)).toNat g

/-- Does a T2 range lie wholly in populated granules of partition p, outside the directory (R176)? -/
def Dev.t2Owned (d : Dev) (p a len : Nat) : Bool :=
  t2Base + 0x200000 ≤ a && a + len ≤ t2Base + d.rf Reg.MEM_CFG Fld.MEM_CFG_T2_GRANULES * 2 ^ 36 &&
    granulesIn (t2Granule a) (t2Granule (a + (len - 1))) fun g => bit (d.rd (Reg.PART_T2 p)).toNat g

/-- Does a range lie wholly in granules of partition p? -/
def Dev.owned (d : Dev) (p a len : Nat) : Bool := d.t1Owned p a len || d.t2Owned p a len

/-- The ACTIVE or SEALED partition that holds a nonzero domain (R334). -/
def Dev.partOfDomain (d : Dev) (dom : Nat) : Option Nat :=
  if dom = 0 then none else (List.range 16).find? fun p => d.partUsable p && (d.rd (Reg.LNK_DOMAIN p)).toNat % 65536 == dom

/-- Phases of an attempt (Table 8-1). -/
def phIdle : Nat := 0
def phExecute : Nat := 1
def phVote : Nat := 2
def phCommit : Nat := 3
def phAbort : Nat := 4
def phHeld : Nat := 5

def Dev.phase (d : Dev) (c : Nat) : Nat := d.rf (Reg.STEP_PHASE c) Fld.STEP_PHASE_PHASE
def Dev.setPhase (d : Dev) (c n : Nat) : Dev := d.wf (Reg.STEP_PHASE c) Fld.STEP_PHASE_PHASE n

/-- Loop states (Table 7-20). -/
def Dev.loopState (d : Dev) (c : Nat) : Nat := d.rf (Reg.STEP_STAT c) Fld.STEP_STAT_STATE
def Dev.setLoop (d : Dev) (c n : Nat) : Dev := d.wf (Reg.STEP_STAT c) Fld.STEP_STAT_STATE n
def lpStopped : Nat := 0
def lpRunning : Nat := 1
def lpStopping : Nat := 2
def lpHalted : Nat := 3

def Attempt.zero : Attempt :=
  ⟨0, 0, [], false, [], [], [], [], false, false, 0, false, false, none, none, 0, 0, 0, 0, none, 0, [], [], [], none, none, false, []⟩

def Dev.att (d : Dev) (c : Nat) : Attempt := sget (fun _ => Attempt.zero) d.srv.att c
def Dev.setAtt (d : Dev) (c : Nat) (a : Attempt) : Dev :=
  { d with srv := { d.srv with att := sput (fun _ => Attempt.zero) d.srv.att c a } }
def Dev.modAtt (d : Dev) (c : Nat) (f : Attempt → Attempt) : Dev := d.setAtt c (f (d.att c))

/-- Is the context's attempt before its decision (EXECUTE or VOTE)? -/
def Dev.executing (d : Dev) (c : Nat) : Bool := d.phase c == phExecute || d.phase c == phVote

/-- Node ID, role, own brood position (R22, R23). -/
def Dev.node (d : Dev) : Nat := d.rf Reg.GLB_NODE Fld.GLB_NODE_NODE_ID
def Dev.role (d : Dev) : Nat := d.rf Reg.GLB_NODE Fld.GLB_NODE_ROLE
def Dev.stage (d : Dev) : Nat := d.rf Reg.BOOT_STAT Fld.BOOT_STAT_STAGE
def Dev.nodeValid (d : Dev) : Bool := d.rf Reg.GLB_NODE Fld.GLB_NODE_VALID == 1
def Dev.pos (d : Dev) : Nat := d.node % 8
def Dev.posNode (d : Dev) (q : Nat) : Nat := d.node / 8 * 8 + q
def Dev.members (d : Dev) : Nat := d.rf Reg.GLB_LEVEL Fld.GLB_LEVEL_BROOD_MEMBERS
def Dev.ready (d : Dev) : Bool := d.rf Reg.GLB_LEVEL Fld.GLB_LEVEL_READY == 1

/-- SYSTIME in ticks of 0.8 ns. -/
def Dev.sysTime (d : Dev) : Word := d.rd Reg.TIME_SYSTIME

/-- Microseconds and nanoseconds in picoseconds. -/
def us : Nat := 1000000
def ns : Nat := 1000
def ms : Nat := 1000000000

/-- One more output. -/
def Dev.emit (d : Dev) (o : Output) : Dev := { d with out := o :: d.out }
def Dev.note (d : Dev) (k : String) (args : List Nat) : Dev := d.emit (.note k args)

/-- A free value drawn from the random number generator. -/
def Dev.draw (d : Dev) : Word := Config.random d.fresh
def Dev.drawn (d : Dev) : Dev := { d with fresh := d.fresh + 1 }

/-! ### Activity (R312, R313) -/

/-- Counters of Table 10-11 from CELL_CYC on, as the activity lists hold them; energy is kept in nJ. -/
def aCell : Nat := 0
def aT1 : Nat := 1
def aT2 : Nat := 2
def aBrood : Nat := 3
def aFabric : Nat := 4
def aHost : Nat := 5
def aEnergy : Nat := 6

/-- Where activity of partition p is gathered: its current context while an attempt lasts, else the partition, as 64 + p. -/
def Dev.actKey (d : Dev) (p : Nat) : Nat := match d.curCtx p with | some c => if d.phase c = phIdle then 64 + p else c | none => 64 + p
def Dev.activity (d : Dev) (k : Nat) : List Nat := sget (fun _ => []) d.sch.act k
def Dev.setActivity (d : Dev) (k : Nat) (l : List Nat) : Dev := { d with sch := { d.sch with act := sput (fun _ => []) d.sch.act k l } }

/-- Gather n of counter i for partition p. -/
def Dev.charge (d : Dev) (p i n : Nat) : Dev :=
  let k := d.actKey p
  if n = 0 then d else d.setActivity k ((List.range 7).map fun j => (d.activity k).getD j 0 + (if j = i then n else 0))

/-- Gather bytes moved at a device address: T1 or T2. -/
def Dev.chargeMem (d : Dev) (p a n : Nat) : Dev := if a < t1Base then d else d.charge p (if t2Base ≤ a then aT2 else aT1) n

/-- The partition whose range holds queue pair q. -/
def Dev.partOfQp (d : Dev) (q : Nat) : Option Nat :=
  (List.range 16).find? fun p => d.partState p != 0 && d.rf (Reg.PART_QP p) Fld.PART_QP_FIRST ≤ q &&
    q < d.rf (Reg.PART_QP p) Fld.PART_QP_FIRST + d.rf (Reg.PART_QP p) Fld.PART_QP_COUNT
/-- Gather host-port payload bytes of a queue pair. -/
def Dev.chargeHost (d : Dev) (q n : Nat) : Dev := match d.partOfQp q with | some p => d.charge p aHost n | none => d

/-! ### RDMA operations that the Drimar sends (R381) -/

def QpSt.zero : QpSt := ⟨0, [], none, none, 0⟩
def HostSt.zero : HostSt := ⟨[], [], [], [], none, [], 0⟩
def Dev.qp (d : Dev) (q : Nat) : QpSt := sget (fun _ => QpSt.zero) d.qps q
def Dev.setQp (d : Dev) (q : Nat) (x : QpSt) : Dev := { d with qps := sput (fun _ => QpSt.zero) d.qps q x }
def Dev.qpState (d : Dev) (q : Nat) : Nat := d.rf (Reg.LNK_QP q 0) Fld.LNK_QP0_STATE
def Dev.qpRts (d : Dev) (q : Nat) : Bool := d.qpState q == 3

/-- Packets of an operation of n bytes at a path MTU of 4,096. -/
def qpPackets (n : Nat) : Nat := max 1 ((n + 4095) / 4096)

def Dev.hostPort (d : Dev) (e : Nat) : HostSt := sget (fun _ => HostSt.zero) d.hp e
def Dev.setHp (d : Dev) (e : Nat) (x : HostSt) : Dev := { d with hp := sput (fun _ => HostSt.zero) d.hp e x }

/-- The port and the 802.1Q priority of a queue pair (Table 12-11). -/
def Dev.qpPort (d : Dev) (q : Nat) : Nat := d.rf (Reg.LNK_QP q 0) Fld.LNK_QP0_PORT
def Dev.qpPrio (d : Dev) (q : Nat) : Nat := d.rf (Reg.LNK_QP q 0) Fld.LNK_QP0_PCP

/-- May a priority of a host port send: no pause holds it, and nothing of it waits (R387)? -/
def HostSt.open_ (x : HostSt) (now i : Nat) : Bool := sget (fun _ => 0) x.pausedTo i ≤ now && !x.waiting.any fun w => w.1 == i

/-- May a queue pair send on its port? -/
def Dev.mayTransmit (d : Dev) (q : Nat) : Bool := (d.hostPort (d.qpPort q)).open_ d.ps (d.qpPrio q)

/-- An output of a queue pair goes to its port; while its priority is paused it waits there. -/
def Dev.hostOut (d : Dev) (q : Nat) (o : Output) : Dev :=
  if d.mayTransmit q then d.emit o
  else
    let x := d.hostPort (d.qpPort q)
    d.setHp (d.qpPort q) { x with waiting := x.waiting ++ [(d.qpPrio q, o)] }

/-- READs outstanding on a QP. -/
def QpSt.reads (x : QpSt) : Nat := (x.reqs.filter fun r => r.op == 1 && r.sent).length

/-- Send one operation on a QP in RTS: it takes the next PSNs, and a READ beyond 16 outstanding waits (R381). On a QP in another state nothing is
sent (R215). -/
def Dev.rdma (d : Dev) (q op va rkey : Nat) (data : List Byte) (len : Nat) (use : ReadUse) : Dev :=
  if d.qpRts q then
    let x := d.qp q
    let n := qpPackets len
    let now := !(op == 1 && 16 ≤ x.reads)
    let r : QpReq := ⟨op, va, rkey, data, len, use, (x.psn + n - 1) % 2 ^ 24, d.ps, 0, now⟩
    let d1 := (d.chargeHost q data.length).setQp q { x with psn := (x.psn + n) % 2 ^ 24, reqs := x.reqs ++ [r] }
    if now then
      let k := if op = 1 then 1 else n
      let e := d.rf (Reg.LNK_QP q 0) Fld.LNK_QP0_PORT
      ((d1.addf (Reg.LNK_QP q 7) Fld.LNK_QP7_PKTS k).bump (Reg.LNK_HP_TX e) k).hostOut q (.rdma q r)
    else d1
  else d

def Dev.rdmaWrite (d : Dev) (q va rkey : Nat) (data : List Byte) : Dev := d.rdma q 0 va rkey data data.length .none
def Dev.rdmaRead (d : Dev) (q va rkey len : Nat) (use : ReadUse) : Dev := d.rdma q 1 va rkey [] len use

/-! ### Faults (R520 to R523) -/

/-- Fault classes (Table 18-3). -/
def cTileCheck : Nat := 0x01
def cResource : Nat := 0x02
def cBounds : Nat := 0x03
def cStall : Nat := 0x04
def cRemoteTimeout : Nat := 0x05
def cConfig : Nat := 0x06
def cLinkDown : Nat := 0x07
def cDeadline : Nat := 0x08
def cPower : Nat := 0x09
def cThermal : Nat := 0x0A
def cBist : Nat := 0x0B
def cSecurity : Nat := 0x0C
def cPsrWorn : Nat := 0x0D
def cClkMux : Nat := 0x0E
def cHostProto : Nat := 0x0F
def cRo : Nat := 0x10
def cCounter : Nat := 0x11
def cTimeUnsure : Nat := 0x12
def cImage : Nat := 0x13

/-- Severities (Table 18-6). -/
def svNotice : Nat := 0
def svAbort : Nat := 1
def svHalt : Nat := 2
def svDevice : Nat := 3

/-- What a unit says when it raises a fault. -/
structure FaultInfo where
  cls : Nat
  cause : Nat
  sev : Nat
  part : Option Nat
  cell : Option Nat
  comb : Nat
  port : Nat
  detail : Nat
  epoch : Nat
  deriving DecidableEq, Repr

/-- A device-level notice; the raiser sets what differs. -/
def notice (cls cause detail : Nat) : FaultInfo := ⟨cls, cause, svNotice, none, none, 0, 0, detail, 0⟩

/-- Word 0 of a fault record (Table 18-5). -/
def faultWord (f : FaultInfo) : Nat :=
  b2n f.cell.isSome * 2 ^ 62 + b2n f.part.isSome * 2 ^ 61 + f.port % 256 * 2 ^ 53 +
  (f.cell.elim 0 cellY) % 64 * 2 ^ 47 + (f.cell.elim 0 cellX) % 128 * 2 ^ 40 +
  (f.cell.elim f.comb combOf) % 256 * 2 ^ 32 + (f.part.getD 0) % 16 * 2 ^ 28 + f.sev % 16 * 2 ^ 24 + f.cause % 65536 * 256 + f.cls % 256

/-- Queue a record for the collector; a record that finds 64 waiting is lost and counted (R523). -/
def Dev.raise (d : Dev) (f : FaultInfo) : Dev :=
  if d.fltq.length < 64 then
    { d with fltq := d.fltq ++ [⟨BitVec.ofNat 64 (faultWord f), BitVec.ofNat 64 f.epoch, d.sysTime, BitVec.ofNat 64 f.detail⟩] }
  else d.addf Reg.FLT_STAT Fld.FLT_STAT_LOST 1

/-- The lock of R10: a write through view v to an RWL register of sealed partition p has no effect and is recorded for p. -/
def Dev.lockRec (d : Dev) (v p off : Nat) : Dev := d.raise { notice cSecurity 0x0E21 (off + v * 2 ^ 32) with part := some p }

/-- PART_CAP of p in W; 0 for none. -/
def Dev.partCap (d : Dev) (p : Nat) : Nat := (d.rd (Reg.PART_CAP p)).toNat % 4096

/-! ### Events (R233) -/

/-- Queue an event of a partition; beyond 256 waiting it is dropped and counted, and LOG2N outside 4 to 16 loses it (Table 7-18). -/
def Dev.event (d : Dev) (p : Nat) (typ loop object epoch detail : Nat) : Dev :=
  let lg := d.rf (Reg.STEP_EVT_CFG p) Fld.STEP_EVT_CFG_LOG2N
  let q := sget (fun _ => []) d.srv.evts p
  if lg < 4 ∨ 16 < lg then d.bump (Reg.STEP_EVT_LOST p) 1
  else if 256 ≤ q.length then
    { (d.bump (Reg.STEP_EVT_LOST p) 1) with srv := { d.srv with evtLost := sput (fun _ => 0) d.srv.evtLost p (sget (fun _ => 0) d.srv.evtLost p + 1) } }
  else { d with srv := { d.srv with evts := sput (fun _ => []) d.srv.evts p (q ++ [⟨typ, loop, object, epoch, d.sysTime.toNat, detail⟩]) } }

/-- The 32 bytes of an event record (Table 7-14). -/
def eventBytes (e : Event) : List Byte :=
  toLe 1 e.typ ++ toLe 1 e.loop ++ zeros 2 ++ toLe 4 e.object ++ toLe 8 e.epoch ++ toLe 8 e.time ++ toLe 8 e.detail

/-- Write waiting events of a partition while the ring has room, then TAIL; when the queue is empty a LOST event follows dropped ones. -/
def Dev.flushEventsFuel (p : Nat) : Nat → Dev → Dev
  | 0, d => d
  | n + 1, d =>
    let cfg := d.rd (Reg.STEP_EVT_CFG p)
    let lg := fget cfg Fld.STEP_EVT_CFG_LOG2N
    let va := (d.rd (Reg.STEP_EVT_VA p)).toNat
    let qp := fget cfg Fld.STEP_EVT_CFG_QP
    let rkey := fget cfg Fld.STEP_EVT_CFG_RKEY
    let head := sget (fun _ => 0) d.srv.evtHead p
    let tail := sget (fun _ => 0) d.srv.evtTail p
    let lost := sget (fun _ => 0) d.srv.evtLost p
    match sget (fun _ => []) d.srv.evts p with
    | e :: rest =>
      if tail - head < 2 ^ lg then
        let d1 := d.rdmaWrite qp (va + 32 * (tail % 2 ^ lg)) rkey (eventBytes e)
        let d2 := d1.rdmaWrite qp (va + 32 * 2 ^ lg + 8) rkey (toLe 8 (tail + 1))
        Dev.flushEventsFuel p n { d2 with srv := { d2.srv with
          evts := sput (fun _ => []) d2.srv.evts p rest, evtTail := sput (fun _ => 0) d2.srv.evtTail p (tail + 1) } }
      else d.rdmaRead qp (va + 32 * 2 ^ lg) rkey 8 (.eventHead p)
    | [] =>
      if lost = 0 then d
      else
        let d1 : Dev := { d with srv := { d.srv with
          evtLost := sput (fun _ => 0) d.srv.evtLost p 0, evts := sput (fun _ => []) d.srv.evts p [⟨0x0B, 0xFF, lost, 0, d.sysTime.toNat, 0⟩] } }
        Dev.flushEventsFuel p n d1

def Dev.flushEvents (d : Dev) (p : Nat) : Dev := Dev.flushEventsFuel p 300 d

/-! ### Frarax packets (R332, R335) -/

/-- The header bytes 4 to 63 of a packet (Table 11-5). -/
def frHeader (kind : Nat) (x : FrPkt) : List Byte :=
  toLe 1 kind ++ toLe 1 (b2n x.relayed * 8 + b2n x.retx * 4 + x.cls.toNat) ++ toLe 1 x.plen.toNat ++ toLe 1 x.tryCount.toNat ++
  toLe 4 x.dst.toNat ++ toLe 4 x.src.toNat ++ toLe 2 x.domain.toNat ++ toLe 2 x.session.toNat ++ toLe 4 x.fseq.toNat ++
  toLe 8 x.epoch.toNat ++ toLe 1 x.ctx.toNat ++ toLe 31 x.arg.toNat

/-- Kinds that carry one tile (Table 11-6). -/
def tileKinds : List Nat := [0x10, 0x20, 0x40, 0x50]

/-- HCRC over the header and, unless the kind carries a tile, the payload (Table 11-5). -/
def frCrc (kind : Nat) (x : FrPkt) : Nat :=
  crc32c (frHeader kind x ++ (if tileKinds.contains kind then [] else x.payload))

/-- The class of a kind (Table 11-6): 0 CTRL, 1 RESP, 2 DATA; none for a kind that the table lacks. -/
def kindClass (kind : Nat) : Option Nat :=
  if [0x01, 0x02, 0x03, 0x04, 0x05, 0x21, 0x22, 0x23, 0x24, 0x25, 0x41, 0x51, 0x52, 0x60, 0x61].contains kind then some 0
  else if [0x11, 0x13, 0x31, 0x32].contains kind then some 1
  else if [0x10, 0x12, 0x20, 0x30, 0x33, 0x40, 0x50].contains kind then some 2
  else none

/-- A field of ARG: len bytes from packet byte off on. -/
def argN (x : FrPkt) (off len : Nat) : Nat := x.arg.toNat / 2 ^ (8 * (off - 33)) % 2 ^ (8 * len)

/-- ARG from (offset, length, value) fields. -/
def mkArg (fs : List (Nat × Nat × Nat)) : BitVec 248 :=
  BitVec.ofNat 248 (fs.foldl (fun a f => a + f.2.2 % 2 ^ (8 * f.2.1) * 2 ^ (8 * (f.1 - 33))) 0)

def FlowTx.zero : FlowTx := ⟨0, [], [], 11⟩
def FlowRx.zero : FlowRx := ⟨0, 0, [], 0, 0⟩
def Port.zero : Port := ⟨0, 1, 0, false, [], 0, 0, 0, 0, 0, 0, [], 0, [], 0, 0, 0, false, none⟩
def Peer.zero : Peer := ⟨0, none, [], 0, false⟩

def Dev.port (d : Dev) (l : Nat) : Port := sget (fun _ => Port.zero) d.lnk.ports l
def Dev.setPort (d : Dev) (l : Nat) (x : Port) : Dev :=
  { d with lnk := { d.lnk with ports := sput (fun _ => Port.zero) d.lnk.ports l x } }
def Dev.flowTx (d : Dev) (node cls : Nat) : FlowTx := sget (fun _ => FlowTx.zero) d.lnk.tx (4 * node + cls)
def Dev.setFlowTx (d : Dev) (node cls : Nat) (x : FlowTx) : Dev :=
  { d with lnk := { d.lnk with tx := sput (fun _ => FlowTx.zero) d.lnk.tx (4 * node + cls) x } }
def Dev.flowRx (d : Dev) (node cls : Nat) : FlowRx := sget (fun _ => FlowRx.zero) d.lnk.rx (4 * node + cls)
def Dev.setFlowRx (d : Dev) (node cls : Nat) (x : FlowRx) : Dev :=
  { d with lnk := { d.lnk with rx := sput (fun _ => FlowRx.zero) d.lnk.rx (4 * node + cls) x } }
def Dev.peer (d : Dev) (node : Nat) : Peer := sget (fun _ => Peer.zero) d.lnk.peers node
def Dev.setPeer (d : Dev) (node : Nat) (x : Peer) : Dev :=
  { d with lnk := { d.lnk with peers := sput (fun _ => Peer.zero) d.lnk.peers node x } }

/-- Offsets of a port's STAT, PEER, CTL and counters: brood links 0 to 6, fabric ports 7 to 18 (Table 11-12). -/
def portStat (l : Nat) : Nat := if l < 7 then Reg.LNK_BL_STAT l else Reg.LNK_FP_STAT (l - 7)
def portPeer (l : Nat) : Nat := if l < 7 then Reg.LNK_BL_PEER l else Reg.LNK_FP_PEER (l - 7)
def portCtl (l : Nat) : Nat := if l < 7 then Reg.LNK_BL_CTL l else Reg.LNK_FP_CTL (l - 7)
def portState (d : Dev) (l : Nat) : Nat := d.rf (portStat l) Fld.LNK_BL_STAT_STATE
def portUsed (d : Dev) (l : Nat) : Bool := d.rf (portStat l) Fld.LNK_BL_STAT_USED == 1

def Dev.setPortState (d : Dev) (l n : Nat) : Dev := (d.wf (portStat l) Fld.LNK_BL_STAT_STATE n).setPort l { d.port l with since := d.ps }

/-- May the role bring the port up (R23)? -/
def Dev.rolePort (d : Dev) (l : Nat) : Bool := d.nodeValid && (if l < 7 then 1 ≤ d.role else 2 ≤ d.role)
/-- A DISABLED port that no bit and no role holds becomes DOWN (Table 11-3). -/
def Dev.openPort (d : Dev) (l : Nat) : Dev :=
  if portState d l = 4 ∧ d.rf (portCtl l) Fld.LNK_BL_CTL_DISABLE = 0 ∧ d.rolePort l then d.setPortState l 0 else d
/-- From stage 8 on the fabric ports open once every brood link is at the end of its first TRAIN (Table 15-2). -/
def Dev.openFabric (d : Dev) : Dev :=
  let past := fun l => let st := portState d l; st == 2 || st == 3 || st == 4 || (st == 0 && d.rf (portStat l) Fld.LNK_BL_STAT_DOWN_CAUSE != 0)
  if 8 ≤ d.stage ∧ (List.range 7).all past then (List.range 12).foldl (fun (e : Dev) f => e.openPort (7 + f)) d else d
/-- Stage 8 brings up the brood links, then the fabric ports, as the role requires. -/
def Dev.openPorts (d : Dev) : Dev := ((List.range 7).foldl (fun (e : Dev) l => e.openPort l) d).openFabric

/-- The used brood link to a brood position (R326). -/
def Dev.usedLink (d : Dev) (q : Nat) : Option Nat :=
  (List.range 7).find? fun l => portUsed d l && d.rf (portStat l) Fld.LNK_BL_STAT_PEER_POS == q

/-- Is a node a member of the formed brood other than this device? -/
def Dev.isMember (d : Dev) (node : Nat) : Bool := node / 8 == d.node / 8 && bit d.members (node % 8) && node != d.node

/-- CRC-32C of a link flit over bytes 4 to 543 (Table 11-2). -/
def flitCrc (f : LinkFlit) : Nat :=
  crc32c (toLe 2 f.lseq.toNat ++ toLe 2 f.lack.toNat ++ toLe 1 (f.cls.toNat * 64 + f.typ.toNat) ++ [f.crdCtrl, f.crdResp, f.crdData, f.start] ++
    zeros 19 ++ f.payload)

/-- Flits of the replay buffer of a port (Table 11-1). -/
def replayRoom (l : Nat) : Nat := if l < 7 then 120 else 481

/-- Send one link flit: it carries LACK and the credit returns (R322). -/
def Dev.sendFlit (d : Dev) (l typ cls lseq start : Nat) (payload : List Byte) : Dev :=
  let x := d.port l
  let f0 : LinkFlit := ⟨0, BitVec.ofNat 16 lseq, BitVec.ofNat 16 x.rxSeq, BitVec.ofNat 2 cls, BitVec.ofNat 2 typ,
    BitVec.ofNat 8 (min 255 x.freedCtrl), BitVec.ofNat 8 (min 255 x.freedResp), BitVec.ofNat 8 (min 255 x.freedData),
    BitVec.ofNat 8 start, payload ++ zeros (512 - payload.length)⟩
  let f := { f0 with crc := BitVec.ofNat 32 (flitCrc f0) }
  (d.setPort l { x with
    freedCtrl := x.freedCtrl - 255, freedResp := x.freedResp - 255, freedData := x.freedData - 255, lastTx := d.ps }).emit (.flit l f)

/-- Credits of a class that a port holds. -/
def Port.credits (x : Port) (cls : Nat) : Nat := if cls = 0 then x.creditsCtrl else if cls = 1 then x.creditsResp else x.creditsData
def Port.spend (x : Port) (cls : Nat) : Port :=
  if cls = 0 then { x with creditsCtrl := x.creditsCtrl - 1 }
  else if cls = 1 then { x with creditsResp := x.creditsResp - 1 } else { x with creditsData := x.creditsData - 1 }

/-- The port that a packet to a node takes: a used link, else the lowest relay that has not refused (R336), else the next used fabric
port after the flow's previous one (R338). -/
def Dev.route (d : Dev) (node cls lastPort : Nat) : Option Nat :=
  if d.isMember node then
    match d.usedLink (node % 8) with
    | some l => some l
    | none =>
      ((List.range 8).filterMap fun r =>
        match d.usedLink r with
        | some l =>
          if r != d.pos && !(d.peer node).refused.contains r &&
            (match (d.port l).hello with | some h => bit h.direct (node % 8) | none => false) then some l else none
        | none => none).head?
  else
    ((List.range 12).map fun i => (lastPort + 1 + i) % 12).find? (fun f => portUsed d (7 + f) && 0 < (d.port (7 + f)).credits cls) |>.map (7 + ·)

/-- The owner of the slots of a frame from weights that sum to 16: at each slot every weight is added to its holder's claim, the largest claim (the first of them) takes the slot and
gives up 16. -/
def spread (w : List Int) : Nat → List Int → List Nat
  | 0, _ => []
  | n + 1, claims =>
    let c := List.zipWith (· + ·) claims w
    let k := (List.range c.length).foldl (fun a i => if c.getD a 0 < c.getD i 0 then i else a) 0
    k :: spread w n (c.set k (c.getD k 0 - 16))

/-- The owner of a slot of a port's frame by PART_SHARE, 16 for none (R310). The Drimar's firmware spreads the slots evenly; the exact places are the model's (log entry 91). -/
def Dev.slotOwner (d : Dev) (l slot : Nat) : Nat :=
  let w := (List.range 16).map fun p => d.rf (Reg.PART_SHARE p) (if l < 7 then Fld.PART_SHARE_BROOD else Fld.PART_SHARE_FABRIC)
  ((spread ((w ++ [16 - w.foldl (· + ·) 0]).map Int.ofNat) 16 (List.replicate 17 0)).getD slot 16)

/-- The packet of a class that goes next, and the frame's next slot: the rest of one already begun, then for CTRL in order of arrival, else by the slot's owner, the next
partition after it with something waiting, and last a packet of no partition (R310, R322). -/
def Dev.nextQueued (d : Dev) (l cls : Nat) (x : Port) : Option (QueuedPkt × Port) :=
  let q := x.txq.filter (·.cls == cls)
  match q.find? (·.cut) with
  | some y => some (y, x)
  | none =>
    if cls = 0 then q.head?.map fun y => (y, x)
    else
      let slot := sget (fun _ => 0) x.slots cls
      let owner := d.slotOwner l slot
      let x1 := { x with slots := sput (fun _ => 0) x.slots cls ((slot + 1) % 16) }
      let turn := (List.range 16).map fun i => (owner % 16 + i) % 16
      ((turn.findSome? fun p => q.find? fun y => y.owner == some p).or q.head?).map fun y => (y, x1)

/-- Fill a flit's payload with packets of one class, back to back (R321): the port, the payload and START. -/
def Dev.fillFlit (d : Dev) (l cls : Nat) : Nat → Port → List Byte → Nat → Port × List Byte × Nat
  | 0, x, acc, start => (x, acc, start)
  | n + 1, x, acc, start =>
    if acc.length < 512 then
      match d.nextQueued l cls x with
      | some (q, y) =>
        let room := 512 - acc.length
        let left := if q.bytes.length ≤ room then y.txq.erase q else y.txq.set (y.txq.idxOf q) { q with cut := true, bytes := q.bytes.drop room }
        d.fillFlit l cls n { y with txq := left } (acc ++ q.bytes.take room) (if q.cut ∨ start ≠ 0xFF then start else acc.length / 64)
      | none => (x, acc, start)
    else (x, acc, start)

/-- The class of the next DATA flit: CTRL first, RESP and DATA by turns (R322), of those with a packet and a credit. -/
def Port.nextClass (x : Port) : Option Nat :=
  let can := fun cls => x.txq.any (·.cls == cls) && 0 < x.credits cls
  let order := if x.lastCls = 1 then [0, 2, 1] else [0, 1, 2]
  order.find? can

/-- Send waiting packets while credits and the replay buffer allow. -/
def Dev.pumpPort (l : Nat) : Nat → Dev → Dev
  | 0, d => d
  | n + 1, d =>
    let x := d.port l
    if x.replay.length < replayRoom l then
      match x.nextClass with
      | some cls =>
        let seq := x.txSeq
        let r := d.fillFlit l cls 10 (x.spend cls) [] 0xFF
        let y := { r.1 with
          txSeq := (seq + 1) % 65536, lastCls := if cls = 0 then r.1.lastCls else cls, replay := r.1.replay ++ [⟨seq, cls, r.2.2, r.2.1, 1⟩] }
        Dev.pumpPort l n ((d.setPort l y).sendFlit l 1 cls seq r.2.2 r.2.1)
      | none => d
    else d

/-- Expert bytes on a brood link (R286): the payload of packets of kinds 0x30 to 0x33, sent or received, relayed ones too. -/
def Dev.xptBytes (d : Dev) (kind l : Nat) (rx : Bool) (n : Nat) : Dev :=
  if l < 7 ∧ 0x30 ≤ kind ∧ kind ≤ 0x33 then d.bump (if rx then Reg.XPT_LINK_RX l else Reg.XPT_LINK_TX l) n else d

/-- Put a packet on a port: it waits there for flits of its class. A partition is charged for the payload of a first send (R340). -/
def Dev.putPort (d : Dev) (l kind : Nat) (x : FrPkt) : Dev :=
  let owner := d.partOfDomain x.domain.toNat
  let y := d.port l
  let e := match owner with | some p => if x.retx ∨ x.relayed then d else d.charge p (if l < 7 then aBrood else aFabric) x.payload.length | none => d
  Dev.pumpPort l 600 (((e.xptBytes kind l false x.payload.length).setPort l { y with
    txq := y.txq ++ [⟨owner, x.cls.toNat, false, toLe 4 x.hcrc.toNat ++ frHeader kind x ++ x.payload⟩] }).emit (.frarax l kind x))

/-- Kinds that are sent outside any flow (log entry 20): HELLO, HEARTBEAT, WITHDRAW, E2E_ACK, NACK_UNREACH and FIREFLY. -/
def unsequenced (kind : Nat) : Bool := [0x01, 0x02, 0x03, 0x04, 0x05, 0x61].contains kind

/-- Is no path left to a node (R339): a member without a used link and whose every relay has refused, or another node while no fabric port is used? -/
def Dev.noPath (d : Dev) (node : Nat) : Bool :=
  if d.isMember node then (d.route node 0 0).isNone else !(List.range 12).any fun f => portUsed d (7 + f)

/-- Packets to a node that no E2E_ACK covers. -/
def Dev.unackedTo (d : Dev) (node : Nat) : List SentPkt := (List.range 3).flatMap fun cls => (d.flowTx node cls).unacked

/-- A node without a path is unreachable from now on (R339). With a path it is reachable again where nothing awaits an E2E_ACK from it, since none can
then come (DESIGN CHOICE, log entry 91). -/
def Dev.markPath (d : Dev) (node : Nat) : Dev :=
  let x := d.peer node
  if d.noPath node then d.setPeer node { x with unreachAt := some (x.unreachAt.getD d.ps) }
  else if x.unreachAt.isSome && (d.unackedTo node).isEmpty then d.setPeer node { x with unreachAt := none }
  else d

/-- Send one packet to a node: number it in its flow, keep it until acknowledged, and put it on its port; beyond 256 outstanding it waits. -/
def Dev.send (d : Dev) (kind node : Nat) (x : FrPkt) : Dev :=
  let cls := (kindClass kind).getD 0
  let base : FrPkt := { x with
    dst := BitVec.ofNat 18 node, src := BitVec.ofNat 18 d.node, session := BitVec.ofNat 16 d.lnk.session,
    cls := BitVec.ofNat 2 cls, plen := BitVec.ofNat 8 ((x.payload.length + 63) / 64) }
  let fl := d.flowTx node cls
  if unsequenced kind then
    let y := { base with hcrc := BitVec.ofNat 32 (frCrc kind base) }
    match d.route node cls fl.lastPort with
    | some l => d.putPort l kind y
    | none => d
  else
    let y0 := { base with fseq := BitVec.ofNat 32 fl.next }
    let y := { y0 with hcrc := BitVec.ofNat 32 (frCrc kind y0) }
    if 256 ≤ fl.unacked.length then
      d.setFlowTx node cls { fl with next := fl.next + 1, waiting := fl.waiting ++ [⟨kind, y, d.ps, 0⟩] }
    else
      match d.route node cls fl.lastPort with
      | some l =>
        (d.setFlowTx node cls { fl with
          next := fl.next + 1, unacked := fl.unacked ++ [⟨kind, y, d.ps, 1⟩],
          lastPort := if 7 ≤ l then l - 7 else fl.lastPort }).putPort l kind y
      | none => (d.setFlowTx node cls { fl with next := fl.next + 1, unacked := fl.unacked ++ [⟨kind, y, d.ps, 0⟩] }).markPath node

/-- An empty packet: no payload, no ARG. -/
def frEmpty : FrPkt := ⟨0, false, false, 0, 0, 0, 0, 0, 0, 0, 0, 0, 0, 0, []⟩

/-- A partition-level packet of a context's attempt (R238, R334). -/
def Dev.ctxPkt (d : Dev) (c : Nat) (epoch : Nat) (fs : List (Nat × Nat × Nat)) : FrPkt :=
  { frEmpty with domain := BitVec.ofNat 16 (match d.partOfCtx c with | some p => (d.rd (Reg.LNK_DOMAIN p)).toNat | none => 0),
                 epoch := BitVec.ofNat 64 epoch, ctx := BitVec.ofNat 6 c, arg := mkArg fs }

/-- Is context c brood-scoped (R287)? -/
def Dev.broodCtx (d : Dev) (c : Nat) : Bool := d.rf (Reg.SCHED_CTX c) Fld.SCHED_CTX_BROOD == 1
/-- Is this device the lead of the formed brood (R329)? -/
def Dev.isLead (d : Dev) : Bool := d.lnk.lead == some d.pos
/-- Is the device a member, and not the lead, for this context? -/
def Dev.memberCtx (d : Dev) (c : Nat) : Bool := d.broodCtx c && !d.isLead
/-- The participants of a brood-scoped loop other than this device (R330). -/
def Dev.partners (d : Dev) (c : Nat) : List Nat := (sget (fun _ => []) d.lnk.participants c).filter (· != d.pos)

/-! ### Aborting an attempt (R163, R249 to R251) -/

def Cell.zero : Cell := ⟨0, false, [], [], false, false, [], [], [], [], [], 0, false, 3, none, []⟩
def Tc.zero : Tc := ⟨.unused, 0, .none, 0, false, [], [], [], [], ⟨0, 1, 0, 0, 0⟩⟩
def Dev.cell (d : Dev) (c : Nat) : Cell := sget (fun _ => Cell.zero) d.fab.cells c
def Dev.setCell (d : Dev) (c : Nat) (x : Cell) : Dev :=
  { d with fab := { d.fab with cells := sput (fun _ => Cell.zero) d.fab.cells c x } }
def Dev.modCell (d : Dev) (c : Nat) (f : Cell → Cell) : Dev := d.setCell c (f (d.cell c))
def Cell.tc (x : Cell) (t : Nat) : Tc := sget (fun _ => Tc.zero) x.tcs t
def Cell.setTc (x : Cell) (t : Nat) (y : Tc) : Cell := { x with tcs := sput (fun _ => Tc.zero) x.tcs t y }

def Molt.zero : Molt := ⟨[], [], false, [], false, none, 0, 0, 0, 0, false, none, 0⟩
def Dev.molt (d : Dev) (p : Nat) : Molt := sget (fun _ => Molt.zero) d.img.molts p
def Dev.setMolt (d : Dev) (p : Nat) (m : Molt) : Dev :=
  { d with img := { d.img with molts := sput (fun _ => Molt.zero) d.img.molts p m } }

/-- Molt states (Table 5-9). -/
def mIdle : Nat := 0
def mLoading : Nat := 1
def mLoaded : Nat := 2
def mDraining : Nat := 3
def mFlipping : Nat := 4
def mAborting : Nat := 5
def mHeld : Nat := 6
def Dev.moltState (d : Dev) (p : Nat) : Nat := d.rf (Reg.MOLT_STAT p) Fld.MOLT_STAT_STATE
def Dev.setMoltState (d : Dev) (p n : Nat) : Dev := d.wf (Reg.MOLT_STAT p) Fld.MOLT_STAT_STATE n

/-- Apply a change to every listed cell that holds anything (an untouched cell is already as the change would leave it). -/
def Dev.mapCells (d : Dev) (keep : Nat → Bool) (f : Cell → Cell) : Dev :=
  { d with fab := { d.fab with cells := (d.fab.cells.map fun (q : Nat × Cell) => if keep q.1 then (q.1, f q.2) else q).filter fun q => q.2 != Cell.zero } }

/-- A cell in ABORTING: it stops issuing, discards its queues and ends its task contexts (R163). -/
def stopCell (x : Cell) : Cell :=
  { x with
    queues := [], shadowValid := false, unacked := 0,
    tcs := x.tcs.map fun (q : Nat × Tc) => (q.1, { q.2 with st := if q.2.st = .unused then .unused else .done, wait := .none, chains := [], outs := [] }) }

/-- Cancel a shadow load in progress and invalidate the shadow (R157, R163). -/
def Dev.cancelLoad (d : Dev) (p : Nat) : Dev :=
  let d1 := if d.moltState p = mLoading ∨ !(d.molt p).unacked.isEmpty then d.bump (Reg.MOLT_LOAD_CANCEL p) 1 else d
  (d1.wf (Reg.MOLT_STAT p) Fld.MOLT_STAT_SHADOW_VALID 0).setMolt p { d.molt p with unacked := [] }

/-- The work counters of a partition are no longer live when its step ends (R127). -/
def endLive (p : Nat) (m : Store Wkc) : Store Wkc :=
  (m.map fun (q : Nat × Wkc) => if q.1 / 256 % 16 = p then (q.1, { q.2 with live := false }) else q).filter fun q => q.2 != ⟨0, false⟩

/-- The molt controller of a partition enters ABORTING (R163): cells of its combs stop, issues end, sequencers stop. -/
def Dev.startAborting (d : Dev) (p : Nat) : Dev :=
  if d.moltState p = mFlipping then d.setMolt p { d.molt p with abortWaits := true }
  else
    let ks := d.partCombs p
    let d1 := (d.cancelLoad p).mapCells (fun c => ks.contains (combOf c)) stopCell
    let d2 : Dev := { d1 with
      fab := { d1.fab with
        issues := d1.fab.issues.filter (fun (i : Issue) => !ks.contains i.comb),
        wkc := endLive p d1.fab.wkc,
        seqs := d1.fab.seqs.map (fun (q : Nat × SeqSt) => if ks.contains (q.1 / 4) then (q.1, { q.2 with on := false, wait := .none }) else q) },
      lnk := { d1.lnk with waits := d1.lnk.waits.filter fun (w : RemoteWait) => !ks.contains w.comb } }
    (d2.setMolt p { d2.molt p with requests := [], draining := false, drained := [], barrier := false, target := none }).setMoltState p mAborting

/-- F of a context (R251). -/
def Dev.fails (d : Dev) (c : Nat) : Nat := d.rf (Reg.STEP_PHASE c) Fld.STEP_PHASE_FAILS

/-- The loop becomes HALTED with a cause code; one LOOP_HALTED event is written (R253). -/
def Dev.halt (d : Dev) (p c : Nat) (cls fcause code : Nat) : Dev :=
  ((d.setLoop c lpHalted).wf (Reg.STEP_PHASE c) Fld.STEP_PHASE_HALT_CAUSE code).event p 0x0A c c (d.att c).epoch
    (cls * 2 ^ 56 + fcause % 65536 * 2 ^ 40 + code)

/-- What the expert and collective engines of an aborted attempt drop (R281, R349). -/
def Dev.dropEngines (d : Dev) (c : Nat) : Dev :=
  { d with
    xpt := { d.xpt with src := sput (fun _ => []) d.xpt.src c [], home := sput (fun _ => []) d.xpt.home c [], longest := sput (fun _ => 0) d.xpt.longest c 0 },
    lnk := { d.lnk with groups := d.lnk.groups.map fun (q : Nat × CollGroup) =>
      (q.1, if (match q.2.active with | some i => i.ctx == c | none => false) then { q.2 with active := none, issued := 0, waiting := [] } else q.2) } }

/-! ### Blocks (R219 to R221) -/

/-- The reference count of a block in the serving reserve (Table 7-9). -/
def refAddr (b : Nat) : Nat := 0xFFE8000000 + 2 * b
def blkAddr (b : Nat) : Nat := 0xFFE0000000 + 8 * b
def Dev.blk (d : Dev) (b : Nat) : Nat := d.num (blkAddr b) 8
def blkT2 (e : Nat) : Bool := bit e 63
def blkFrozen (e : Nat) : Bool := bit e 62
def blkMoving (e : Nat) : Bool := bit e 61
def blkGen (e : Nat) : Nat := e / 2 ^ 53 % 256
def blkUnit (e : Nat) : Nat := e % 2 ^ 39
def mkBlk (t2 frozen moving : Bool) (gen unit : Nat) : Nat :=
  b2n t2 * 2 ^ 63 + b2n frozen * 2 ^ 62 + b2n moving * 2 ^ 61 + gen % 256 * 2 ^ 53 + unit % 2 ^ 39
def Dev.setBlk (d : Dev) (b e : Nat) : Dev := d.setNum (blkAddr b) 8 e
def Dev.refs (d : Dev) (b : Nat) : Nat := d.num (refAddr b) 2
def Dev.setRefs (d : Dev) (b n : Nat) : Dev := d.setNum (refAddr b) 2 n

/-- One reference fewer; a block whose count reaches 0 is freed, its GEN incremented. -/
def Dev.dropRef (d : Dev) (b : Nat) : Dev :=
  let r := d.refs b
  if r ≤ 1 then
    let e := d.blk b
    (d.setRefs b 0).setBlk b (mkBlk false false false (blkGen e + 1) (blkUnit e))
  else d.setRefs b (r - 1)

def Handle.zero : Handle := ⟨.free, 0, 0, 0, 0, 0, 0, 0, 0, [], []⟩
def Dev.handle (d : Dev) (i : Nat) : Handle := sget (fun _ => Handle.zero) d.srv.handles i
def Dev.setHandle (d : Dev) (i : Nat) (h : Handle) : Dev := { d with srv := { d.srv with handles := sput (fun _ => Handle.zero) d.srv.handles i h } }

/-- A field of a request entry's working copy (Table 7-9). -/
def reqWork (n : Nat) : Nat := 0xFFEC800000 + 512 * n
def Dev.rq (d : Dev) (n off len : Nat) : Nat := d.num (reqWork n + off) len
def Dev.setRq (d : Dev) (n off len v : Nat) : Dev := d.setNum (reqWork n + off) len v

/-- What the admissions and allocations of an attempt changed goes back (R249): blocks taken are free with their GEN unchanged, chain entries as they were,
the copied chains of prefix handles lose their references, and a request admitted for the first time has no chain again. -/
def Dev.undoTaken (d : Dev) (c : Nat) : Dev :=
  let d0 := (d.att c).taken.foldl (fun (e : Dev) q => (e.setRefs q.block 0).setNum q.addr 4 q.old) d
  let d1 := (d.att c).admits.foldl (fun (e : Dev) q => if e.rq q.2 328 4 = 0 then (e.setRq q.2 268 4 0).setRq q.2 272 8 0 else e) d0
  (d.att c).shared.foldl (fun (e : Dev) q =>
    let e1 := (q.2.2.foldl (fun (f : Dev) b => f.dropRef b) e).setHandle q.2.1 { e.handle q.2.1 with uses := (e.handle q.2.1).uses - 1 }
    { e1 with srv := { e1.srv with chainN := sput (fun _ => 0) e1.srv.chainN q.1 0 } }) d1

/-- End the attempt of context c with one cause (R249 to R251): the registers record it (ORIGIN is 0 in a device domain), F counts it, blocks taken from reservations go back, the footprint
enters ABORTING, the engines drop their state, and the same admissions are replayed (R252). -/
def Dev.abortNow (d : Dev) (p c : Nat) (a : AbortInfo) : Dev :=
  let ep := (d.att c).epoch
  let w := BitVec.ofNat 64 (a.code * 2 ^ 56 + (if a.code < 0x40 then a.fcause % 65536 else 0) * 2 ^ 40 + (if d.broodCtx c then a.origin % 8 else 0) * 2 ^ 37 +
    d.phase c * 2 ^ 32 + ep % 2 ^ 32)
  let d1 := ((d.wr (Reg.STEP_ABORT c) w).bump (Reg.STEP_ABORTS c) 1).setPhase c phAbort
  let f := d1.fails c + b2n a.counted
  let d2 := d1.wf (Reg.STEP_PHASE c) Fld.STEP_PHASE_FAILS f
  let d2' := d2.undoTaken c
  let d3 := d2'.modAtt c fun t => { t with
    votes := [], mvotes := [], acks := [], decideSent := false, acked := false, taken := [], shared := [], pauses := [], records := [], lastTile := none, tileFails := 0,
    mustReplay := true, abortAt := d.ps, lastAbort := d.ps, pend := none }
  let d4 := (d3.dropEngines c).startAborting p
  if a.code = 0x43 ∨ (a.counted ∧ 3 ≤ f) then d4.halt p c a.cls a.fcause a.code else d4

/-- The members of a brood domain hear of an abort: a member votes ABORT to the lead, the lead sends ABORT(E) to every member (R241 step 3,
R245). -/
def Dev.spreadAbort (d : Dev) (c : Nat) (a : AbortInfo) : Dev :=
  if d.broodCtx c then
    let ep := (d.att c).epoch
    if d.isLead then
      (d.partners c).foldl (fun s q => s.send 0x25 (d.posNode q) (d.ctxPkt c ep [(33, 1, a.origin), (34, 1, a.code), (36, 2, a.fcause)])) d
    else
      match d.lnk.lead with
      | some q => d.send 0x22 (d.posNode q) (d.ctxPkt c ep [(33, 1, 1), (34, 1, a.code), (36, 2, a.fcause)])
      | none => d
  else d

/-- A cause that comes after the decision instant, or after a member's ACK, waits for the next attempt (R243, R245). PREEMPT and EPOCH concern the present attempt alone; LOST goes before
any other. -/
def Dev.keepAbort (d : Dev) (c : Nat) (a : AbortInfo) : Dev :=
  if a.code = 0x40 ∨ a.code = 0x42 then d
  else d.modAtt c fun t => { t with pend := some (if a.code = 0x43 then a else t.pend.getD a) }

/-- An abort cause reaches context c of partition p (R240, R243, R245): before the decision instant, and before a member has sent its ACK,
the attempt ends; from then on the cause is kept for the next attempt. -/
def Dev.abortCtx (d : Dev) (p c : Nat) (a : AbortInfo) : Dev :=
  if d.executing c then
    if (d.att c).decided ∨ (d.att c).acked then d.keepAbort c a
    else (d.spreadAbort c a).abortNow p c a
  else if d.phase c = phCommit then d.keepAbort c a
  else d

/-- Does an abort cause count in F (Table 8-3)? -/
def causeCounts (code : Nat) : Bool := !([0x09, 0x0A, 0x0B, 0x40, 0x42, 0x43].contains code)

/-- A fault in the work of context c of partition p that aborts its step (R19, R520, R521). -/
def Dev.stepFault (d : Dev) (p : Nat) (c : Option Nat) (f : FaultInfo) : Dev :=
  match c with
  | some c =>
    let d1 := d.raise { f with part := some p, sev := (if d.executing c then svAbort else svNotice), epoch := (d.att c).epoch }
    d1.abortCtx p c ⟨f.cls, f.cause, causeCounts f.cls, d.pos, f.cls⟩
  | none => d.raise { f with part := some p }

end Sys2Proof.Machine
end

