-- ==== Sys2Proof/Machine/Settle.lean ====
section
/-!
DEFINITION. Signals that are levels of other state: power states of combs between IDLE and ACTIVE (R403), throttle targets and limits
(R425), TIME_STAT.UNSURE and SWARM_TIME (R412), RING_IN (R369), powered dies (R26), the effective cap and ALERT_N and TRIP_N (R432, R507).
Every command ends by recomputing them.
-/
namespace Sys2Proof.Machine

/-- Set listed fields, in order. -/
def Dev.upd (d : Dev) (us : List (Nat × Fld × Nat)) : Dev := us.foldl (fun e u => e.wf u.1 u.2.1 u.2.2) d

/-! ### Boot stage and power -/

def Dev.chrysalis (d : Dev) : Bool := d.rf Reg.BIST_STAT Fld.BIST_STAT_CHRYSALIS == 1

/-- Are the main rails in use: stage 6 or later with its wait over, PG_MAIN high, not held, tripped, in the chrysalis state or in back-off? -/
def Dev.mainOn (d : Dev) : Bool :=
  6 ≤ d.stage && d.boot.pgAon && d.boot.pgMain && !d.boot.held && !d.pwr.trip && !d.chrysalis && d.boot.backoffAt.isNone &&
    d.rf Reg.BOOT_STAT Fld.BOOT_STAT_WAIT_CONT == 0 && d.rf Reg.BOOT_STAT Fld.BOOT_STAT_WAIT_MAIN == 0

/-- Is a control-space offset homed on a die of the main rails (Table 18-2)? -/
def mainHomed (off : Nat) : Bool :=
  (0x900000 ≤ off && off < 0xB00000) || (0xC00000 ≤ off && off < 0x1800000)

/-- Can the host reach the register at an offset (R17)? Not while the device has no standby power, is held in reset or shut down, and of the blocks homed
on the main rails only while those are on. -/
def Dev.hostUp (d : Dev) (off : Nat) : Bool :=
  d.boot.pgAon && !d.boot.held && !d.boot.porstLow && !d.pwr.trip && (!mainHomed off || d.mainOn)

/-! ### Combs (R402, R403) -/

def Dev.combPs (d : Dev) (k : Nat) : Nat := d.rf (Reg.CLK_COMB_PS k) Fld.CLK_COMB_PS_STATE

/-- The partition that owns comb k in any state but FREE. -/
def Dev.ownerOf (d : Dev) (k : Nat) : Option Nat :=
  (List.range 16).find? fun p => d.partState p != 0 && bit (d.rd (Reg.PART_COMBS p)).toNat k

/-- Does an attempt, a shadow load, a drain, a flip or ABORTING use the combs of p (R403)? -/
def Dev.partBusy (d : Dev) (p : Nat) : Bool :=
  let m := d.moltState p
  m == mLoading || m == mDraining || m == mFlipping || m == mAborting ||
    (match d.curCtx p with | some c => d.executing c || d.phase c == phCommit | none => false)

/-- The level of a comb's state: between IDLE and ACTIVE it follows its use; the emergency hold keeps it IDLE (R434). -/
def Dev.combLevel (d : Dev) (k : Nat) : Nat :=
  let s := d.combPs k
  if s < 2 then s
  else if d.rf Reg.PWR_STAT Fld.PWR_STAT_EMERG = 1 then 2
  else match d.ownerOf k with
    | some p => if d.partBusy p then 3 else 2
    | none => 2

/-! ### Throttle targets (R425) -/

def Ceil.zero : Ceil := ⟨80, none, 0⟩
/-- The ceiling of reason i, for the package (0) or for partition p (1 + p). -/
def Dev.ceil (d : Dev) (i v : Nat) : Ceil := sget (fun _ => Ceil.zero) d.pwr.ceil (17 * i + v)
def Dev.setCeil (d : Dev) (i v : Nat) (c : Ceil) : Dev :=
  { d with pwr := { d.pwr with ceil := sput (fun _ => Ceil.zero) d.pwr.ceil (17 * i + v) c } }

/-- The fixed-frequency word in force for partition p (R439). -/
def Dev.fixedWord (d : Dev) (p : Nat) : Word := sget (fun _ => 0#64) d.pwr.fixed p
def Dev.isFixed (d : Dev) (p : Nat) : Bool := fget (d.fixedWord p) Fld.PWR_FIXED_ENABLE == 1

/-- The unthrottled step of a comb of partition p. -/
def Dev.topStep (d : Dev) (p : Nat) : Nat :=
  if d.isFixed p then fget (d.fixedWord p) Fld.PWR_FIXED_FSTEP else d.rf Reg.PWR_CAP Fld.PWR_CAP_FTOP

/-- The ceilings that apply to a comb of partition p, as (reason, step) (Table 14-2). -/
def Dev.ceilings (d : Dev) (p : Nat) : List (Nat × Nat) :=
  let every := [(2, (d.ceil 2 0).step), (3, (d.ceil 3 0).step), (4, (d.ceil 4 0).step), (5, (d.ceil 5 0).step)]
  if d.isFixed p then every
  else [(0, (d.ceil 0 0).step), (1, (d.ceil 1 (1 + p)).step)] ++ every ++ [(6, (d.ceil 6 (1 + p)).step)]

/-- The target step of a comb of partition p. -/
def Dev.target (d : Dev) (p : Nat) : Nat := (d.ceilings p).foldl (fun t c => min t c.2) (d.topStep p)

/-- The partition of a comb that has a target: an ACTIVE or IDLE comb of a partition (R425). -/
def Dev.governed (d : Dev) (k : Nat) : Option Nat := if 2 ≤ d.combPs k then d.ownerOf k else none

/-- The reasons whose ceilings limit comb k: those at its target, where it lies below the unthrottled step (R425). -/
def Dev.ceilLimits (d : Dev) (k : Nat) : List Nat :=
  match d.governed k with
  | some p => let t := d.target p; ((d.ceilings p).filter fun c => c.2 == t && t < d.topStep p).map (·.1)
  | none => []

/-- The reasons that limit comb k: by their ceilings, and PEAK while droop stretching acts (R425, R429). -/
def Dev.limitsOf (d : Dev) (k : Nat) : List Nat :=
  (if (d.governed k).isSome ∧ d.pwr.droop.any (fun q => q.1 == k) then [2] else []) ++ d.ceilLimits k

/-- Bit i set when reason i limits at least one comb. -/
def Dev.limiting (d : Dev) : Nat :=
  (List.range 7).foldl (fun a i => a + (if (List.range 16).any (fun k => (d.limitsOf k).contains i) then 2 ^ i else 0)) 0

/-- The effective cap in W (R425). -/
def safeCapOf (w : Word) : Nat := let c := fget w Fld.PSR_SAFE_CAP_CAP; if 600 ≤ c ∧ c ≤ 3200 then c else 600

/-- The shipped value of a persistent word (Table 15-7). -/
def psrShipped (n : Nat) : Word :=
  if n = 1 then 0x0A89 else if n = 2 then Config.shipped 2 &&& 0xFFFFFFFFFF80 else if n = 4 then 0x05DC else if n = 5 then 1
  else if (11 ≤ n ∧ n ≤ 18) ∨ n = 20 then Config.shipped n else 0

/-- A persistent word as it last completed (R458). -/
def Dev.psrWord (d : Dev) (n : Nat) : Word := sget psrShipped d.psr.words n

def Dev.safeOn (d : Dev) : Bool := d.rf Reg.PWR_STAT Fld.PWR_STAT_SAFE_ON == 1
/-- The safe cap in force: read from its word each time it comes into force, and kept in the ceiling store's SAFE limit. -/
def Dev.effCap (d : Dev) : Nat :=
  let c := d.rf Reg.PWR_CAP Fld.PWR_CAP_CAP
  if d.safeOn then min c d.pwr.safeCap else c

/-! ### Time (R412) -/

def Dev.timeState (d : Dev) : Nat := d.rf Reg.TIME_STAT Fld.TIME_STAT_STATE

def Dev.colonyMaster (d : Dev) : Bool := d.rf Reg.TIME_STAT Fld.TIME_STAT_COLONY_MASTER == 1
def Dev.swarmMaster (d : Dev) : Bool := d.rf Reg.TIME_STAT Fld.TIME_STAT_SWARM_MASTER == 1

/-- COLONY_U in ps: 0 at the master; else its value at the last accepted exchange and 50 ps for each ms since (R408). -/
def Dev.colonyU (d : Dev) : Nat :=
  if d.colonyMaster then 0 else d.tim.colonyBase + 50 * ((d.ps - d.tim.colonyAt) / ms)

/-- SWARM_U in ps (R410): 0 at the swarm master, 0xFFFF_FFFF with role COLONY; a colony master adds 500 ps for each ms since its exchange; a
member adds the growth of its own COLONY_U. -/
def Dev.swarmU (d : Dev) : Nat :=
  if d.swarmMaster then 0
  else if d.role != 3 then 0xFFFFFFFF
  else if d.colonyMaster then d.tim.swarmBase + 500 * ((d.ps - d.tim.swarmAt) / ms)
  else d.tim.swarmBase + (d.colonyU - d.tim.colonyBase)

/-- The conditions of R412. -/
def Dev.unsure (d : Dev) : Bool :=
  d.timeState != 2 || (2 ≤ d.role && 50000 < d.colonyU) || (d.role == 3 && 250000 < d.swarmU) ||
    (d.role == 3 && !d.colonyMaster && d.tim.parentUnsure)

/-! ### Dies and pins -/

/-- Bits of GLB_DIE_PWR (R26). -/
def Dev.dieBits (d : Dev) : Nat :=
  if d.mainOn then
    (List.range 16).foldl (fun a k =>
      a + (if 2 ≤ d.combPs k then 2 ^ k else 0) + (if 1 ≤ d.combPs k then 2 ^ (16 + k) else 0)) 0 + 0x7F00000000
  else 0

/-- Must ALERT_N be driven low (R432, R507)? -/
def Dev.alertWanted (d : Dev) : Bool :=
  (d.rf Reg.PWR_STAT Fld.PWR_STAT_LIMITING / 4 % 16 != 0 || d.rf Reg.PWR_STAT Fld.PWR_STAT_EMERG == 1 || d.pwr.trip)

/-- Both outputs are released while PORST_N is low, while PG_AON is low, and in stages 1 to 5. -/
def Dev.pinsFree (d : Dev) : Bool := d.boot.porstLow || !d.boot.pgAon || (d.stage < 6 && !d.pwr.trip)

/-! ### Settling -/

def all64 : Fld := ⟨0, 64⟩
def low40 : Fld := ⟨0, 40⟩

/-- Is the device inserted with the by-pass switched in (R369)? -/
def Dev.ringIn (d : Dev) : Bool := d.rf Reg.LNK_RING_STAT Fld.LNK_RING_STAT_SWITCH == 2 && d.rf Reg.LNK_RING_CTL Fld.LNK_RING_CTL_INSERT == 1

/-- Comb states and the colony master, which leaves with the ring, first. -/
def Dev.settle1 (d : Dev) : Dev :=
  d.upd ((List.range 16).map (fun k => (Reg.CLK_COMB_PS k, Fld.CLK_COMB_PS_STATE, d.combLevel k)) ++
    [(Reg.TIME_STAT, Fld.TIME_STAT_COLONY_MASTER, b2n (d.colonyMaster && d.ringIn))])

/-- Then throttle levels, time and ring levels, and powered dies. -/
def Dev.settle2 (d : Dev) : Dev :=
  d.upd
    ((List.range 16).flatMap (fun k =>
      [(Reg.PWR_COMB k, Fld.PWR_COMB_LIMIT, (d.limitsOf k).foldl min 15),
       (Reg.PWR_COMB k, Fld.PWR_COMB_FSTEP, match d.ownerOf k with | some p => if 2 ≤ d.combPs k then d.target p else 0 | none => 0)]) ++
     [(Reg.PWR_STAT, Fld.PWR_STAT_LIMITING, if d.mainOn then d.limiting else 0),
      (Reg.PWR_STAT, Fld.PWR_STAT_EFF_CAP, if d.mainOn then d.effCap else 0),
      (Reg.TIME_STAT, Fld.TIME_STAT_UNSURE, b2n d.unsure),
      (Reg.TIME_STAT, Fld.TIME_STAT_COLONY_U, if d.role < 2 then 0 else min d.colonyU 0xFFFFFF),
      (Reg.TIME_STAT, Fld.TIME_STAT_SWARM_U, if d.role < 2 then 0 else min (d.swarmU / 1000) 0xFFFFFF),
      (Reg.GLB_LEVEL, Fld.GLB_LEVEL_SWARM_TIME, b2n (d.role == 3 && !d.unsure)),
      (Reg.GLB_LEVEL, Fld.GLB_LEVEL_RING_IN, b2n d.ringIn),
      (Reg.LNK_BROOD_STAT, Fld.LNK_BROOD_STAT_NOT_CAPABLE, b2n (8 ≤ d.stage && (!d.nodeValid || d.role == 0))),
      (Reg.GLB_DIE_PWR, low40, d.dieBits + 0x8000000000)])

/-- Then the pins. -/
def Dev.settle3 (d : Dev) : Dev :=
  let a := d.alertWanted && !d.pinsFree
  { d.upd [(Reg.PWR_STAT, Fld.PWR_STAT_ALERT, b2n a)] with alertLow := a, tripLow := d.pwr.trip && !d.pinsFree }

/-- Recompute every level. -/
def settle (d : Dev) : Dev := d.settle1.settle2.settle3

/-- The end of a command: the queue is untouched, the levels settle. -/
def done (s : State) (d : Dev) : Host.Outcome State Fault Refusal := .next { s with dev := settle d }

/-- The same of a command that a host write of a register gives: without effect while the register cannot be reached (R17). -/
def hostDone (s : State) (off : Nat) (f : Dev → Dev) : Host.Outcome State Fault Refusal := done s (if s.dev.hostUp off then f s.dev else s.dev)

end Sys2Proof.Machine
end

