-- ==== Sys2Proof/Machine/Operands.lean ====
section
/-!
DEFINITION. Reading what the array runs from: image layout (R134 to R144), stream descriptors (Tables 4-5 to 4-7), the records of a configuration
bank (Table 5-4), the SRAM layout of a cell (R37) and tile headers (Table 4-2).
-/
namespace Sys2Proof.Machine

/-! ### Images (Tables 5-1 to 5-3) -/

def Dev.imgAt (d : Dev) (n : Nat) : Option Img := sget (fun _ => none) d.img.imgs n
def Dev.setImg (d : Dev) (n : Nat) (x : Option Img) : Dev := { d with img := { d.img with imgs := sput (fun _ => none) d.img.imgs n x } }

/-- The handle of the active image of partition p, as 16·p + h. -/
def Dev.activeHandle (d : Dev) (p : Nat) : Option Nat :=
  if d.rf (Reg.MOLT_STAT p) Fld.MOLT_STAT_ACTIVE_VALID = 1 then some (16 * p + d.rf (Reg.MOLT_STAT p) Fld.MOLT_STAT_ACTIVE_HANDLE) else none
def Dev.activeImg (d : Dev) (p : Nat) : Option Img := (d.activeHandle p).bind d.imgAt

/-- Bytes and fields of an image in its area. -/
def Dev.imgNum (d : Dev) (i : Img) (off n : Nat) : Nat := d.num (i.addr + off) n

def Dev.instarCount (d : Dev) (i : Img) : Nat := d.imgNum i 34 2
def Dev.footW (d : Dev) (i : Img) : Nat := d.imgNum i 36 1
def Dev.footH (d : Dev) (i : Img) : Nat := d.imgNum i 37 1

/-- A directory entry: type, instar, offset and length (R137). -/
structure Section where
  typ : Nat
  instar : Nat
  off : Nat
  len : Nat
  deriving DecidableEq, Repr

def Dev.sections (d : Dev) (i : Img) : List Section :=
  (List.range (d.imgNum i 32 2)).map fun k =>
    let e := 256 + 16 * k
    ⟨d.imgNum i e 1, d.imgNum i (e + 2) 2, d.imgNum i (e + 8) 8, d.imgNum i (e + 4) 4⟩

def Dev.section? (d : Dev) (i : Img) (typ : Nat) : Option Section := (d.sections i).find? fun s => s.typ == typ
def Dev.instarSection (d : Dev) (i : Img) (n : Nat) : Option Section := (d.sections i).find? fun s => s.typ == 2 && s.instar == n

/-- The combs of an image's footprint. -/
def Dev.footCombs (d : Dev) (i : Img) : List Nat :=
  (List.range (d.footH i)).flatMap fun y => (List.range (d.footW i)).map fun x => i.origin + 4 * y + x

/-- The cell at footprint coordinates. -/
def Dev.footCell (i : Img) (x y : Nat) : Nat := cellAt (32 * (i.origin % 4) + x) (16 * (i.origin / 4) + y)

/-! ### Stream descriptors -/

/-- A two's complement number of w bits. -/
def signed (w n : Nat) : Int := if n < 2 ^ (w - 1) then n else (n : Int) - 2 ^ w

def parseDim (bs : List Byte) (k : Nat) : Dim :=
  let o := 16 + 12 * k
  { stride := signed 40 (leAt bs o 5), count := leAt bs (o + 5) 2, max := leAt bs (o + 7) 2, srcBnd := bit (byteAt bs (o + 9)) 7,
    srcIdx := byteAt bs (o + 9) % 64, b0 := byteAt bs (o + 10), b1 := byteAt bs (o + 11) }

def parseDesc (bs : List Byte) : StreamDesc :=
  let k := byteAt bs 8
  let f := byteAt bs 10
  let o := leAt bs 88 8
  { base := leAt bs 0 6, streamId := leAt bs 6 2, kind := k / 64, tier := k / 16 % 4, format := byteAt bs 9, buffered := bit f 5,
    blocked := bit f 4, slotted := bit f 3, eosSeparate := bit f 2, speculative := bit f 1, spillable := bit f 0,
    producer := leAt bs 12 2, consumer := leAt bs 14 2, dims := (List.range 6).map (parseDim bs),
    spillDepth := o / 2 ^ 54, order2 := o / 2 ^ 36 % 2 ^ 18, order1 := o / 2 ^ 18 % 2 ^ 18, order0 := o % 2 ^ 18 }

/-- Stream kinds (Table 4-4). -/
def skLoad : Nat := 0
def skStore : Nat := 1
def skLink : Nat := 2
def skRemote : Nat := 3

def Dev.descCount (d : Dev) (i : Img) : Nat := match d.section? i 4 with | some s => s.len / 104 | none => 0

/-- Entry n of the DESC section, its BASE resolved in place at registration (R142). -/
def Dev.desc (d : Dev) (i : Img) (n : Nat) : Option StreamDesc :=
  match d.section? i 4 with
  | some s => if 104 * n + 104 ≤ s.len then some (parseDesc (d.bytes (i.addr + s.off + 104 * n) 96)) else none
  | none => none

def Dev.descRegion (d : Dev) (i : Img) (n : Nat) : Nat :=
  match d.section? i 4 with
  | some s => d.imgNum i (s.off + 104 * n + 96) 1
  | none => 0xFF

/-- Region records of the RESOURCE section: tier, kind and size. -/
def Dev.regionCount (d : Dev) (i : Img) : Nat := match d.section? i 9 with | some s => d.imgNum i s.off 2 | none => 0
def Dev.region (d : Dev) (i : Img) (r : Nat) : Nat × Nat × Nat :=
  match d.section? i 9 with
  | some s => let e := s.off + 64 + 16 * r; (d.imgNum i e 1, d.imgNum i (e + 1) 1, d.imgNum i (e + 8) 8)
  | none => (0, 0, 0)

/-- The source route and EJECT of entry n of the ROUTE section. -/
def Dev.routeEntry (d : Dev) (i : Img) (n : Nat) : Option (Nat × Nat) :=
  match d.section? i 3 with
  | some s => if 16 * n + 16 ≤ s.len then some (d.imgNum i (s.off + 16 * n) 8, d.imgNum i (s.off + 16 * n + 8) 1) else none
  | none => none

/-- The home cell of a work counter and whether it is brood-wide (WKCMAP, R124, R129). -/
def Dev.wkcHome (d : Dev) (i : Img) (n : Nat) : Option (Nat × Bool) :=
  match d.section? i 0xA with
  | some s =>
    ((List.range (s.len / 4)).find? fun k => d.imgNum i (s.off + 4 * k) 1 == n).map fun k =>
      (Dev.footCell i (d.imgNum i (s.off + 4 * k + 2) 1) (d.imgNum i (s.off + 4 * k + 3) 1), bit (d.imgNum i (s.off + 4 * k + 1) 1) 0)
  | none => none

/-- The bound registers that a serving-engine step value fills: mask of footprint combs, index, source, planned maximum (BNDMAP). -/
def Dev.bndMap (d : Dev) (i : Img) : List (Nat × Nat × Nat × Nat) :=
  match d.section? i 6 with
  | some s => (List.range (s.len / 16)).map fun k =>
      let e := s.off + 16 * k
      (d.imgNum i e 2, d.imgNum i (e + 2) 1, d.imgNum i (e + 3) 1, d.imgNum i (e + 8) 4)
  | none => []

/-- The whole-step worst-case time in ns and the comb clock it assumes in MHz (WCET). -/
def Dev.wcet (d : Dev) (i : Img) : Option (Nat × Nat) :=
  match d.section? i 8 with
  | some s => ((List.range (s.len / 16)).find? fun k => d.imgNum i (s.off + 16 * k) 2 == 0xFFFF).map fun k =>
      (d.imgNum i (s.off + 16 * k + 8) 8, d.imgNum i (s.off + 16 * k + 4) 4)
  | none => none

/-! ### Records of a configuration bank (Table 5-4) -/

def rTcSetup : Nat := 1
def rSramPlan : Nat := 2
def rQueue : Nat := 3
def rOut : Nat := 4
def rRouteSlot : Nat := 5
def rStream : Nat := 6
def rChain : Nat := 7
def rSteer : Nat := 8
def rProgram : Nat := 9
def rStamp : Nat := 15

def CfgRec.b (r : CfgRec) (i : Nat) : Nat := byteAt r.payload i
def CfgRec.n (r : CfgRec) (i len : Nat) : Nat := leAt r.payload i len

def bankRec (rs : List CfgRec) (typ : Nat) (t : CfgRec → Bool) : Option CfgRec := rs.find? fun r => r.typ == typ && t r
def bankRecs (rs : List CfgRec) (typ : Nat) (t : CfgRec → Bool) : List CfgRec := rs.filter fun r => r.typ == typ && t r

def tcSetup (rs : List CfgRec) (t : Nat) : Option CfgRec := bankRec rs rTcSetup fun r => r.tc == t
def queueRec (rs : List CfgRec) (q : Nat) : Option CfgRec := bankRec rs rQueue fun r => r.b 0 == q
def outRec (rs : List CfgRec) (t o : Nat) : Option CfgRec := bankRec rs rOut fun r => r.tc == t && r.b 0 == o
def steerRec (rs : List CfgRec) (t : Nat) : Option CfgRec := bankRec rs rSteer fun r => r.tc == t
def chainRec (rs : List CfgRec) (t i : Nat) : Option CfgRec := bankRec rs rChain fun r => r.tc == t && r.b 15 == i
def streamRecs (rs : List CfgRec) (t : Nat) : List CfgRec := bankRecs rs rStream fun r => r.tc == t
def queueRecs (rs : List CfgRec) : List CfgRec := bankRecs rs rQueue fun _ => true

/-- The station of a task context, 0xFFFF for none. -/
def stationOf (rs : List CfgRec) (t : Nat) : Nat := match tcSetup rs t with | some r => r.n 0 2 | none => 0xFFFF

/-- Does a record replace an earlier one of its kind in the cell (R139)? TC_SETUP and STEER are of one task context; the other kinds are keyed as the rule names them. -/
def replaces (new old : CfgRec) : Bool :=
  new.typ == old.typ &&
    (if new.typ = rTcSetup ∨ new.typ = rSteer then new.tc == old.tc
     else if new.typ = rSramPlan then true
     else if new.typ = rQueue then new.b 0 == old.b 0
     else if new.typ = rOut then new.b 0 == old.b 0
     else if new.typ = rRouteSlot then new.b 0 == old.b 0
     else if new.typ = rStream then new.n 0 2 == old.n 0 2
     else if new.typ = rChain then new.b 15 == old.b 15
     else false)

/-- Apply a record to a bank. -/
def applyRec (rs : List CfgRec) (r : CfgRec) : List CfgRec := rs.filter (fun o => !replaces r o) ++ [r]

/-- The program of a task context: its PROGRAM records in order. -/
def programBytes (rs : List CfgRec) (t : Nat) : List Byte := (bankRecs rs rProgram fun r => r.tc == t).flatMap (·.payload)
/-- Word n of the program, none beyond its end. -/
def programWord (rs : List CfgRec) (t n : Nat) : Option Nat :=
  let bs := programBytes rs t
  if 8 * n + 8 ≤ bs.length then some (leAt bs (8 * n) 8) else none

/-! ### SRAM of a cell (R37; the order of the regions is log entry 21) -/

def sramTb (rs : List CfgRec) : Nat := match bankRec rs rSramPlan fun _ => true with | some r => r.b 0 | none => 0
def sramStg (rs : List CfgRec) : Nat := match bankRec rs rSramPlan fun _ => true with | some r => r.n 2 2 | none => 0
/-- Depths of the queues below q, then of q itself. -/
def queueDepth (rs : List CfgRec) (q : Nat) : Nat := match queueRec rs q with | some r => r.b 1 | none => 0
def queueBefore (rs : List CfgRec) (q : Nat) : Nat := (List.range q).foldl (fun a i => a + queueDepth rs i) 0

/-- Device address of tile buffer b and of position i of queue q of cell c. -/
def bufAddr (c b : Nat) : Nat := cellBase c + 4608 * b
def slotAddr (rs : List CfgRec) (c q i : Nat) : Nat := cellBase c + 4608 * (sramTb rs + queueBefore rs q + i)

/-! ### Tiles (Tables 4-1 to 4-3) -/

def tileBytes : Nat := 4608
def tileWire : Nat := 4416

/-- A tile header. -/
structure Hdr where
  crc : Nat
  format : Nat
  kaxis : Nat
  kext : Nat
  rows : Nat
  cols : Nat
  speculative : Bool
  empty : Bool
  eos : Bool
  streamId : Nat
  gen : Nat
  steer : Nat
  pred : Nat
  slot : Nat
  seq : Nat
  epoch : Nat
  slotGen : Nat
  deriving DecidableEq, Repr

/-- Read a header; rows and cols are the fields, the valid extents minus 1. -/
def hdrOf (bs : List Byte) : Hdr :=
  let f := byteAt bs 5
  let g := byteAt bs 7
  { crc := leAt bs 0 4, format := byteAt bs 4, kaxis := f / 128, kext := f / 64 % 2, rows := f % 64, cols := byteAt bs 6 % 64,
    speculative := bit g 2, empty := bit g 1, eos := bit g 0, streamId := leAt bs 8 2, gen := byteAt bs 10, steer := byteAt bs 11,
    pred := byteAt bs 12, slot := leAt bs 14 2, seq := leAt bs 16 4, epoch := leAt bs 20 4, slotGen := leAt bs 24 2 }

/-- The 60 header bytes after the CRC. -/
def hdrTail (h : Hdr) : List Byte :=
  toLe 1 h.format ++ toLe 1 (h.kaxis * 128 + h.kext * 64 + h.rows) ++ toLe 1 h.cols ++
  toLe 1 (b2n h.speculative * 4 + b2n h.empty * 2 + b2n h.eos) ++ toLe 2 h.streamId ++ toLe 1 h.gen ++ toLe 1 h.steer ++ toLe 1 h.pred ++
  zeros 1 ++ toLe 2 h.slot ++ toLe 4 h.seq ++ toLe 4 h.epoch ++ toLe 2 h.slotGen ++ zeros 38

/-- A tile on the mesh from its header, scale area and element area: the CRC is computed over bytes 4 to 4,415 (R102). -/
def mkTile (h : Hdr) (scales elems : List Byte) : List Byte :=
  let rest := hdrTail h ++ (scales ++ zeros 256).take 256 ++ (elems ++ zeros 4096).take 4096
  toLe 4 (crc32c rest) ++ rest

/-- Does the CRC of a tile match (R102)? -/
def tileCrcOk (bs : List Byte) : Bool := leAt bs 0 4 == crc32c ((bs.drop 4).take 4412)

/-- Rewrite the header of a tile, keeping its areas. -/
def reHdr (bs : List Byte) (h : Hdr) : List Byte := mkTile h ((bs.drop 64).take 256) ((bs.drop 320).take 4096)

/-- Element width, Kt and length of the other axis of a format (Table 4-3). -/
def fmtShape (code : Nat) : Option (Nat × Nat × Nat) :=
  if code = 0x01 ∨ code = 0x20 then some (32, 32, 32)
  else if code = 0x02 ∨ code = 0x03 ∨ code = 0x21 then some (16, 32, 64)
  else if code = 0x10 ∨ code = 0x11 ∨ code = 0x18 then some (8, 64, 64)
  else if code = 0x12 ∨ code = 0x13 then some (6, 64, 64)
  else if code = 0x14 then some (4, 128, 64)
  else none

/-- Rows and columns of the shape. -/
def tileShape (code kaxis : Nat) : Nat × Nat :=
  match fmtShape code with
  | some (_, kt, o) => if kaxis = 0 then (o, kt) else (kt, o)
  | none => (0, 0)

/-- Valid extents (R101): KEXT is bit 6 of the reduction-axis field of MXFP4. -/
def hdrRows (h : Hdr) : Nat := h.rows + 1 + (if h.format = 0x14 ∧ h.kaxis = 1 then 64 * h.kext else 0)
def hdrCols (h : Hdr) : Nat := h.cols + 1 + (if h.format = 0x14 ∧ h.kaxis = 0 then 64 * h.kext else 0)

/-- Is a header valid (R103 step 2)? -/
def hdrValid (h : Hdr) : Bool :=
  (fmtShape h.format).isSome && hdrRows h ≤ (tileShape h.format h.kaxis).1 && hdrCols h ≤ (tileShape h.format h.kaxis).2

/-- The code of element e of width w in an element area (R99). -/
def elemAt (elems : List Byte) (w e : Nat) : Nat := leAt elems (e * w / 8) 5 / 2 ^ (e * w % 8) % 2 ^ w

/-- An element area from its codes, packed from bit 0 of byte 0 on (R99). -/
def packElems (w : Nat) (codes : List Nat) : List Byte :=
  let n := codes.foldr (fun c a => c % 2 ^ w + 2 ^ w * a) 0
  toLe ((codes.length * w + 7) / 8) n

/-- An EMPTY tile (R104). -/
def emptyTile (format kaxis streamId seq gen epoch : Nat) (eos speculative : Bool) : List Byte :=
  mkTile { crc := 0, format := format, kaxis := kaxis, kext := 0, rows := 0, cols := 0, speculative := speculative, empty := true, eos := eos,
           streamId := streamId, gen := gen, steer := 0, pred := 0, slot := 0xFFFF, seq := seq, epoch := epoch, slotGen := 0 } [] []

/-! ### Faults of a comb (R18, R19) -/

/-- Does the commit domain that runs on partition p use comb k: does the footprint of its active image hold it? -/
def Dev.usesComb (d : Dev) (p k : Nat) : Bool := match d.activeImg p with | some i => (d.footCombs i).contains k | none => true

/-- A fault detected inside comb k (R19): it aborts the current step of the partition that owns the comb, if the step's footprint uses the comb. -/
def Dev.combFault (d : Dev) (k : Nat) (f : FaultInfo) : Dev :=
  match d.partOfComb k with
  | some p => if d.usesComb p k then d.stepFault p (d.curCtx p) f else d.raise { f with part := some p }
  | none => d.raise f

/-- A fault that a cell detects. -/
def Dev.cellFault (d : Dev) (c cls cause detail : Nat) : Dev :=
  d.combFault (combOf c) { notice cls cause detail with cell := some c }

end Sys2Proof.Machine
end

