-- ==== Sys2Proof/Machine/Kv.lean ====
section
/-!
DEFINITION. The tables of the serving engine: geometry (R204, R205), request entries (Tables 7-5 and 7-6), the KV block table, chain lists and
reference counts (R217 to R221), and how a BLOCKED stream finds its tiles (R209, R113).
-/
namespace Sys2Proof.Machine

/-! ### Geometry -/

/-- The GEOMETRY section (Table 7-1). -/
structure Geo where
  slots : Nat
  nodes : Nat
  depth : Nat
  region : Nat
  tpb : Nat
  maxCtx : Nat
  vocab : Nat
  planes : Nat
  chunk : Nat
  station : Nat
  deriving DecidableEq, Repr

def Dev.geoOf (d : Dev) (i : Img) : Option Geo :=
  (d.section? i 0xB).map fun s =>
    { slots := d.imgNum i s.off 2, nodes := d.imgNum i (s.off + 2) 2, depth := d.imgNum i (s.off + 4) 1, region := d.imgNum i (s.off + 5) 1,
      tpb := d.imgNum i (s.off + 6) 2, maxCtx := d.imgNum i (s.off + 8) 4, vocab := d.imgNum i (s.off + 12) 4, planes := d.imgNum i (s.off + 16) 2,
      chunk := d.imgNum i (s.off + 18) 2, station := d.imgNum i (s.off + 20) 2 }

/-- The ranges of Table 7-1. -/
def geoValid (g : Geo) : Bool :=
  1 ≤ g.slots && g.slots ≤ 1024 && 1 ≤ g.nodes && g.nodes ≤ 256 && g.depth ≤ 32 && (g.depth != 0 || g.nodes == 1) && g.region ≤ 63 &&
    1 ≤ g.tpb && g.tpb ≤ 4096 && 1 ≤ g.maxCtx && g.maxCtx ≤ 2 ^ 24 && 2 ≤ g.vocab && g.vocab ≤ 262144 && 1 ≤ g.planes && g.planes ≤ 256 &&
    1 ≤ g.chunk && g.chunk ≤ 4096

/-- The handle of a context as 16·p + h, and its registered image. -/
def Dev.ctxHandle (d : Dev) (p c : Nat) : Nat := 16 * p + d.rf (Reg.SCHED_CTX c) Fld.SCHED_CTX_HANDLE
def Dev.handleState (d : Dev) (n : Nat) : Nat := d.rf (Reg.MOLT_HSTAT n) Fld.MOLT_HSTAT_STATE
def Dev.ctxImg (d : Dev) (p c : Nat) : Option Img := if d.handleState (d.ctxHandle p c) = 2 then d.imgAt (d.ctxHandle p c) else none
def Dev.geo (d : Dev) (p c : Nat) : Option Geo := (d.ctxImg p c).bind d.geoOf

/-- The loop's own geometry (R205). -/
def Dev.loopSlots (d : Dev) (c : Nat) : Nat := d.rf (Reg.STEP_GEOM0 c) Fld.STEP_GEOM0_SLOTS
def Dev.loopMaxCtx (d : Dev) (c : Nat) : Nat := d.rf (Reg.STEP_GEOM0 c) Fld.STEP_GEOM0_MAX_CTX
def Dev.loopChunk (d : Dev) (c : Nat) : Nat := d.rf (Reg.STEP_GEOM1 c) Fld.STEP_GEOM1_CHUNK
def Dev.loopDepth (d : Dev) (c : Nat) : Nat := d.rf (Reg.STEP_GEOM1 c) Fld.STEP_GEOM1_TREE_DEPTH
def Dev.loopNodes (d : Dev) (c : Nat) : Nat := d.rf (Reg.STEP_GEOM1 c) Fld.STEP_GEOM1_TREE_NODES

/-! ### Requests -/

/-- An entry's committed copy (Table 7-9). -/
def reqComm (n : Nat) : Nat := 0xFFEC000000 + 512 * n
/-- The committed copy takes the working copy. -/
def Dev.commitReq (d : Dev) (n : Nat) : Dev := d.setBytes (reqComm n) (d.bytes (reqWork n) 512)

/-- Request states (Table 7-7). -/
def rsFree : Nat := 0
def rsSubmitted : Nat := 1
def rsQueued : Nat := 2
def rsActive : Nat := 3
def rsPaused : Nat := 4
def rsSuspended : Nat := 5
def rsCompleted : Nat := 6
def rsCancelled : Nat := 7
def rsFailed : Nat := 8

def Dev.rqState (d : Dev) (n : Nat) : Nat := d.rq n 256 1
def Dev.rqFlag (d : Dev) (n i : Nat) : Bool := bit (d.rq n 258 2) i
def Dev.setRqFlag (d : Dev) (n i : Nat) (b : Bool) : Dev :=
  let f := d.rq n 258 2
  d.setRq n 258 2 (f - b2n (bit f i) * 2 ^ i + b2n b * 2 ^ i)

/-- The first entry and the count of a partition's request range, and the partition of an entry. -/
def Dev.reqFirst (d : Dev) (p : Nat) : Nat := d.rf (Reg.PART_REQ p) Fld.PART_REQ_FIRST
def Dev.reqCount (d : Dev) (p : Nat) : Nat := d.rf (Reg.PART_REQ p) Fld.PART_REQ_COUNT
def Dev.ownsReq (d : Dev) (p n : Nat) : Bool := d.partState p != 0 && d.reqFirst p ≤ n && n < d.reqFirst p + d.reqCount p
def Dev.partOfReq (d : Dev) (n : Nat) : Option Nat := (List.range 16).find? fun p => d.ownsReq p n
/-- Entries of p that name loop c and are not FREE. -/
def Dev.loopReqs (d : Dev) (p c : Nat) : List Nat :=
  ((List.range (d.reqCount p)).map (d.reqFirst p + ·)).filter fun n => d.rqState n != rsFree && d.rq n 2 1 == c

/-- Slots that hold a request. -/
def Dev.holds (d : Dev) (c : Nat) : List SlotHold := sget (fun _ => []) d.srv.slots c
def Dev.setHolds (d : Dev) (c : Nat) (l : List SlotHold) : Dev := { d with srv := { d.srv with slots := sput (fun _ => []) d.srv.slots c l } }
/-- SLOT_GEN of a slot: an admission of the present attempt gives the slot its next one (R216). -/
def Dev.slotGenOf (d : Dev) (c s : Nat) : Nat :=
  let g := sget (fun _ => 0) d.srv.slotGen (1024 * c + s)
  if d.phase c != phIdle && (d.att c).admits.any (fun q => q.1 == s) then (g + 1) % 65536 else g

/-! ### Blocks (R219 to R221) -/

def Dev.poolFirst (d : Dev) (p : Nat) : Nat := d.rf (Reg.STEP_BLK p) Fld.STEP_BLK_FIRST
def Dev.poolCount (d : Dev) (p : Nat) : Nat := d.rf (Reg.STEP_BLK p) Fld.STEP_BLK_COUNT
/-- Device address of block b's T1 storage. -/
def Dev.blkT1 (d : Dev) (p b : Nat) : Nat := (d.rd (Reg.STEP_BLK_T1 p)).toNat % 2 ^ 48 + (b - d.poolFirst p) * 36864
def blockBytes : Nat := 36864

def Dev.blockFree (d : Dev) (b : Nat) : Bool := d.refs b == 0 && !d.srv.dead.contains b
def Dev.freeBlocks (d : Dev) (p : Nat) : List Nat := ((List.range (d.poolCount p)).map (d.poolFirst p + ·)).filter d.blockFree
/-- Blocks still reserved and not allocated, over the partition's requests. -/
def Dev.reservedLeft (d : Dev) (p : Nat) : Nat :=
  (d.srv.reserved.filter fun (q : Nat × Nat) => d.ownsReq p q.1).foldl (fun a (q : Nat × Nat) => a + q.2) 0
def Dev.unreserved (d : Dev) (p : Nat) : Nat := (d.freeBlocks p).length - d.reservedLeft p
def Dev.setReserved (d : Dev) (n v : Nat) : Dev := { d with srv := { d.srv with reserved := sput (fun _ => 0) d.srv.reserved n v } }
def Dev.reservedOf (d : Dev) (n : Nat) : Nat := sget (fun _ => 0) d.srv.reserved n

/-- Allocate the lowest free block ID of a pool: reference count 1, T1 storage of its own. -/
def Dev.allocBlock (d : Dev) (p : Nat) : Option (Nat × Dev) :=
  match (d.freeBlocks p).head? with
  | some b => some (b, (d.setRefs b 1).setBlk b (mkBlk false false false (blkGen (d.blk b)) (d.blkT1 p b / 512)))
  | none => none

/-! ### Chain lists (R220) -/

def ceilDiv (a b : Nat) : Nat := if b = 0 then 0 else (a + b - 1) / b

def Dev.chainBytes (d : Dev) (c : Nat) (g : Geo) : Nat := 4 * g.planes * ceilDiv (d.loopMaxCtx c + d.loopNodes c) g.tpb
def Dev.chainAddr (d : Dev) (p c n : Nat) (g : Geo) : Nat :=
  (d.rd (Reg.STEP_CHAIN c)).toNat % 2 ^ 48 + (n - d.reqFirst p) * d.chainBytes c g
def Dev.chainEntry (d : Dev) (chain i : Nat) : Nat := d.num (chain + 4 * i) 4
def Dev.setChainEntry (d : Dev) (chain i gen b : Nat) : Dev := d.setNum (chain + 4 * i) 4 (gen % 256 * 2 ^ 24 + b % 2 ^ 24)
/-- Blocks of a chain that covers n tokens. -/
def chainLen (g : Geo) (tokens : Nat) : Nat := ceilDiv tokens g.tpb * g.planes
def Dev.chainBlocks (d : Dev) (chain n : Nat) : List Nat := (List.range n).map fun i => d.chainEntry chain i % 2 ^ 24

/-! ### BLOCKED streams -/

/-- What a BLOCKED stream finds. -/
inductive KvRes where
  | addr (a : Nat) (block : Nat)
  | empty
  | badGen (block entry : Nat)
  | badTier (block : Nat)
  deriving DecidableEq, Repr

/-! ### Serving tables -/

def Dev.serveBase (d : Dev) (p c : Nat) (g : Geo) : Nat := match d.ctxImg p c with | some i => i.place.getD g.region 0 | none => 0
def serveTile (base t : Nat) : Nat := base + tileBytes * t

/-- Word w of the slot record of slot s in the serving region (Table 7-4). -/
def Dev.recWord (d : Dev) (p c : Nat) (g : Geo) (s w : Nat) : Nat := d.num (serveTile (d.serveBase p c g) (s / 32) + 320 + 4 * (32 * (s % 32) + w)) 4

/-! ### Stage-linked contexts (R258, R259) -/

def Dev.hasPrev (d : Dev) (c : Nat) : Bool := d.rf (Reg.LNK_STAGE c) Fld.LNK_STAGE_PREV_VALID == 1
def Dev.hasNext (d : Dev) (c : Nat) : Bool := d.rf (Reg.LNK_STAGE c) Fld.LNK_STAGE_NEXT_VALID == 1
def Handoff.zero : Handoff := ⟨[], [], none, none, false, 0, 0, 0⟩
def Dev.handoff (d : Dev) (c : Nat) : Handoff := sget (fun _ => Handoff.zero) d.lnk.handoff c
/-- Committed steps of a stage 0 whose results are still to come back. -/
def Dev.awaits (d : Dev) (c : Nat) : List (List SlotAwait) := sget (fun _ => []) d.srv.awaits c
def Dev.setAwaits (d : Dev) (c : Nat) (l : List (List SlotAwait)) : Dev := { d with srv := { d.srv with awaits := sput (fun _ => []) d.srv.awaits c l } }
/-- A stage after stage 0 takes handoffs and has no requests of its own; stage 0 of a loop whose last stage sends results back has requests (log entry 60). -/
def Dev.laterStage (d : Dev) (p c : Nat) : Bool := d.hasPrev c && (d.loopReqs p c).isEmpty && (d.awaits c).isEmpty
def Dev.firstStage (d : Dev) (p c : Nat) : Bool := d.hasPrev c && !d.laterStage p c
/-- Does the context take its slots from the tables that another device has sent? -/
def Dev.tableCtx (d : Dev) (p c : Nat) : Bool := d.memberCtx c || d.laterStage p c

/-- A computing slot as a step sees it: request entry, KV_LEN, NEW, chain list, prompt, samples, nodes of its tree. -/
structure SlotView where
  slot : Nat
  entry : Nat
  kv : Nat
  new : Nat
  chain : Nat
  prompt : Bool
  samples : Bool
  nodes : Nat
  deriving DecidableEq, Repr

/-- The computing slots of the present attempt: of the plan, or on a member or later stage as the slot records sent to it name them. -/
def Dev.slotViews (d : Dev) (p c : Nat) (g : Geo) : List SlotView :=
  if d.tableCtx p c then
    (filterBelow g.slots fun s => bit (d.recWord p c g s 1) 16).map fun s =>
      let w := d.recWord p c g s
      ⟨s, w 0, w 2, w 3, w 4 + 2 ^ 32 * w 5, bit (w 1) 17, bit (w 1) 18, if bit (w 1) 19 then w 3 else 1⟩
  else
    (d.att c).plan.map fun q => ⟨q.slot, q.entry, d.rq q.entry 268 4, q.new, d.chainAddr p c q.entry g, q.prompt != 0, q.samples, q.tree.length + 1⟩

/-- SLOT_GEN of a slot in the present attempt's slot table: on a member or later stage, as the slot record sent to it has it. -/
def Dev.slotGenIn (d : Dev) (p c s : Nat) : Nat :=
  if d.tableCtx p c then (match d.geo p c with | some g => d.recWord p c g s 1 % 65536 | none => 0) else d.slotGenOf c s

/-- The tile of block index i1, tile slot offset off, of slot s in context c (R209, R221). -/
def Dev.kvFind (d : Dev) (p c s i1 plane off : Nat) : KvRes :=
  match d.geo p c with
  | some g =>
    match (d.slotViews p c g).find? (fun q => q.slot == s) with
    | some q =>
      if ceilDiv (q.kv + q.new) g.tpb ≤ i1 then .empty
      else
        let e := d.chainEntry q.chain (i1 * g.planes + plane)
        let b := e % 2 ^ 24
        let t := d.blk b
        if d.tableCtx p c then .addr (d.blkT1 p b + off) b
        else if e / 2 ^ 24 != blkGen t then .badGen b q.entry
        else if blkT2 t ∨ blkMoving t then .badTier b
        else .addr (blkUnit t * 512 + off) b
    | none => .empty
  | none => .empty

end Sys2Proof.Machine
end

