-- ==== Sys2Proof/Machine/Requests.lean ====
section
/-!
DEFINITION. Requests (R210 to R217, R223, R224): what a change of a request does at once and what waits for a commit, the checks of a submission, the end
of a request, ring room (R231) and prefix handles.
-/
namespace Sys2Proof.Machine

/-! ### The loop of a request, and what a host read shows (R210, R213) -/

def Dev.rqLoop (d : Dev) (n : Nat) : Nat := d.rq n 2 1
/-- The context that a request of p belongs to, if the partition has it. -/
def Dev.reqCtx (d : Dev) (p n : Nat) : Option Nat := if d.rqLoop n < 64 ∧ d.partOfCtx (d.rqLoop n) = some p then some (d.rqLoop n) else none
/-- Does the request belong to a RUNNING loop? -/
def Dev.reqRunning (d : Dev) (p n : Nat) : Bool := match d.reqCtx p n with | some c => d.loopState c == lpRunning | none => false
/-- Does a request hold a slot of its loop? -/
def Dev.holdsSlot (d : Dev) (p n : Nat) : Bool := match d.reqCtx p n with | some c => (d.holds c).any fun h => h.entry == n | none => false
/-- Does the present attempt admit the request, or will the replay that is due (R252)? A HALTED loop admits nothing: RESUME starts a fresh attempt (R253). -/
def Dev.admitting (d : Dev) (p n : Nat) : Bool :=
  match d.reqCtx p n with
  | some c => (d.att c).admits.any (fun q => q.2 == n) && (d.phase c != phIdle || (d.att c).mustReplay) && d.loopState c != lpHalted
  | none => false

/-- A change of a request that waits for no commit shows at once (R213). -/
def Dev.show (d : Dev) (p n : Nat) : Dev := if d.reqRunning p n || d.holdsSlot p n || d.admitting p n then d else d.commitReq n

/-- Does context c of the partition hold back events until its commit: while its loop is RUNNING or a commit is being applied? -/
def Dev.holdsEvents (d : Dev) (c : Nat) : Bool := d.loopState c == lpRunning || d.phase c == phCommit
def Dev.laterOf (d : Dev) (c : Nat) : List Event := sget (fun _ => []) d.srv.later c
def Dev.setLater (d : Dev) (c : Nat) (l : List Event) : Dev := { d with srv := { d.srv with later := sput (fun _ => []) d.srv.later c l } }

/-- The event of a change of request n (R233): with the commit that shows the change, or at once. -/
def Dev.reqEvent (d : Dev) (p n typ detail : Nat) : Dev :=
  match d.reqCtx p n with
  | some c =>
    if d.holdsEvents c then d.setLater c (d.laterOf c ++ [⟨typ, c, n, 0, 0, detail⟩]) else (d.event p typ c n 0 detail).flushEvents p
  | none => (d.event p typ 0xFF n 0 detail).flushEvents p

/-- The events that waited for a commit of context c are written with its epoch. -/
def Dev.flushLater (d : Dev) (p c epoch : Nat) : Dev :=
  (((d.laterOf c).foldl (fun (e : Dev) x => e.event p x.typ x.loop x.object epoch x.detail) d).setLater c []).flushEvents p

/-! ### Request fields -/

def Dev.rqPrio (d : Dev) (n : Nat) : Nat := d.rq n 3 1 % 8
def Dev.rqFreeze (d : Dev) (n : Nat) : Bool := bit (d.rq n 3 1) 3
def Dev.rqStopCount (d : Dev) (n : Nat) : Nat := d.rq n 3 1 / 16
def Dev.rqPrompt (d : Dev) (n : Nat) : Nat := d.rq n 4 4
def Dev.rqQp (d : Dev) (n : Nat) : Nat := d.rq n 20 2
def Dev.rqPrefix (d : Dev) (n : Nat) : Nat := d.rq n 24 8
def Dev.rqMax (d : Dev) (n : Nat) : Nat := d.rq n 36 4
def Dev.rqStops (d : Dev) (n : Nat) : List Nat := (List.range (min 8 (d.rqStopCount n))).map fun i => d.rq n (40 + 4 * i) 4
def Dev.rqOutVa (d : Dev) (n : Nat) : Nat := d.rq n 108 8
def Dev.rqOutKey (d : Dev) (n : Nat) : Nat := d.rq n 116 4
def Dev.rqOutSize (d : Dev) (n : Nat) : Nat := d.rq n 120 4
def Dev.rqCount (d : Dev) (n : Nat) : Nat := d.rq n 128 8
def Dev.rqCand (d : Dev) (n : Nat) : Nat := d.rq n 136 8
def Dev.rqGen (d : Dev) (n : Nat) : Nat := d.rq n 264 4
def Dev.rqKv (d : Dev) (n : Nat) : Nat := d.rq n 268 4
def Dev.rqTail (d : Dev) (n : Nat) : Nat := d.rq n 320 8
def Dev.rqReserved (d : Dev) (n : Nat) : Nat := d.rq n 328 4

/-- Flags of Table 7-6. -/
def flCancel : Nat := 0
def flLate : Nat := 1
def flPromoting : Nat := 2
def flFrozen : Nat := 3
def flPausedRing : Nat := 4

def Dev.dueOf (d : Dev) (n : Nat) : Nat := sget (fun _ => 0) d.srv.due n
def Dev.setDue (d : Dev) (n v : Nat) : Dev := { d with srv := { d.srv with due := sput (fun _ => 0) d.srv.due n v } }
def dueKv : Nat := 7
def dueQp : Nat := 8
def dueSuspend : Nat := 16

def Dev.headOf (d : Dev) (n : Nat) : Nat := sget (fun _ => 0) d.srv.heads n
def Dev.chainNOf (d : Dev) (n : Nat) : Nat := sget (fun _ => 0) d.srv.chainN n
def Dev.setChainN (d : Dev) (n v : Nat) : Dev := { d with srv := { d.srv with chainN := sput (fun _ => 0) d.srv.chainN n v } }
def Dev.prefixLenOf (d : Dev) (n : Nat) : Nat := sget (fun _ => 0) d.srv.prefixLen n
def Dev.promptOf (d : Dev) (n : Nat) : List Nat := sget (fun _ => []) d.srv.prompts n

/-- Records that the output ring has room for (R231). -/
def Dev.roomOf (d : Dev) (n : Nat) : Nat := d.rqOutSize n + d.headOf n - d.rqTail n
/-- Where the HEAD word of a ring lies, and a read of it. -/
def Dev.readHead (d : Dev) (n : Nat) : Dev :=
  { d.rdmaRead (d.rqQp n) (d.rqOutVa n + 16 * d.rqOutSize n) (d.rqOutKey n) 8 (.ringHead n) with
    srv := { d.srv with polledAt := sput (fun _ => 0) d.srv.polledAt n d.ps } }
/-- Is a read of a given use on its way? -/
def Dev.reading (d : Dev) (u : ReadUse) : Bool := d.qps.any fun q => q.2.reqs.any fun r => r.use == u

/-! ### Prefix handles (R222 to R224) -/

def handleVal (part gen i : Nat) : Nat := part % 16 * 2 ^ 60 + gen % 2 ^ 24 * 2 ^ 36 + i % 2 ^ 20
/-- The index of the handle with exactly that value (R223). -/
def Dev.findHandle (d : Dev) (p v : Nat) : Option Nat :=
  let i := v % 2 ^ 20
  let h := d.handle i
  if h.st != .free ∧ h.part = p ∧ v = handleVal p h.gen i then some i else none

/-- The length of a request's prefix as it stands or as its admission will give it, and its KV length (R223). -/
def Dev.prefixTokens (d : Dev) (n : Nat) : Nat :=
  if d.rqReserved n ≠ 0 then d.prefixLenOf n
  else match (if d.rqPrefix n = 0 then none else (d.partOfReq n).bind fun p => d.findHandle p (d.rqPrefix n)) with
    | some i => (d.handle i).len
    | none => 0
def Dev.kvTokens (d : Dev) (n : Nat) : Nat := if d.rqReserved n ≠ 0 then d.rqKv n else d.prefixTokens n

/-- Is a freeze due at the commit of the next step, at its furthest (R222): a prompt chunk, or a token at the greatest depth? -/
def Dev.freezeDue (d : Dev) (c n : Nat) : Bool :=
  let left := d.prefixTokens n + d.rqPrompt n - d.kvTokens n
  d.rqFreeze n && !d.rqFlag n flFrozen && d.rq n 32 4 ≤ d.kvTokens n + (if left = 0 then 1 + d.loopDepth c else min (d.loopChunk c) left)
/-- Has the ring room for the records of one step (R231)? -/
def Dev.hasRoom (d : Dev) (c n : Nat) : Bool := 1 + d.loopDepth c + b2n (d.freezeDue c n) ≤ d.roomOf n

/-- The blocks in T1 that a handle holds: during a demotion those that have not moved yet. -/
def Handle.inT1 (h : Handle) : List Nat :=
  if h.st = .demoting then (h.blocks.zipIdx.filter fun q => !h.copies.any fun z => z.1 == q.2).map (·.1) else h.blocks

def Dev.setMoving (d : Dev) (b : Nat) (m : Bool) : Dev := let x := d.blk b; d.setBlk b (mkBlk (blkT2 x) (blkFrozen x) m (blkGen x) (blkUnit x))

/-- The handle becomes FREE, its generation goes on, and its blocks lose a reference. -/
def Dev.freePrefix (d : Dev) (i : Nat) : Dev :=
  let h := d.handle i
  let d0 := (d.srv.copies.filter fun x => x.handle == i).foldl (fun (e : Dev) x => e.setMoving x.block false) d
  let d1 := h.inT1.foldl (fun (e : Dev) b => e.dropRef b) d0
  { d1.setHandle i { Handle.zero with gen := (h.gen + 1) % 2 ^ 24 } with
    srv := { (d1.setHandle i { Handle.zero with gen := (h.gen + 1) % 2 ^ 24 }).srv with copies := d1.srv.copies.filter fun x => x.handle != i } }

/-- T2 blocks of STEP_PFX_T2[p] that no copy uses, in order. -/
def Dev.freeT2 (d : Dev) (p : Nat) : List Nat :=
  let base := (d.rd (Reg.STEP_PFX_T2 p)).toNat % 2 ^ 48
  let used := d.srv.handles.flatMap fun (q : Nat × Handle) => if q.2.part = p then q.2.copies.map (·.2) else []
  let busy := d.srv.copies.filterMap fun x => if x.part = p ∧ x.toT2 then some x.dst else none
  ((List.range ((d.rd (Reg.STEP_PFX_T2N p)).toNat % 2 ^ 24)).map fun i => base + i * blockBytes).filter fun a => !used.contains a && !busy.contains a

/-! ### The end of a request (R213, R217, R233) -/

def blank : Nat := 0xFFFF
def Dev.dropSlot (d : Dev) (p n : Nat) : Dev :=
  let d1 := d.setRq n 260 2 blank
  match d.reqCtx p n with | some c => d1.setHolds c ((d1.holds c).filter fun h => h.entry != n) | none => d1

/-- The chain of a request and the unused rest of its reservation go back (R217). -/
def Dev.dropChain (d : Dev) (p n : Nat) : Dev :=
  let a := d.rq n 272 8
  let d1 := (d.chainBlocks a (d.chainNOf n)).foldl (fun (e : Dev) b => e.dropRef b) d
  let d2 := ((d1.setChainN n 0).setReserved n 0).setRq n 328 4 0
  match d.findHandle p (d.rqPrefix n) with
  | some i => if d.chainNOf n = 0 then d2 else d2.setHandle i { d2.handle i with uses := (d2.handle i).uses - 1 }
  | none => d2

/-- A request becomes terminal. -/
def Dev.endReq (d : Dev) (p n state status : Nat) : Dev :=
  let d1 := ((d.dropChain p n).dropSlot p n).setDue n 0
  let d2 := (d1.setRq n 256 1 state).setRq n 257 1 status
  d2.reqEvent p n 0x02 (state * 256 + status)

/-- A QP enters ERROR (R215): requests that name it become FAILED at the next commit; those that hold a slot, or are being admitted, by that commit itself. -/
def Dev.failQpUsers (d : Dev) (q : Nat) : Dev :=
  match d.partOfQp q with
  | some p =>
    (List.range (d.reqCount p)).foldl (fun (e : Dev) i =>
      let n := e.reqFirst p + i
      if e.rqState n != rsFree && e.rqState n < rsCompleted && e.rqQp n == q then
        if e.holdsSlot p n || e.admitting p n then (if e.dueOf n = dueKv then e else e.setDue n dueQp)
        else (e.endReq p n rsFailed 8).show p n
      else e) d
  | none => d

/-! ### Submission (R212) -/

/-- Finite, sign and zero of an FP32 code. -/
def codeFin (x : Nat) : Bool := x / 2 ^ 23 % 256 != 255
def codeNeg (x : Nat) : Bool := bit x 31
def codeZero (x : Nat) : Bool := x % 2 ^ 31 == 0
def codeOne : Nat := 0x3F800000
/-- At least 0, by value. -/
def codeNonNeg (x : Nat) : Bool := codeFin x && (!codeNeg x || codeZero x)
/-- Above 0. -/
def codePos (x : Nat) : Bool := codeFin x && !codeNeg x && !codeZero x

def isPow2 (n lo hi : Nat) : Bool := (List.range (hi + 1 - lo)).any fun i => n == 2 ^ (lo + i)

/-- Blocks that a request reserves (R217). -/
def Dev.reserveOf (d : Dev) (c n l0 : Nat) (g : Geo) : Nat :=
  g.planes * (ceilDiv (l0 + d.rqPrompt n + d.rqMax n + d.loopNodes c) g.tpb - l0 / g.tpb)

/-- Check 2: every field in its range. -/
def Dev.fieldsOk (d : Dev) (p c n : Nat) (g : Geo) : Bool :=
  1 ≤ d.rqPrompt n && 1 ≤ d.rqMax n && d.rqStopCount n ≤ 8 && d.partOfQp (d.rqQp n) == some p &&
    codeNonNeg (d.rq n 72 4) && d.rq n 76 2 ≤ 1024 && codePos (d.rq n 80 4) && d.rq n 80 4 ≤ codeOne && codeNonNeg (d.rq n 84 4) &&
    d.rq n 84 4 % 2 ^ 31 < codeOne && codePos (d.rq n 88 4) && codeFin (d.rq n 92 4) && codeFin (d.rq n 96 4) && d.rqOutVa n % 16 == 0 &&
    isPow2 (d.rqOutSize n) 4 24 && d.rqCount n % 512 == 0 && d.t1Owned p (d.rqCount n) (2 * g.vocab) &&
    (d.rqCand n == 0 || (d.rqCand n % 512 == 0 && d.t1Owned p (d.rqCand n) (16 + 8 * (d.loopNodes c - 1))))

/-- The first failing check: its number and the STATUS. -/
def Dev.submitCheck (d : Dev) (p n : Nat) : Option (Nat × Nat) :=
  match d.reqCtx p n with
  | none => some (1, 4)
  | some c =>
    match d.geo p c with
    | none => some (1, 4)
    | some g =>
      let h := d.findHandle p (d.rqPrefix n)
      let l0 := match h with | some i => if d.rqPrefix n = 0 then 0 else (d.handle i).len | none => 0
      let total := l0 + d.rqPrompt n
      if d.rf (Reg.SCHED_CTX c) Fld.SCHED_CTX_ENABLE ≠ 1 then some (1, 4)
      else if !d.fieldsOk p c n g then some (2, 4)
      else if d.loopMaxCtx c < total + d.rqMax n then some (3, 4)
      else if d.rqFreeze n ∧ (d.rq n 32 4 < 1 ∨ total < d.rq n 32 4) then some (4, 4)
      else if d.rqPrefix n ≠ 0 ∧ !(match h with
          | some i =>
            let x := d.handle i
            (x.st == .valid || x.st == .demoted) && x.digest == (d.rd (Reg.MOLT_HDIG (d.ctxHandle p c))).toNat && x.tpb == g.tpb && x.planes == g.planes
          | none => false) then some (5, 5)
      else if d.poolCount p < d.reserveOf c n l0 g then some (6, 6)
      else none

/-- A SUBMIT takes the entry: its status starts anew, before the checks of R212. -/
def Dev.submitting (d : Dev) (n : Nat) : Dev :=
  let d1 := (((d.setBytes (reqWork n + 256) (zeros 256)).setRq n 256 1 rsSubmitted).setRq n 260 2 blank).setRq n 296 8 d.sysTime.toNat
  { d1 with srv := { d1.srv with
    order := sput (fun _ => 0) d1.srv.order n d1.srv.nextOrder, nextOrder := d1.srv.nextOrder + 1, heads := sput (fun _ => 0) d1.srv.heads n 0,
    prompts := sput (fun _ => []) d1.srv.prompts n [], prefixLen := sput (fun _ => 0) d1.srv.prefixLen n 0 } }

def Dev.submit (d : Dev) (p n : Nat) : Dev :=
  let d2 := d.submitting n
  match d2.submitCheck p n with
  | some (check, status) => ((d2.setRq n 332 1 check).endReq p n rsFailed status).show p n
  | none => (d2.setRq n 256 1 rsQueued).show p n

/-- RELEASE: the entry is FREE, its status zero; the description stays. -/
def Dev.releaseReq (d : Dev) (p n : Nat) : Dev :=
  let running := d.reqRunning p n
  let d1 := d.setBytes (reqWork n + 256) (zeros 256)
  if running then d1 else d1.commitReq n

/-- CANCEL of a request: the flag, and at once the state where no commit is needed. -/
def Dev.cancelReq (d : Dev) (p n : Nat) : Dev :=
  let d1 := d.setRqFlag n flCancel true
  if d.holdsSlot p n || d.admitting p n then d1 else (d1.endReq p n rsCancelled 3).show p n

/-! ### Host access to entries (R210, R236) -/

/-- May view v see entry n: the partition's own range; the operator view all but entries of a sealed partition? -/
def Dev.mayReq (d : Dev) (v n : Nat) : Bool :=
  match d.partOfReq n with
  | some p => if v = 0 then !d.sealed p else v == p + 1
  | none => v == 0

/-- What a host read of word w shows: the copy of the last commit, or the present one of a request that waits for no commit. -/
def Dev.reqRead (d : Dev) (v n w : Nat) : Word :=
  if d.mayReq v n then
    let held := match d.partOfReq n with
      | some p => d.rqState n != rsFree && (d.reqRunning p n || d.holdsSlot p n)
      | none => false
    let old := d.num (reqComm n + 256) 1 != rsFree && d.rqState n == rsFree
    BitVec.ofNat 64 (if held || old then d.num (reqComm n + 8 * w) 8 else d.num (reqWork n + 8 * w) 8)
  else 0

/-- Bytes of word w of a description that hold fields of Table 7-5; the bytes above them are reserved and read zero (R7). -/
def reqFields (w : Nat) : Nat := if w = 2 ∨ w = 9 then 6 else if w = 15 then 4 else if w < 18 then 8 else 0

/-- REQ_DESC_WRITE: takes effect only while the entry is FREE. What is written to reserved bytes is ignored (R7). -/
def opReqDesc (v n w : Nat) (val : Word) (d : Dev) : Dev :=
  if d.mayReq v n then
    if d.rqState n = rsFree then (d.setNum (reqWork n + 8 * w) 8 (val.toNat % 2 ^ (8 * reqFields w))).commitReq n
    else d.raise { notice cHostProto 0x0B03 n with part := if v = 0 then none else some (v - 1) }
  else d

def execReqDescWrite (v : View) (n : ReqIdx) (w : Fin 32) (val : Word) (s : State) : Host.Outcome State Fault Refusal := hostDone s (Reg.REQ_ENT n w) (opReqDesc v n w val)

end Sys2Proof.Machine
end

