-- ==== Sys2Proof/Machine/HostPorts.lean ====
section
/-!
DEFINITION. The host ports (R378 to R390): Ethernet frames, queue pairs and their transitions, the requester side of RoCEv2, congestion
control, PFC and LLDP.
-/
namespace Sys2Proof.Machine

def Dev.hpState (d : Dev) (e : Nat) : Nat := d.rf (Reg.LNK_HP_STAT e) Fld.LNK_HP_STAT_STATE
/-- Roles in effect: 1 HOST, 2 STORE, 4 MGMT (Table 12-11). -/
def Dev.hpRoles (d : Dev) (e : Nat) : Nat := d.rf (Reg.LNK_HP_STAT e) Fld.LNK_HP_STAT_ROLES

/-- A persistent word as loaded at the last reset (Table 15-7, "next reset"). -/
def Dev.effWord (d : Dev) (n : Nat) : Word := sget psrShipped d.boot.eff n

/-- MAC address of view v of port e (R379). -/
def Dev.viewMac (d : Dev) (e v : Nat) : Nat := (d.effWord 2).toNat % 2 ^ 48 + 32 * e + v

/-- The partition of a view; none for the operator view. -/
def viewPart (v : Nat) : Option Nat := if v = 0 then none else some (v - 1)

/-- A refusal raised through a view: it belongs to the view's partition (R520). -/
def Dev.refuse (d : Dev) (v : Nat) (f : FaultInfo) : Dev := d.raise { f with part := viewPart v }

/-- Is a view's traffic protected by MACsec (R388)? -/
def Dev.protectedView (d : Dev) (e v : Nat) : Bool :=
  if v = 0 then d.rf (Reg.LNK_HP_CFG e) Fld.LNK_HP_CFG_MACSEC_OP == 1 else d.rf (Reg.PART_CFG (v - 1)) Fld.PART_CFG_MACSEC == 1

/-- Take n bytes of a priority into the port's receive queue; XOFF beyond 256 KiB (R387). -/
def Dev.pfcIn (d : Dev) (e prio n : Nat) : Dev :=
  if bit (d.rf (Reg.LNK_HP_CFG e) Fld.LNK_HP_CFG_PFC_EN) prio then
    let x := d.hostPort e
    let b := sget (fun _ => 0) x.backlog prio + n
    let x1 := { x with backlog := sput (fun _ => 0) x.backlog prio b }
    if 0x40000 < b ∧ !x.xoff.contains prio then (d.setHp e { x1 with xoff := prio :: x.xoff }).emit (.pfc e prio true)
    else d.setHp e x1
  else d

/-- Nothing waits any more: the queues are empty and XON follows XOFF. -/
def Dev.pfcDrain (d : Dev) : Dev :=
  (List.range 4).foldl (fun d e =>
    let x := d.hostPort e
    x.xoff.foldl (fun d q => d.emit (.pfc e q false)) (d.setHp e { x with backlog := [], xoff := [] })) d

/-- What waits on a priority goes out once its pause has ended (R387). -/
def Dev.hostRelease (d : Dev) : Dev :=
  (List.range 4).foldl (fun d e =>
    let x := d.hostPort e
    let free := fun (w : Nat × Output) => decide (sget (fun _ => 0) x.pausedTo w.1 ≤ d.ps)
    (x.waiting.filter free).foldl (fun d w => d.emit w.2) (d.setHp e { x with waiting := x.waiting.filter fun w => !free w })) d

/-- A MACsec drop: counted, and recorded at most once per port per second. -/
def Dev.macDrop (d : Dev) (e v : Nat) : Dev :=
  let d1 := d.bump (Reg.LNK_HP_MACSEC_DROP e) 1
  let x := d1.hostPort e
  let drops := d.ps :: x.macDrops.filter fun t => d.ps < t + 1000 * ms
  let fresh : Bool := match x.macAt with | some t => t + 1000 * ms ≤ d.ps | none => true
  if fresh then
    (d1.setHp e { x with macAt := some d.ps, macDrops := drops }).raise
      { notice cSecurity 0x1032 (v + drops.length * 2 ^ 16) with part := viewPart v, port := 40 + e }
  else d1.setHp e { x with macDrops := drops }

/-- Answer an ECN-CE mark with one CNP, at most once per 50 µs (R386). -/
def Dev.answerCe (d : Dev) (e q : Nat) : Dev :=
  let x := d.qp q
  let free : Bool := match x.cnpTx with | some t => t + 50 * us ≤ d.ps | none => true
  if free then (((d.setQp q { x with cnpTx := some d.ps }).bump (Reg.LNK_HP_CNP_TX e) 1).bump (Reg.LNK_HP_TX e) 1).hostOut q (.cnp q) else d

/-- A received frame (R378, R379, R387, R388). -/
def opEthernetFrame (e : Nat) (f : EthFrame) (d : Dev) : Dev :=
  if d.hpState e = 3 then
    let d1 := d.bump (Reg.LNK_HP_RX e) 1
    let drop := d1.bump (Reg.LNK_HP_DROP e) 1
    if 4352 < f.len.toNat ∨ 1 < f.tags.toNat then drop
    else
      match (List.range 17).find? (fun v => f.dst.toNat == d.viewMac e v) with
      | some v =>
        if d.rf (Reg.LNK_VIEW_CFG (17 * e + v)) Fld.LNK_VIEW_CFG_ENABLE = 0 ∨ (v ≠ 0 ∧ d.partState (v - 1) = 0) then drop
        else if d.protectedView e v ∧ !(f.secured && f.valid) then d1.macDrop e v
        else
          let d2 := d1.pfcIn e f.prio.toNat f.len.toNat
          match f.ceQp with
          | some q => d2.answerCe e q
          | none => d2
      | none => drop
  else d

/-! ### Queue pairs (R382) -/

/-- Does QP q lie in the range of view v? -/
def Dev.qpInView (d : Dev) (v q : Nat) : Bool :=
  let inPart (p : Nat) : Bool := d.rf (Reg.PART_QP p) Fld.PART_QP_FIRST ≤ q &&
    q < d.rf (Reg.PART_QP p) Fld.PART_QP_FIRST + d.rf (Reg.PART_QP p) Fld.PART_QP_COUNT
  if v = 0 then !((List.range 16).any fun p => d.partState p != 0 && inPart p) else d.partState (v - 1) != 0 && inPart (v - 1)

/-- The view that owns a QP. -/
def Dev.viewOfQp (d : Dev) (q : Nat) : Nat := ((List.range 16).find? fun p => d.qpInView (1 + p) q).elim 0 (1 + ·)

/-- Does the port's role admit the QP (R380)? -/
def Dev.roleAdmits (d : Dev) (v q : Nat) : Bool :=
  let w := d.rd (Reg.LNK_QP q 0)
  let r := d.hpRoles (fget w Fld.LNK_QP0_PORT)
  if fget w Fld.LNK_QP0_MGMT = 1 then bit r 2 && v == 0
  else bit r 0 || (bit r 1 && fget w Fld.LNK_QP0_LOADER == 1)

def Dev.setQpState (d : Dev) (q n : Nat) : Dev := d.wf (Reg.LNK_QP q 0) Fld.LNK_QP0_STATE n
def Dev.qpRefused (d : Dev) (v q : Nat) : Dev := d.refuse v (notice cHostProto 0x1012 q)

/-- A QP enters ERROR with a cause (Table 12-11): what it had outstanding is dropped. -/
def Dev.qpError (d : Dev) (q cause : Nat) : Dev :=
  (((d.setQpState q 4).wf (Reg.LNK_QP q 0) Fld.LNK_QP0_CAUSE cause).setQp q QpSt.zero).failQpUsers q

def opQpToInit (v q : Nat) (d : Dev) : Dev :=
  if d.qpState q = 0 ∧ d.qpInView v q ∧ d.roleAdmits v q then d.setQpState q 1 else d.qpRefused v q

def opQpToRtr (v q : Nat) (d : Dev) : Dev :=
  if d.qpState q = 1 ∧ d.qpInView v q then d.setQpState q 2 else d.qpRefused v q

/-- RTR to RTS: the send PSN starts at SQ_PSN and the rate at 400 Gb/s. -/
def opQpToRts (v q : Nat) (d : Dev) : Dev :=
  if d.qpState q = 2 ∧ d.qpInView v q then
    ((d.setQpState q 3).wf (Reg.LNK_QP q 6) Fld.LNK_QP6_RATE 400).setQp q
      { QpSt.zero with psn := d.rf (Reg.LNK_QP q 1) Fld.LNK_QP1_SQ_PSN }
  else d.qpRefused v q

def opQpToReset (v q : Nat) (d : Dev) : Dev :=
  if d.qpInView v q then ((d.setQpState q 0).wf (Reg.LNK_QP q 0) Fld.LNK_QP0_CAUSE 0).setQp q QpSt.zero else d.qpRefused v q

def opQpToError (v q : Nat) (d : Dev) : Dev := if d.qpInView v q then d.qpError q 0 else d.qpRefused v q

/-! ### The requester (R381) -/

/-- Send every outstanding operation again, oldest first (go-back-N). -/
def Dev.goBack (d : Dev) (q : Nat) : Dev :=
  let x := d.qp q
  let rs := x.reqs.map fun (r : QpReq) => if r.sent then { r with at_ := d.ps, tries := r.tries + 1 } else r
  let d1 := d.setQp q { x with reqs := rs }
  let e := d.rf (Reg.LNK_QP q 0) Fld.LNK_QP0_PORT
  (rs.filter (·.sent)).foldl (fun d r =>
    let k := if r.op = 1 then 1 else qpPackets r.len
    ((d.addf (Reg.LNK_QP q 7) Fld.LNK_QP7_PKTS k).bump (Reg.LNK_HP_TX e) k).hostOut q (.rdma q r)) d1

/-- READs that waited for the limit of 16 go out as room appears. -/
def Dev.openReads (q : Nat) : Nat → Dev → Dev
  | 0, d => d
  | n + 1, d =>
    let x := d.qp q
    if x.reads < 16 then
      match x.reqs.find? (fun r => !r.sent) with
      | some r =>
        let r' := { r with sent := true, at_ := d.ps }
        let e := d.rf (Reg.LNK_QP q 0) Fld.LNK_QP0_PORT
        Dev.openReads q n ((((d.setQp q { x with reqs := x.reqs.map fun (t : QpReq) => if t = r then r' else t }).addf (Reg.LNK_QP q 7)
          Fld.LNK_QP7_PKTS 1).bump (Reg.LNK_HP_TX e) 1).hostOut q (.rdma q r'))
      | none => d
    else d

/-- Is PSN a covered by an acknowledgement of b, modulo 2^24? -/
def psnCovered (a b : Nat) : Bool := (b + 2 ^ 24 - a) % 2 ^ 24 < 2 ^ 23

/-- An acknowledgement retires the WRITEs and SENDs it covers; a covered READ has been taken, and its data is to come. -/
def opRdmaAck (q psn : Nat) (d : Dev) : Dev :=
  if d.qpRts q then
    let x := d.qp q
    d.setQp q { x with
      reqs := (x.reqs.filter fun r => r.op == 1 || !(r.sent && psnCovered r.psn psn)).map fun (r : QpReq) =>
        if r.sent && psnCovered r.psn psn then { r with at_ := d.ps, tries := 0 } else r }
  else d

/-- A NAK: a sequence error or RNR is retried within the QP's counts, the others put the QP in ERROR. -/
def opRdmaNak (q : Nat) (n : NakKind) (d : Dev) : Dev :=
  if d.qpRts q then
    let tries := match (d.qp q).reqs.head? with | some r => r.tries | none => 0
    match n with
    | .sequence => if d.rf (Reg.LNK_QP q 2) Fld.LNK_QP2_RETRY ≤ tries then d.qpError q 1 else d.goBack q
    | .rnr => if d.rf (Reg.LNK_QP q 2) Fld.LNK_QP2_RNR_RETRY ≤ tries then d.qpError q 4 else d.goBack q
    | .access => d.qpError q 2
    | .invalid => d.qpError q 3
    | .operation => d.qpError q 3
  else d

/-- The transport timeout of 4.096 µs × 2^TIMEOUT since the oldest outstanding operation was sent. -/
def opRdmaRetryTimeout (q : Nat) (d : Dev) : Dev :=
  match (d.qp q).reqs.find? (·.sent) with
  | some r =>
    if d.qpRts q ∧ r.at_ + 4096 * ns * 2 ^ d.rf (Reg.LNK_QP q 2) Fld.LNK_QP2_TIMEOUT ≤ d.ps then
      if d.rf (Reg.LNK_QP q 2) Fld.LNK_QP2_RETRY ≤ r.tries then d.qpError q 1 else d.goBack q
    else d
  | none => d

/-- Answer a requester with n packets. -/
def Dev.answer (d : Dev) (q n : Nat) (o : Output) : Dev :=
  ((d.addf (Reg.LNK_QP q 7) Fld.LNK_QP7_PKTS n).bump (Reg.LNK_HP_TX (d.rf (Reg.LNK_QP q 0) Fld.LNK_QP0_PORT)) n).hostOut q o

/-- A SEND is delivered to firmware on a MGMT QP, and answered with the NAK for an invalid request on any other. -/
def opSend (q : Nat) (data : List Byte) (d : Dev) : Dev :=
  if d.qpState q = 2 ∨ d.qpState q = 3 then
    if d.rf (Reg.LNK_QP q 0) Fld.LNK_QP0_MGMT = 1 then d.note "SEND" (q :: data.map fun (b : Byte) => b.toNat)
    else d.answer q 1 (.rdmaNak q .invalid)
  else d

/-- A CNP halves the rate, down to 1 Gb/s and at most once per 50 µs (R386). -/
def opCnp (q : Nat) (d : Dev) : Dev :=
  if d.qpRts q then
    let e := d.rf (Reg.LNK_QP q 0) Fld.LNK_QP0_PORT
    let x := d.qp q
    let d1 := d.bump (Reg.LNK_HP_CNP_RX e) 1
    let free : Bool := match x.cnpRx with | some t => t + 50 * us ≤ d.ps | none => true
    if free then
      (d1.setQp q { x with cnpRx := some d.ps, rateAt := d.ps }).wf (Reg.LNK_QP q 6) Fld.LNK_QP6_RATE
        (max 1 (d.rf (Reg.LNK_QP q 6) Fld.LNK_QP6_RATE / 2))
    else d1.setQp q { x with rateAt := d.ps }
  else d

def opRateIncrease (q : Nat) (d : Dev) : Dev :=
  let x := d.qp q
  if d.qpRts q ∧ x.rateAt + 55 * us ≤ d.ps then
    (d.setQp q { x with rateAt := d.ps }).wf (Reg.LNK_QP q 6) Fld.LNK_QP6_RATE (min 400 (d.rf (Reg.LNK_QP q 6) Fld.LNK_QP6_RATE + 5))
  else d

/-- A received pause: each named priority on which PFC is enabled is quiet for that many quanta of 512 bit times at 400 Gb/s (R387). -/
def opPauseFrame (e prios quanta : Nat) (d : Dev) : Dev :=
  if d.hpState e = 3 then
    let x := d.hostPort e
    d.setHp e { x with
      pausedTo := (filterBelow 8 fun i => bit prios i && bit (d.rf (Reg.LNK_HP_CFG e) Fld.LNK_HP_CFG_PFC_EN) i).foldl (fun m i => sput (fun _ => 0) m i (d.ps + quanta * 1280)) x.pausedTo }
  else d

def opLldpTimer (e : Nat) (d : Dev) : Dev :=
  let x := d.hostPort e
  if d.hpState e = 3 ∧ x.lldpAt + 30000 * ms ≤ d.ps then
    ((d.setHp e { x with lldpAt := d.ps }).bump (Reg.LNK_HP_TX e) 1).emit (.lldp e (d.viewMac e 0))
  else d

def opLldpdu (e chassis port : Nat) (d : Dev) : Dev :=
  if d.hpState e = 3 then (d.bump (Reg.LNK_HP_RX e) 1).wr (Reg.LNK_HP_PEER e) (BitVec.ofNat 64 (port * 2 ^ 48 + chassis)) else d

/-- A port may come up with a role, unless it is disabled; before the main rails are on only a MGMT port does (R17, R380). -/
def opHostPortUp (e : Nat) (d : Dev) : Dev :=
  if d.hpRoles e ≠ 0 ∧ d.rf (Reg.LNK_HP_CFG e) Fld.LNK_HP_CFG_DISABLE = 0 ∧ (d.mainOn ∨ bit (d.hpRoles e) 2) then
    d.wf (Reg.LNK_HP_STAT e) Fld.LNK_HP_STAT_STATE 3
  else d

def opHostPortDown (e : Nat) (d : Dev) : Dev :=
  if d.hpState e = 3 ∨ d.hpState e = 1 then d.wf (Reg.LNK_HP_STAT e) Fld.LNK_HP_STAT_STATE 0 else d

/-! ### The commands -/

def execEthernetFrame (e : HostPort) (f : EthFrame) (s : State) : Host.Outcome State Fault Refusal := done s (opEthernetFrame e f s.dev)
def execSendMsg (q : QpIdx) (b : List Byte) (s : State) : Host.Outcome State Fault Refusal := done s (opSend q b s.dev)
def execRdmaAck (q : QpIdx) (psn : BitVec 24) (s : State) : Host.Outcome State Fault Refusal := done s (opRdmaAck q psn.toNat s.dev)
def execRdmaNak (q : QpIdx) (n : NakKind) (s : State) : Host.Outcome State Fault Refusal := done s (opRdmaNak q n s.dev)
def execRdmaRetryTimeout (q : QpIdx) (s : State) : Host.Outcome State Fault Refusal := done s (opRdmaRetryTimeout q s.dev)
def execCnp (q : QpIdx) (s : State) : Host.Outcome State Fault Refusal := done s (opCnp q s.dev)
def execRateIncreaseTimer (q : QpIdx) (s : State) : Host.Outcome State Fault Refusal := done s (opRateIncrease q s.dev)
def execPauseFrame (e : HostPort) (p : BitVec 8) (n : BitVec 16) (s : State) : Host.Outcome State Fault Refusal :=
  done s (opPauseFrame e p.toNat n.toNat s.dev)
def execLldpTimer (e : HostPort) (s : State) : Host.Outcome State Fault Refusal := done s (opLldpTimer e s.dev)
def execLldpdu (e : HostPort) (c : BitVec 48) (p : BitVec 16) (s : State) : Host.Outcome State Fault Refusal :=
  done s (opLldpdu e c.toNat p.toNat s.dev)
def execQpToInit (v : View) (q : QpIdx) (s : State) : Host.Outcome State Fault Refusal := hostDone s (Reg.LNK_QP q 0) (opQpToInit v q)
def execQpToRtr (v : View) (q : QpIdx) (s : State) : Host.Outcome State Fault Refusal := hostDone s (Reg.LNK_QP q 0) (opQpToRtr v q)
def execQpToRts (v : View) (q : QpIdx) (s : State) : Host.Outcome State Fault Refusal := hostDone s (Reg.LNK_QP q 0) (opQpToRts v q)
def execQpToReset (v : View) (q : QpIdx) (s : State) : Host.Outcome State Fault Refusal := hostDone s (Reg.LNK_QP q 0) (opQpToReset v q)
def execQpToError (v : View) (q : QpIdx) (s : State) : Host.Outcome State Fault Refusal := hostDone s (Reg.LNK_QP q 0) (opQpToError v q)
def execHostPortUp (e : HostPort) (s : State) : Host.Outcome State Fault Refusal := done s (opHostPortUp e s.dev)
def execHostPortDown (e : HostPort) (s : State) : Host.Outcome State Fault Refusal := done s (opHostPortDown e s.dev)

end Sys2Proof.Machine
end

