-- ==== Sys2Proof/Machine/Acct.lean ====
section
/-!
DEFINITION. Accounting (R312 to R314): records of clients and partitions, the charge of a commit, its undoing (R244), and the commands RELEASE and ZERO.
-/
namespace Sys2Proof.Machine

/-- Word w of record i: client records are 0 to 4,095, the partition record of p is 4,096 + p. -/
def acctOff (i w : Nat) : Nat := if i < 4096 then Reg.ACCT_REC i w else Reg.ACCT_PART (i - 4096) w

/-- The key word of a record of partition p. -/
def acctKey (p client : Nat) : Nat := 2 ^ 63 + p % 16 * 2 ^ 48 + client % 65536

/-- Add amounts to the words of a record: one change. -/
def Dev.acctAdd (d : Dev) (i : Nat) (vals : List (Nat × Nat)) : Dev :=
  if vals.all fun q => q.2 == 0 then d
  else
    let d1 := if 4096 ≤ i then d.wr (acctOff i 0) (BitVec.ofNat 64 (acctKey (i - 4096) 0xFFFF)) else d
    (vals.foldl (fun (e : Dev) q => e.addf (acctOff i q.1) cnt64 q.2) d1).addf (acctOff i 1) cnt64 1

/-- The record of a pair, and the lowest free one. -/
def Dev.acctFind (d : Dev) (p client : Nat) : Option Nat := (List.range 4096).find? fun i => (d.rd (acctOff i 0)).toNat == acctKey p client
def Dev.acctFree (d : Dev) : Option Nat := (List.range 4096).find? fun i => (d.rd (acctOff i 0)).toNat < 2 ^ 63

/-- The record that a charge to a client goes to, and the device once it exists: its own, the lowest free one, or the partition's. -/
def Dev.acctRecord (d : Dev) (p client : Nat) : Nat × Dev :=
  match d.acctFind p client with
  | some i => (i, d)
  | none =>
    match d.acctFree with
    | some i => (i, (d.wr (acctOff i 0) (BitVec.ofNat 64 (acctKey p client))).addf Reg.ACCT_USED Fld.ACCT_USED_USED 1)
    | none => (4096 + p, d.addf Reg.ACCT_USED Fld.ACCT_USED_OVERFLOW 1)

/-- A slot that computed: slot, client and NEW tokens. -/
structure SlotShare where
  slot : Nat
  client : Nat
  new : Nat
  deriving DecidableEq, Repr

/-- The part of a total that slot s gets (R313): in proportion to its tokens, the remainder to the slot with the lowest index. -/
def sharePart (total : Nat) (ss : List SlotShare) (s : SlotShare) : Nat :=
  let n := ss.foldl (fun a q => a + q.new) 0
  let lowest := ss.all fun q => s.slot ≤ q.slot
  total * s.new / n + (if lowest then total - ss.foldl (fun a q => a + total * q.new / n) 0 else 0)

/-- Counter totals of an activity list, energy in whole µJ. -/
def actTotals (l : List Nat) : List Nat := (List.range 7).map fun j => if j = aEnergy then l.getD j 0 / 1000 else l.getD j 0
/-- What is left of an activity list after a charge: the fraction of a µJ. -/
def actRest (l : List Nat) : List Nat := if l.getD aEnergy 0 % 1000 = 0 then [] else [0, 0, 0, 0, 0, 0, l.getD aEnergy 0 % 1000]

/-- What the clients of a commit are charged: client, commits, tokens and counters. -/
def clientCharges (ss : List SlotShare) (totals : List Nat) : List (Nat × List (Nat × Nat)) :=
  let clients := ss.foldl (fun (a : List Nat) s => if a.contains s.client then a else a ++ [s.client]) []
  clients.map fun c =>
    let mine := ss.filter fun s => s.client == c
    (c, (2, 1) :: (3, mine.foldl (fun a s => a + s.new) 0) ::
      (List.range 7).map fun j => (4 + j, mine.foldl (fun a s => a + sharePart (totals.getD j 0) ss s) 0))

/-- Charge the partition record with the activity of a key. -/
def Dev.chargePart (d : Dev) (p k commits : Nat) : Dev :=
  let l := d.activity k
  let t := actTotals l
  (d.acctAdd (4096 + p) ((2, commits) :: (List.range 7).map fun j => (4 + j, t.getD j 0))).setActivity k (actRest l)

/-- The charge of a commit of context c (R313). Activity between attempts goes to the partition record. -/
def Dev.chargeCommit (d : Dev) (p c : Nat) (ss : List SlotShare) : Dev :=
  let d0 := d.chargePart p (64 + p) 0
  let l := d0.activity c
  if ss.isEmpty then
    let t := actTotals l
    let d1 := d0.chargePart p c 1
    { d1 with sch := { d1.sch with
      undo := sput (fun _ => []) d1.sch.undo c ((4096 + p, 2, 1) :: (List.range 7).map fun j => (4096 + p, 4 + j, t.getD j 0)), undoAct := sput (fun _ => []) d1.sch.undoAct c l } }
  else
    let r := (clientCharges ss (actTotals l)).foldl (fun (a : Dev × List (Nat × Nat × Nat)) q =>
      let z := a.1.acctRecord p q.1
      (z.2.acctAdd z.1 q.2, a.2 ++ q.2.map fun v => (z.1, v.1, v.2))) (d0, [])
    let d1 := r.1.setActivity c (actRest l)
    { d1 with sch := { d1.sch with undo := sput (fun _ => []) d1.sch.undo c r.2, undoAct := sput (fun _ => []) d1.sch.undoAct c l } }

/-- A member undoes the charges of a commit that the lead does not name (R244): the amounts leave the records, the activity is gathered again. -/
def Dev.undoCharge (d : Dev) (c : Nat) : Dev :=
  let us := sget (fun _ => []) d.sch.undo c
  let l := sget (fun _ => []) d.sch.undoAct c
  let recs := us.foldl (fun (a : List Nat) u => if a.contains u.1 then a else a ++ [u.1]) []
  let d1 := us.foldl (fun (e : Dev) u => e.wf (acctOff u.1 u.2.1) cnt64 (e.rf (acctOff u.1 u.2.1) cnt64 - u.2.2)) d
  let d2 := recs.foldl (fun (e : Dev) i => e.addf (acctOff i 1) cnt64 1) d1
  let d3 := d2.setActivity c ((List.range 7).map fun j => (d.activity c).getD j 0 + l.getD j 0)
  { d3 with sch := { d3.sch with undo := sput (fun _ => []) d3.sch.undo c [], undoAct := sput (fun _ => []) d3.sch.undoAct c [] } }

/-- A loader job of p that has ended is charged to the partition record: bytes of T1, T2 and host ports. -/
def Dev.chargeJob (d : Dev) (p t1 t2 host : Nat) : Dev := d.acctAdd (4096 + p) [(5, t1), (6, t2), (9, host)]

/-! ### Commands (R314) -/

/-- May view v command record i: the operator view, or the view of the record's partition? -/
def Dev.mayAcct (d : Dev) (v i : Nat) : Bool :=
  if v = 0 then i < 4112
  else if i < 4096 then 2 ^ 63 ≤ (d.rd (acctOff i 0)).toNat && (d.rd (acctOff i 0)).toNat / 2 ^ 48 % 16 + 1 == v
  else i == 4096 + (v - 1)

def Dev.acctResult (d : Dev) (i r : Nat) : Dev :=
  d.upd [(Reg.ACCT_CMD, Fld.ACCT_CMD_INDEX, i), (Reg.ACCT_CMD, Fld.ACCT_CMD_RESULT, r), (Reg.ACCT_CMD, Fld.ACCT_CMD_OP, 0)]

def acctDone : Nat := 2
def acctRefused : Nat := 3

def Dev.clearWords (d : Dev) (i lo : Nat) : Dev := (List.range (16 - lo)).foldl (fun (e : Dev) w => e.wr (acctOff i (lo + w)) 0) d

/-- ACCT_RELEASE: a client record is zeroed and freed. -/
def opAcctRelease (v i : Nat) (d : Dev) : Dev :=
  if i < 4096 ∧ d.mayAcct v i then
    let used := 2 ^ 63 ≤ (d.rd (acctOff i 0)).toNat
    let d1 := if used then d.wf Reg.ACCT_USED Fld.ACCT_USED_USED (d.rf Reg.ACCT_USED Fld.ACCT_USED_USED - 1) else d
    (d1.clearWords i 0).acctResult i acctDone
  else d.acctResult i acctRefused

/-- ACCT_ZERO: words 1 to 15 are cleared, the key stays. -/
def opAcctZero (v i : Nat) (d : Dev) : Dev :=
  if d.mayAcct v i then (d.clearWords i 1).acctResult i acctDone else d.acctResult i acctRefused

def execAcctRelease (v : View) (i : BitVec 13) (s : State) : Host.Outcome State Fault Refusal := hostDone s Reg.ACCT_CMD (opAcctRelease v i.toNat)
def execAcctZero (v : View) (i : BitVec 13) (s : State) : Host.Outcome State Fault Refusal := hostDone s Reg.ACCT_CMD (opAcctZero v i.toNat)

end Sys2Proof.Machine
end

