-- ==== Sys2Proof/Machine/Fp.lean ====
section
/-!
DEFINITION. Numbers and arithmetic of the cell (chapter 03): formats and codes (R67 to R70), rounding to nearest even, the vector unit's
scalar operations (R86, R87), conversions (R72, R73), grain results (R78, R79), the canonical tree (R80) and the special functions (R91).
A finite value is held exactly as a sign, a natural magnitude and a power of two, so every operation is exact until its one rounding.
-/
namespace Sys2Proof.Machine

/-- An exact value: NaN, an infinity, or (−1)^neg × m × 2^e. -/
inductive Fp where
  | nan
  | inf (neg : Bool)
  | fin (neg : Bool) (m : Nat) (e : Int)
  deriving DecidableEq, Repr

/-- Which codes of a format are special (Table 3-2). -/
inductive Specials where
  | ieee | e4m3 | none
  deriving DecidableEq, Repr

/-- A floating-point format: exponent bits, mantissa bits, bias and special codes (Table 3-2). -/
structure Fmt where
  eb : Nat
  mb : Nat
  bias : Nat
  sp : Specials
  deriving DecidableEq, Repr

def fmtFP32 : Fmt := ⟨8, 23, 127, .ieee⟩
def fmtBF16 : Fmt := ⟨8, 7, 127, .ieee⟩
def fmtFP16 : Fmt := ⟨5, 10, 15, .ieee⟩
def fmtE4M3 : Fmt := ⟨4, 3, 7, .e4m3⟩
def fmtE5M2 : Fmt := ⟨5, 2, 15, .ieee⟩
def fmtE3M2 : Fmt := ⟨3, 2, 3, .none⟩
def fmtE2M3 : Fmt := ⟨2, 3, 1, .none⟩
def fmtE2M1 : Fmt := ⟨2, 1, 1, .none⟩

/-- The value of a code (R68). -/
def fpDecode (f : Fmt) (x : Nat) : Fp :=
  let m := x % 2 ^ f.mb
  let e := x / 2 ^ f.mb % 2 ^ f.eb
  let neg := x / 2 ^ (f.mb + f.eb) % 2 == 1
  let top := 2 ^ f.eb - 1
  if f.sp = .ieee ∧ e = top then (if m = 0 then .inf neg else .nan)
  else if f.sp = .e4m3 ∧ e = top ∧ m = 2 ^ f.mb - 1 then .nan
  else if e = 0 then .fin neg m (1 - (f.bias : Int) - f.mb)
  else .fin neg (2 ^ f.mb + m) ((e : Int) - f.bias - f.mb)

/-- m ÷ 2^k rounded to the nearest integer, ties to even (R70). -/
def rneShift (m k : Nat) : Nat :=
  if k = 0 then m
  else
    let q := m / 2 ^ k
    let r := m % 2 ^ k
    let half := 2 ^ (k - 1)
    if half < r ∨ (r = half ∧ q % 2 = 1) then q + 1 else q

/-- The magnitude code of m × 2^e rounded once to a format, before any overflow is dealt with (R70): the step count of its binade times
2^mb plus the rounded significand, so that a carry out of the significand moves into the exponent. -/
def roundMag (f : Fmt) (m : Nat) (e : Int) : Nat :=
  if m = 0 then 0
  else
    let emin : Int := 1 - (f.bias : Int) - f.mb
    let q : Int := max ((Nat.log2 m : Int) + e - f.mb) emin
    let n := if q ≤ e then m * 2 ^ (e - q).toNat else rneShift m (q - e).toNat
    (q - emin).toNat * 2 ^ f.mb + n

/-- The canonical NaN of a format (R69). -/
def canonNaN (f : Fmt) : Nat :=
  match f.sp with
  | .ieee => (2 ^ f.eb - 1) * 2 ^ f.mb + 2 ^ (f.mb - 1)
  | .e4m3 => 2 ^ (f.eb + f.mb) - 1
  | .none => 0

/-- The code of the largest finite magnitude (Table 3-2). -/
def maxFinite (f : Fmt) : Nat :=
  match f.sp with
  | .ieee => (2 ^ f.eb - 1) * 2 ^ f.mb - 1
  | .e4m3 => 2 ^ (f.eb + f.mb) - 2
  | .none => 2 ^ (f.eb + f.mb) - 1

/-- The code of a rounded value; beyond the largest finite value an IEEE format gives an infinity of its sign (R70). -/
def fpRound (f : Fmt) : Fp → Nat
  | .nan => canonNaN f
  | .inf neg => (if neg then 2 ^ (f.eb + f.mb) else 0) + (2 ^ f.eb - 1) * 2 ^ f.mb
  | .fin neg m e => (if neg then 2 ^ (f.eb + f.mb) else 0) + min (roundMag f m e) (maxFinite f + 1)

/-- The code of a value rounded into an MX element format: a magnitude above the largest finite one becomes it (R72 step 4). -/
def fpRoundSat (f : Fmt) : Fp → Nat
  | .fin neg m e => (if neg then 2 ^ (f.eb + f.mb) else 0) + min (roundMag f m e) (maxFinite f)
  | _ => maxFinite f

/-- The exact sum of two finite magnitudes as a signed integer at the lower exponent. -/
def fpAdd : Fp → Fp → Fp
  | .nan, _ => .nan
  | _, .nan => .nan
  | .inf a, .inf b => if a = b then .inf a else .nan
  | .inf a, _ => .inf a
  | _, .inf b => .inf b
  | .fin n1 m1 e1, .fin n2 m2 e2 =>
    let e := min e1 e2
    let a := m1 * 2 ^ (e1 - e).toNat
    let b := m2 * 2 ^ (e2 - e).toNat
    if n1 = n2 then .fin n1 (a + b) e
    else if a = b then .fin false 0 e
    else if b < a then .fin n1 (a - b) e
    else .fin n2 (b - a) e

/-- The exact product. -/
def fpMul : Fp → Fp → Fp
  | .nan, _ => .nan
  | _, .nan => .nan
  | .inf a, .inf b => .inf (a != b)
  | .inf a, .fin b m _ => if m = 0 then .nan else .inf (a != b)
  | .fin a m _, .inf b => if m = 0 then .nan else .inf (a != b)
  | .fin a m e, .fin b n k => .fin (a != b) (m * n) (e + k)

def fpNeg : Fp → Fp
  | .nan => .nan
  | .inf a => .inf (!a)
  | .fin a m e => .fin (!a) m e

def fpAbs : Fp → Fp
  | .nan => .nan
  | .inf _ => .inf false
  | .fin _ m e => .fin false m e

/-- Is the value zero? -/
def fpIsZero : Fp → Bool
  | .fin _ m _ => m == 0
  | _ => false

/-- a < b for values that are not NaN; a NaN operand gives false (R87). -/
def fpLt : Fp → Fp → Bool
  | .nan, _ => false
  | _, .nan => false
  | .inf a, .inf b => a && !b
  | .inf a, _ => a
  | _, .inf b => !b
  | .fin n1 m1 e1, .fin n2 m2 e2 =>
    let e := min e1 e2
    let a : Int := m1 * 2 ^ (e1 - e).toNat
    let b : Int := m2 * 2 ^ (e2 - e).toNat
    (if n1 then -a else a) < (if n2 then -b else b)

/-- a = b; a NaN operand gives false, and the two zeros are equal (R87). -/
def fpEq (a b : Fp) : Bool :=
  match a, b with
  | .nan, _ => false
  | _, .nan => false
  | a, b => !fpLt a b && !fpLt b a

def fpSign : Fp → Bool
  | .nan => false
  | .inf a => a
  | .fin a _ _ => a

/-- MAX of R87: NaN wins, and MAX(+0, −0) is +0 in either order. -/
def fpMax (a b : Fp) : Fp :=
  match a, b with
  | .nan, _ => .nan
  | _, .nan => .nan
  | a, b => if fpLt a b then b else if fpLt b a then a else if fpSign a then b else a

/-- MIN of R87: NaN wins, and MIN(+0, −0) is −0 in either order. -/
def fpMin (a b : Fp) : Fp :=
  match a, b with
  | .nan, _ => .nan
  | _, .nan => .nan
  | a, b => if fpLt a b then a else if fpLt b a then b else if fpSign a then a else b

/-- n ÷ d × 2^e as an exact value with a sticky bit, precise enough for one rounding to any format here. -/
def fpQuot (neg : Bool) (n d : Nat) (e : Int) : Fp :=
  if n = 0 then .fin neg 0 0
  else
    let s := 64 + Nat.log2 d
    let q := n * 2 ^ s / d
    let r := n * 2 ^ s % d
    .fin neg (2 * q + (if r = 0 then 0 else 1)) (e - s - 1)

/-! ### FP32 and BF16 codes -/

def f32 (x : W32) : Fp := fpDecode fmtFP32 x.toNat
def toF32 (v : Fp) : W32 := BitVec.ofNat 32 (fpRound fmtFP32 v)
def bf16 (x : BitVec 16) : Fp := fpDecode fmtBF16 x.toNat
def toBF16 (v : Fp) : BitVec 16 := BitVec.ofNat 16 (fpRound fmtBF16 v)

/-- IEEE binary32 addition with the canonical NaN (R69, R70); the left operand carries the lower indices in a tree (R80). -/
def f32Add (a b : W32) : W32 := toF32 (fpAdd (f32 a) (f32 b))
def f32Sub (a b : W32) : W32 := toF32 (fpAdd (f32 a) (fpNeg (f32 b)))
def f32Mul (a b : W32) : W32 := toF32 (fpMul (f32 a) (f32 b))
/-- a × b + c computed exactly and rounded once (R86). -/
def f32Fma (a b c : W32) : W32 := toF32 (fpAdd (fpMul (f32 a) (f32 b)) (f32 c))
def f32Neg (a : W32) : W32 := toF32 (fpNeg (f32 a))
def f32Abs (a : W32) : W32 := toF32 (fpAbs (f32 a))
def f32Max (a b : W32) : W32 := toF32 (fpMax (f32 a) (f32 b))
def f32Min (a b : W32) : W32 := toF32 (fpMin (f32 a) (f32 b))

/-- The condition codes of CMP, in the order EQ, NE, LT, GE (R141). -/
inductive Cond where
  | eq | ne | lt | ge
  deriving DecidableEq, Repr

def condOf (n : Nat) : Cond :=
  match n % 4 with
  | 0 => .eq
  | 1 => .ne
  | 2 => .lt
  | _ => .ge

/-- A compare under IEEE 754: a NaN operand makes every compare false except NE (R87). -/
def fpCmp (c : Cond) (a b : Fp) : Bool :=
  match c with
  | .eq => fpEq a b
  | .ne => !fpEq a b
  | .lt => fpLt a b
  | .ge => fpLt b a || fpEq a b

def intCmp (c : Cond) (a b : Int) : Bool :=
  match c with
  | .eq => a == b
  | .ne => a != b
  | .lt => a < b
  | .ge => b ≤ a

/-- CMP writes all ones for true and 0 for false (R87). -/
def maskOf (b : Bool) : W32 := if b then 0xFFFFFFFF#32 else 0#32

/-- One operation on the two packed BF16 lanes of an element, each rounded once (R86). -/
def bf16Lanes (f : Fp → Fp → Fp) (a b : W32) : W32 :=
  (toBF16 (f (bf16 (a.extractLsb' 16 16)) (bf16 (b.extractLsb' 16 16)))) ++
  (toBF16 (f (bf16 (a.extractLsb' 0 16)) (bf16 (b.extractLsb' 0 16))))

def bf16Fma (a b c : W32) : W32 :=
  let lane := fun (i : Nat) => toBF16 (fpAdd (fpMul (bf16 (a.extractLsb' i 16)) (bf16 (b.extractLsb' i 16))) (bf16 (c.extractLsb' i 16)))
  lane 16 ++ lane 0

/-- INT32 minimum and maximum in two's complement. -/
def i32Min (a b : W32) : W32 := if a.toInt ≤ b.toInt then a else b
def i32Max (a b : W32) : W32 := if a.toInt ≤ b.toInt then b else a

/-- Saturating UINT16 addition of bits [15:0]; bits [31:16] of the result are zero (Table 3-8). -/
def u16Adds (a b : W32) : W32 := BitVec.ofNat 32 (min 65535 (a.toNat % 65536 + b.toNat % 65536))

/-! ### Conversions (Table 3-4 and R72) -/

/-- Round to the nearest integer, ties to even. -/
def fpToInt : Fp → Int
  | .fin neg m e =>
    let n : Int := if 0 ≤ e then (m * 2 ^ e.toNat : Nat) else (rneShift m (-e).toNat : Nat)
    if neg then -n else n
  | _ => 0

/-- Saturate into lo .. hi; NaN gives 0 (Table 3-4). -/
def fpToIntSat (lo hi : Int) : Fp → Int
  | .nan => 0
  | .inf neg => if neg then lo else hi
  | v => max lo (min hi (fpToInt v))

def cvtToInt32 (x : W32) : W32 := BitVec.ofInt 32 (fpToIntSat (-2147483648) 2147483647 (f32 x))
def cvtToUint16 (x : W32) : W32 := BitVec.ofInt 32 (fpToIntSat 0 65535 (f32 x))
def cvtFromInt32 (x : W32) : W32 := toF32 (.fin (x.toInt < 0) x.toInt.natAbs 0)

/-- The element formats of the MX family (Table 3-3): code, floating-point format or MXINT8, and emax. -/
structure MxFmt where
  fp : Option Fmt
  w : Nat
  emax : Int
  deriving DecidableEq, Repr

/-- The MX format of a format code (Tables 3-1 and 3-3). -/
def mxFmt (code : Nat) : Option MxFmt :=
  if code = 0x10 then some ⟨some fmtE4M3, 8, 8⟩
  else if code = 0x11 then some ⟨some fmtE5M2, 8, 15⟩
  else if code = 0x12 then some ⟨some fmtE3M2, 6, 4⟩
  else if code = 0x13 then some ⟨some fmtE2M3, 6, 2⟩
  else if code = 0x14 then some ⟨some fmtE2M1, 4, 2⟩
  else if code = 0x18 then some ⟨none, 8, 0⟩
  else none

/-- The value of an MX element code, before its block's scale (R68). -/
def mxElem (f : MxFmt) (x : Nat) : Fp :=
  match f.fp with
  | some g => fpDecode g x
  | none => let k := (BitVec.ofNat 8 x).toInt; .fin (k < 0) k.natAbs (-6)

/-- Multiply by 2^k exactly. -/
def fpScale (k : Int) : Fp → Fp
  | .fin neg m e => .fin neg m (e + k)
  | v => v

/-- Element value times its block's scale; a scale of 0xFF makes every element NaN (R71). -/
def mxValue (f : MxFmt) (scale x : Nat) : Fp :=
  if scale = 0xFF then .nan else fpScale ((scale : Int) - 127) (mxElem f x)

/-- floor(log2 |v|) of a nonzero finite value. -/
def fpLog2 : Fp → Int
  | .fin _ m e => (Nat.log2 m : Int) + e
  | _ => 0

def fpFinite : Fp → Bool
  | .fin _ _ _ => true
  | _ => false

/-- One element of R72 step 4: x × 2^−E rounded and clamped to the element format. -/
def mxRound (f : MxFmt) (v : Fp) : Nat :=
  match f.fp with
  | some g => fpRoundSat g v
  | none => (BitVec.ofInt 8 (max (-128) (min 127 (fpToInt (fpScale 6 v))))).toNat

/-- The conversion of the values of one block into an MX format (R72): its scale code and element codes. -/
def mxConvert (f : MxFmt) (vs : List Fp) : Nat × List Nat :=
  if vs.any (fun v => !fpFinite v) then (0xFF, vs.map fun _ => 0)
  else
    let nz := vs.filter fun v => !fpIsZero v
    match nz with
    | [] => (0, vs.map fun _ => 0)
    | v :: rest =>
      let top := rest.foldl (fun a w => max a (fpLog2 w)) (fpLog2 v)
      let e := max (-127) (min 127 (top - f.emax))
      ((e + 127).toNat, vs.map fun w => mxRound f (fpScale (-e) w))

/-! ### Grain results and the canonical tree -/

/-- The exact sum of a list of values. -/
def fpSum (vs : List Fp) : Fp := vs.foldl fpAdd (.fin false 0 0)

/-- NaN and infinity handling of R78 steps 1 and 2 on the products of a grain: the decided result, or none. -/
def grainSpecial (as bs : List Fp) : Option Fp :=
  if (as ++ bs).any (fun v => v == .nan) then some .nan
  else
    let infs := (List.zipWith (fun a b => (a, b)) as bs).filter fun q => !(fpFinite q.1 && fpFinite q.2)
    if infs.isEmpty then none
    else if infs.any (fun q => fpIsZero q.1 || fpIsZero q.2) then some .nan
    else
      let signs := infs.map fun q => fpSign q.1 != fpSign q.2
      if signs.all id then some (.inf true) else if signs.all (!·) then some (.inf false) else some .nan

/-- A zero result is +0. -/
def posZero : Fp → Fp
  | .fin neg m e => .fin (neg && m != 0) m e
  | v => v

/-- The grain result for block-scaled operands (R78). -/
def grainMx (fa fb : MxFmt) (xa xb : Nat) (as bs : List Nat) : W32 :=
  if xa = 0xFF ∨ xb = 0xFF then toF32 .nan
  else
    let va := as.map (mxElem fa)
    let vb := bs.map (mxElem fb)
    match grainSpecial va vb with
    | some r => toF32 r
    | none => toF32 (posZero (fpScale (((xa : Int) - 127) + ((xb : Int) - 127)) (fpSum (List.zipWith fpMul va vb))))

/-- Truncate toward zero to a multiple of 2^q (R79 step 5). -/
def fpTrunc (q : Int) : Fp → Fp
  | .fin neg m e => if q ≤ e then .fin neg m e else .fin neg (m / 2 ^ (q - e).toNat) q
  | v => v

/-- The grain result for BF16 and FP16 operands (R79). -/
def grain16 (f : Fmt) (as bs : List Nat) : W32 :=
  let va := as.map (fpDecode f)
  let vb := bs.map (fpDecode f)
  match grainSpecial va vb with
  | some r => toF32 r
  | none =>
    let ps := List.zipWith fpMul va vb
    match ps.filter (fun p => !fpIsZero p) with
    | [] => 0#32
    | p :: rest =>
      let e := rest.foldl (fun a w => max a (fpLog2 w)) (fpLog2 p)
      toF32 (posZero (fpSum (ps.map (fpTrunc (e - 64)))))

/-- One level of the canonical tree: neighbours are combined, an odd last value passes through (R80). -/
def treeLevel {α : Type} (f : α → α → α) : List α → List α
  | a :: b :: r => f a b :: treeLevel f r
  | l => l

/-- The canonical tree by repeated levels; the fuel is the length of the list. -/
def treeFuel {α : Type} (f : α → α → α) (zero : α) : Nat → List α → α
  | _, [] => zero
  | _, [a] => a
  | 0, a :: _ => a
  | n + 1, l => treeFuel f zero n (treeLevel f l)

/-- An FP32 code with every NaN the canonical one (R69). -/
def canonW (a : W32) : W32 := if 0x7F800000 < a.toNat % 2 ^ 31 then BitVec.ofNat 32 (canonNaN fmtFP32) else a

/-- T(v_0, …, v_(n−1)) over FP32 (R80); +0 for no values. A NaN that passes through alone becomes the canonical one (R69). -/
def tree (l : List W32) : W32 := canonW (treeFuel f32Add 0#32 l.length l)

/-! ### Special functions (R91) -/

/-- The FP32 value nearest to num ÷ den (Table 3-10). -/
def ratF32 (neg : Bool) (num den : Nat) : W32 := toF32 (fpQuot neg num den 0)

def c1 : W32 := ratF32 false 6931471806 (10 ^ 10)
def c2 : W32 := ratF32 false 2402265070 (10 ^ 10)
def c3 : W32 := ratF32 false 5550410866 (10 ^ 11)
def c4 : W32 := ratF32 false 9618129108 (10 ^ 12)
def c5 : W32 := ratF32 false 1333355815 (10 ^ 12)
def c6 : W32 := ratF32 false 1540353039 (10 ^ 13)
def c7 : W32 := ratF32 false 1525273380 (10 ^ 14)
def d0 : W32 := ratF32 false 2885390082 (10 ^ 9)
def d1 : W32 := ratF32 false 9617966939 (10 ^ 10)
def d2 : W32 := ratF32 false 5770780164 (10 ^ 10)
def d3 : W32 := ratF32 false 4121985831 (10 ^ 10)
def d4 : W32 := ratF32 false 3205988980 (10 ^ 10)
def d5 : W32 := ratF32 false 2623081893 (10 ^ 10)
def d6 : W32 := ratF32 false 2219530832 (10 ^ 10)
def one32 : W32 := 0x3F800000#32
def a1 : W32 := ratF32 true 125 1000
def b0 : W32 := ratF32 false 24 17
def b1 : W32 := ratF32 true 8 17
def sq32 : W32 := 0x3FB504F3#32
def l2e : W32 := 0x3FB8AA3B#32
def tanhT : List W32 := [ratF32 true 443861162 1856156927625, ratF32 false 6404582 10854718875, ratF32 true 929569 638512875,
  ratF32 false 21844 6081075, ratF32 true 1382 155925, ratF32 false 62 2835, ratF32 true 17 315, ratF32 false 2 15, ratF32 true 1 3]

/-- Horner's scheme by fma, from the leading coefficient down. -/
def horner (x : W32) : W32 → List W32 → W32
  | p, [] => p
  | p, c :: cs => horner x (f32Fma p x c) cs

/-- EXP2 of R91. -/
def sfExp2 (x : W32) : W32 :=
  match f32 x with
  | .nan => toF32 .nan
  | v =>
    if fpLt v (.fin false 128 0) = false then toF32 (.inf false)
    else if fpLt (.fin true 150 0) v = false then 0#32
    else
      let n := fpToInt v
      let f := toF32 (fpAdd v (.fin (0 < n) n.natAbs 0))
      let p := horner f c7 [c6, c5, c4, c3, c2, c1, one32]
      toF32 (fpScale n (f32 p))

/-- split(x) of R91 for a finite nonzero magnitude: m as FP32 in [1, 2) and e. -/
def fpSplit : Fp → W32 × Int
  | .fin _ m e => let l := Nat.log2 m; (toF32 (.fin false m (-(l : Int))), e + l)
  | _ => (one32, 0)

/-- LOG2 of R91. -/
def sfLog2 (x : W32) : W32 :=
  match f32 x with
  | .nan => toF32 .nan
  | .inf neg => if neg then toF32 .nan else toF32 (.inf false)
  | .fin neg m ex =>
    if m = 0 then toF32 (.inf true)
    else if neg then toF32 .nan
    else
      let s := fpSplit (.fin neg m ex)
      let big := fpLt (f32 sq32) (f32 s.1)
      let mv := if big then fpScale (-1) (f32 s.1) else f32 s.1
      let e := if big then s.2 + 1 else s.2
      let num := fpAdd mv (.fin true 1 0)
      let den := fpAdd mv (.fin false 1 0)
      let z := match num, den with
        | .fin nn nm ne, .fin _ dm de => toF32 (fpQuot nn nm dm (ne - de))
        | _, _ => toF32 .nan
      let w := f32Mul z z
      let p := horner w d6 [d5, d4, d3, d2, d1, d0]
      toF32 (fpAdd (fpMul (f32 z) (f32 p)) (.fin (e < 0) e.natAbs 0))

/-- RSQRT of R91. -/
def sfRsqrt (x : W32) : W32 :=
  match f32 x with
  | .nan => toF32 .nan
  | .inf neg => if neg then toF32 .nan else 0#32
  | .fin neg m ex =>
    if m = 0 then toF32 (.inf neg)
    else if neg then toF32 .nan
    else
      let s := fpSplit (.fin neg m ex)
      let odd := s.2 % 2 != 0
      let mm := if odd then toF32 (fpScale 1 (f32 s.1)) else s.1
      let e := if odd then s.2 - 1 else s.2
      let it := fun y =>
        let a := f32Mul mm y
        let b := f32Fma (f32Neg a) y one32
        f32Fma (toF32 (fpScale (-1) (f32 y))) b y
      let y := it (it (it (it (f32Fma a1 mm one32))))
      toF32 (fpScale (-(e / 2)) (f32 y))

/-- RCP of R91. -/
def sfRcp (x : W32) : W32 :=
  match f32 x with
  | .nan => toF32 .nan
  | .inf neg => toF32 (.fin neg 0 0)
  | .fin neg m ex =>
    if m = 0 then toF32 (.inf neg)
    else
      let s := fpSplit (.fin false m ex)
      let it := fun y =>
        let r := f32Fma (f32Neg s.1) y one32
        f32Fma y r y
      let y := it (it (it (f32Fma b1 s.1 b0)))
      let r := fpScale (-s.2) (f32 y)
      toF32 (if neg then fpNeg r else r)

/-- TANH of R91. -/
def sfTanh (x : W32) : W32 :=
  match f32 x with
  | .nan => toF32 .nan
  | v =>
    let a := toF32 (fpAbs v)
    let r :=
      if fpLt (f32 a) (.fin false 73 (-3)) = false then one32
      else if fpLt (f32 a) (.fin false 9 (-4)) then
        let w := f32Mul a a
        let p := match tanhT with
          | [] => 0#32
          | t :: ts => horner w t ts
        let u := f32Mul w p
        f32Fma a u a
      else
        let t := f32Mul (toF32 (fpScale 1 (f32 a))) l2e
        let d := f32Add (sfExp2 t) one32
        f32Fma (ratF32 true 2 1) (sfRcp d) one32
    if fpSign v then f32Neg r else r

end Sys2Proof.Machine
end

