-- ==== Sys2Proof/Machine/Mesh.lean ====
section
/-!
DEFINITION. The mesh (chapter 02): injection and its checks (R47, R50, R51, R54), ejection (R52), tiles and credits (R43), the memory end of
READ_REQ and WRITE (R147, R170, R172, R180), summaries (R36, R150), work counters (R124 to R129), cell counters (R64) and debug control.
-/
namespace Sys2Proof.Machine

/-! ### Counters of a cell (R64) -/

def Dev.frozen (d : Dev) (c : Nat) : Bool := d.rf (Reg.DBG_CTL c) Fld.DBG_CTL_FREEZE == 1
def Dev.dbg (d : Dev) (c off n : Nat) : Dev := if d.frozen c then d else d.bump off n

/-- One comb cycle in which a cell issued (R312). -/
def Dev.chargeCell (d : Dev) (c : Nat) : Dev := match d.partOfComb (combOf c) with | some p => d.charge p aCell 1 | none => d

/-! ### Flits -/

/-- Virtual channel of a kind (Table 2-7): 0 DATA, 1 RESP, 2 CTRL, 3 CFG; none for a kind that the table lacks. -/
def vcOf (kind : Nat) : Option Nat :=
  if [1, 2, 4].contains kind then some 0 else if [3, 5, 6, 0xA].contains kind then some 1
  else if [8, 9, 0x18].contains kind then some 2 else if [0x10, 0x11].contains kind then some 3 else none

/-- Is the kind in Table 2-7 with its channel (R47)? -/
def kindOk (p : Packet) : Bool := vcOf p.flit.kind.toNat == some p.flit.vc.toNat

/-- A packet to a cell: kind, generation, destination, source, TAG, ADDR and payload. -/
def mkPkt (kind gen dst src tag addr : Nat) (payload : List Byte) : Packet :=
  { flit := {
      gen := BitVec.ofNat 8 gen, part := 0, vc := BitVec.ofNat 2 ((vcOf kind).getD 0), srcRouted := false, eject := 0,
      len := BitVec.ofNat 7 ((payload.length + 63) / 64), dstX := BitVec.ofNat 7 (cellX dst), dstY := BitVec.ofNat 6 (cellY dst),
      srcX := BitVec.ofNat 7 (cellX src), srcY := BitVec.ofNat 6 (cellY src), tc := 0, queue := 0, kind := BitVec.ofNat 8 kind, route := 0,
      tag := BitVec.ofNat 16 tag, addr := BitVec.ofNat 48 addr }
    payload := payload }

end Sys2Proof.Machine

namespace Sys2Proof

def Packet.dst (p : Packet) : Nat := Machine.cellAt p.flit.dstX.toNat p.flit.dstY.toNat
def Packet.src (p : Packet) : Nat := Machine.cellAt p.flit.srcX.toNat p.flit.srcY.toNat
def Packet.tag (p : Packet) : Nat := p.flit.tag.toNat
def Packet.addr (p : Packet) : Nat := p.flit.addr.toNat
def Packet.gen (p : Packet) : Nat := p.flit.gen.toNat
def Packet.tc (p : Packet) : Nat := p.flit.tc.toNat
def Packet.queue (p : Packet) : Nat := p.flit.queue.toNat
def Packet.part (p : Packet) : Nat := p.flit.part.toNat
def Packet.outer (p : Packet) : Bool := p.flit.eject != 0#2
def Packet.flits (p : Packet) : Nat := p.flit.len.toNat + 1
def Packet.withTc (p : Packet) (tc q : Nat) : Packet := { p with flit := { p.flit with tc := BitVec.ofNat 2 tc, queue := BitVec.ofNat 4 q } }
def Packet.withPart (p : Packet) (n : Nat) : Packet := { p with flit := { p.flit with part := BitVec.ofNat 4 n } }
def Packet.withEject (p : Packet) (e : Nat) : Packet := { p with flit := { p.flit with eject := BitVec.ofNat 2 e } }
def Packet.withRoute (p : Packet) (r : Nat) : Packet := { p with flit := { p.flit with srcRouted := true, route := BitVec.ofNat 64 r } }

end Sys2Proof

namespace Sys2Proof.Machine

/-! ### Routes (R50, R51) -/

/-- One link in a direction (0 N, 1 E, 2 S, 3 W), none off the mesh. -/
def stepDir (dir x y : Nat) : Option (Nat × Nat) :=
  if dir = 0 then (if y = 0 then none else some (x, y - 1))
  else if dir = 1 then (if x = 127 then none else some (x + 1, y))
  else if dir = 2 then (if y = 63 then none else some (x, y + 1))
  else (if x = 0 then none else some (x - 1, y))

/-- The routers visited along n links, in order. -/
def walkDir (dir : Nat) : Nat → Nat → Nat → Option (List Nat × Nat × Nat)
  | 0, x, y => some ([], x, y)
  | n + 1, x, y =>
    match stepDir dir x y with
    | some (x1, y1) => (walkDir dir n x1 y1).map fun r => (cellAt x1 y1 :: r.1, r.2)
    | none => none

def walkSegs : List (Nat × Nat) → Nat → Nat → Option (List Nat × Nat × Nat)
  | [], x, y => some ([], x, y)
  | (dir, n) :: rest, x, y =>
    match walkDir dir n x y with
    | some (l, x1, y1) => (walkSegs rest x1 y1).map fun r => (l ++ r.1, r.2)
    | none => none

/-- The segments of a source route up to the first of length 0. -/
def routeSegs (route : Nat) : List (Nat × Nat) :=
  ((List.range 7).map fun k => (route / 2 ^ (9 * k + 7) % 4, route / 2 ^ (9 * k) % 128)).takeWhile fun s => s.2 != 0

/-- The routers that a packet visits after its source, and where it ends. -/
def routeOf (p : Packet) (src : Nat) : Option (List Nat × Nat × Nat) :=
  let x := cellX src
  let y := cellY src
  if p.flit.srcRouted then walkSegs (routeSegs p.flit.route.toNat) x y
  else
    let dx := p.flit.dstX.toNat
    let dy := p.flit.dstY.toNat
    walkSegs [(if x ≤ dx then 1 else 3, dx - x + (x - dx)), (if y ≤ dy then 2 else 0, dy - y + (y - dy))] x y

/-- Does the router at (x, y) have the port that EJECT names? -/
def hasPort (eject x y : Nat) : Bool :=
  eject == 0 || (eject == 1 && (y == 0 || y == 63)) || (eject == 2 && (x == 0 || x == 127))

/-- The edge port toward the memory that holds an address, nearest the column and row of a cell (Tables 1-2 and 1-3): x, y, EJECT. -/
def memPort (a c : Nat) : Nat × Nat × Nat :=
  if t2Base ≤ a then (0, 32 + cellY c % 32, 2)
  else
    let s := (a - t1Base) / 512 % 8
    (32 * (s % 4) + cellX c % 32, if s < 4 then 0 else 63, 1)

/-! ### Injection -/

/-- A packet enters the mesh at a router: flits are counted where it enters by the local port and at every router that forwards it
between other ports (R64). -/
def Dev.enter (d : Dev) (src : Nat) (local_ : Bool) (p : Packet) : Dev :=
  let through := match routeOf p src with | some (l, _, _) => if p.outer then l else l.dropLast | none => []
  let here := match routeOf p src with | some (l, _, _) => l.isEmpty && !p.outer | none => false
  let d1 := if local_ then d.dbg src (Reg.DBG_FLIT_INJ src) p.flits else if here then d else d.dbg src (Reg.DBG_FLIT_TRANSIT src) p.flits
  let d2 := through.foldl (fun e c => e.dbg c (Reg.DBG_FLIT_TRANSIT c) p.flits) d1
  { d2 with fab := { d2.fab with transit := d2.fab.transit ++ [p] } }

def Dev.refuseInj (d : Dev) (c : Nat) : Dev := d.dbg c (Reg.DBG_INJ_REFUSE c) 1

/-- Detail of a packet refused by a partition fence (Table 2-11): destination column in [6:0], row in [13:8]. -/
def fenceDetail (p : Packet) : Nat := p.flit.dstX.toNat + p.flit.dstY.toNat * 256

/-- Injection at a cell's router: the router writes PART and checks kind, source route, EJECT and the partition fence (R47, R51, R54). -/
def Dev.inject (d : Dev) (src : Nat) (p0 : Packet) : Dev :=
  let own := d.partOfComb (combOf src)
  let p := p0.withPart (own.getD 0)
  if !kindOk p then d.refuseInj src
  else
    let bad := match routeOf p src with
      | some (_, x, y) => x != p.flit.dstX.toNat || y != p.flit.dstY.toNat || !hasPort p.flit.eject.toNat x y
      | none => true
    if bad then (d.refuseInj src).cellFault src cConfig 0x0301 p.flit.route.toNat
    else if !p.outer && (own.isNone || d.partOfComb (combOf p.dst) != own) then
      (d.refuseInj src).cellFault src cSecurity 0x0401 (fenceDetail p)
    else d.enter src true p

/-- Injection by an edge die through the outer port of an edge router: the die has set PART. -/
def Dev.injectEdge (d : Dev) (src : Nat) (p : Packet) : Dev := d.enter src false p

/-! ### Ejection (R47, R52) -/

def Dev.leave (d : Dev) (p : Packet) : Dev := { d with fab := { d.fab with transit := d.fab.transit.erase p } }

/-- A packet of a kind leaves by the local port of its destination: a wrong kind or channel is discarded, then, unless it carries configuration,
one of another generation. -/
def Dev.eject (d : Dev) (kind : Nat) (p : Packet) (k : Dev → Dev) : Dev :=
  let c := p.dst
  if p.flit.kind.toNat != kind ∨ !kindOk p then (d.leave p).refuseInj c
  else
    let d1 := (d.leave p).dbg c (Reg.DBG_FLIT_EJ c) p.flits
    if kind != 0x10 ∧ kind != 0x11 ∧ p.gen != (d.cell c).gen.toNat then d1.dbg c (Reg.DBG_GEN_DISCARD c) 1
    else k d1

/-! ### Task contexts that wait (R42) -/

/-- Does what arrives end a wait: what is waited for, or, in a MERGE_UNORDERED context that waits for an input, any of its inputs? -/
def wakesOn (x : Cell) (t : Nat) (wait w : Wait) : Bool :=
  wait == w || match steerRec x.active t, wait, w with
    | some r, .queue _, .queue q => r.b 0 == 2 && [r.b 1, r.b 2, r.b 3, r.b 4].contains q
    | _, _, _ => false

/-- Wake the task contexts of a cell that wait for something; progress restarts the watchdog's count. -/
def wakeTcs (x : Cell) (w : Wait) (now : Nat) : Cell :=
  { x with tcs := x.tcs.map fun (q : Nat × Tc) =>
    if wakesOn x q.1 q.2.wait w ∧ (q.2.st = .waitIn ∨ q.2.st = .waitOut) then (q.1, { q.2 with st := .ready, wait := .none, since := now })
    else if wakesOn x q.1 q.2.wait w ∧ q.2.st = .halted then (q.1, { q.2 with wait := .none, since := now }) else q }

/-- The first READY task context after the one that last held the issue slot. -/
def nextReady (x : Cell) : Option Nat := ([1, 2, 3, 4].map fun i => (x.last + i) % 4).find? fun t => (x.tc t).st == .ready

/-- A free issue slot passes to the first READY task context (R41); a switch to another one is counted. -/
def Dev.pick (d : Dev) (c : Nat) : Dev :=
  let x := d.cell c
  if x.tcs.any (fun q => q.2.st == .running) then d
  else
    match nextReady x with
    | some t =>
      let d1 := d.setCell c { x.setTc t { x.tc t with st := .running } with last := t }
      if t = x.last then d1 else d1.dbg c (Reg.DBG_TC_SWITCH c) 1
    | none => d

def Dev.wake (d : Dev) (c : Nat) (w : Wait) : Dev := (d.modCell c fun x => wakeTcs x w d.ps).pick c

/-! ### Queues and credits (R43) -/

def Queue.zero : Queue := ⟨0, []⟩
def Cell.queue (x : Cell) (q : Nat) : Queue := sget (fun _ => Queue.zero) x.queues q
def Cell.setQueue (x : Cell) (q : Nat) (y : Queue) : Cell := { x with queues := sput (fun _ => Queue.zero) x.queues q y }
def OutPort.zero : OutPort := ⟨0, 0, false⟩
def Tc.out (t : Tc) (o : Nat) : OutPort := sget (fun _ => OutPort.zero) t.outs o
def Tc.setOut (t : Tc) (o : Nat) (y : OutPort) : Tc := { t with outs := sput (fun _ => OutPort.zero) t.outs o y }

/-- A tile as 4,608 bytes: the reserved bytes are written as zero. -/
def slotBytes (tile : List Byte) : List Byte := (tile ++ zeros tileBytes).take tileWire ++ zeros 192

/-- A tile lands in a stream queue: it takes the next slot, and a task context that waits for the queue becomes READY. A tile for a queue that is absent or
full is dropped (log entry 22). -/
def Dev.landTile (d : Dev) (c q : Nat) (tile : List Byte) (prod : Producer) (eos : Bool) : Dev :=
  let x := d.cell c
  let y := x.queue q
  let n := queueDepth x.active q
  if y.slots.length < n then
    let d1 := d.setBytes (slotAddr x.active c q y.next) (slotBytes tile)
    (d1.modCell c fun z => z.setQueue q ⟨(y.next + 1) % n, y.slots ++ [⟨y.next, prod, true, eos, d.ps⟩]⟩).wake c (.queue q)
  else d

/-! ### Issues -/

def Dev.modIssue (d : Dev) (tok : Nat) (f : Issue → Issue) : Dev :=
  { d with fab := { d.fab with issues := d.fab.issues.map fun i => if i.uid == tok then f i else i } }

/-- The number of deliveries of an issue (R110, R120): the product of its counts. -/
def Issue.total (i : Issue) : Nat := i.counts.foldl (· * ·) 1

/-- The local port that forager f of comb k shares (R179), and the forager of a cell. -/
def forCell (k f : Nat) : Nat := combCell k (2 * f + 1) 0
def forOf (c : Nat) : Nat := cellX c % 32 / 2
/-- TAG of a response to a forager: bit 14 set, the issue's number below. -/
def forTag (tok : Nat) : Nat := 0x4000 + tok % 0x4000

/-- An issue ends: SQ.WAIT returns, and its forager context and staging slots are free. -/
def Issue.finish (i : Issue) : Issue := { i with ended := true, eos := true, forager := none, stage := none }

/-- The consumer gives a slot back to its producer (R43). -/
def Dev.returnCredit (d : Dev) (c q : Nat) (prod : Producer) : Dev :=
  let g := (d.cell c).gen.toNat
  match prod with
  | .cell src tag => d.inject c (mkPkt 6 g src c tag q [])
  | .forager tok => d.inject c (mkPkt 6 g (forCell (combOf c) (forOf c)) c (forTag tok) q [])
  | .edge port tag node => d.inject c ((mkPkt 6 g port c tag (q + 16 * node) []).withEject 2)

/-- Free the oldest slot of a queue. -/
def Dev.freeSlot (d : Dev) (c q : Nat) : Dev :=
  let x := d.cell c
  match (x.queue q).slots with
  | s :: rest => (d.setCell c (x.setQueue q { x.queue q with slots := rest })).returnCredit c q s.prod
  | [] => d

/-! ### Memory (R147, R170, R172, R180) -/

/-- The registered image area that a write of n bytes at a would touch. -/
def Dev.imageHit (d : Dev) (a n : Nat) : Bool :=
  d.img.imgs.any fun q => match q.2 with
    | some i => d.handleState q.1 == 2 && a < i.addr + i.len && i.addr < a + n
    | none => false

/-- May partition p reach the bytes? T0 of its combs and its granules. -/
def Dev.reaches (d : Dev) (p a n : Nat) : Bool :=
  (a < 0x80000000 && d.partOfComb (combOf (a / 0x40000)) == some p) || d.owned p a n

/-- An access to an address outside the map (R170): counted, and the step of the access aborts. -/
def Dev.unmapped (d : Dev) (p a : Nat) : Dev :=
  (d.bump Reg.MEM_UNMAPPED 1).stepFault p (d.curCtx p) (notice cConfig 0x0A01 a)

/-- A packet of a memory kind arrives: by an outer port at the edge die, by a local port under R52. -/
def Dev.arrive (d : Dev) (kind : Nat) (p : Packet) (k : Dev → Dev) : Dev :=
  if p.outer then (if p.flit.kind.toNat != kind ∨ !kindOk p then (d.leave p).refuseInj p.dst else k (d.leave p)) else d.eject kind p k

/-- A READ_REQ is served: one tile from its address, sent straight to the landing cell that SRC, TC, QUEUE and TAG name. A request into another
partition's memory is refused at the memory's edge (log entry 23). -/
def opReadReq (p : Packet) (d : Dev) : Dev :=
  d.arrive 2 p fun d1 =>
    let a := p.addr
    let ok := d1.mapped a && d1.mapped (a + (tileWire - 1))
    let own := d1.reaches p.part a tileWire
    let data := if ok && own then d1.bytes a tileWire else zeros tileWire
    let d2 := if !ok then d1.unmapped p.part a
      else if own then (d1.chargeMem p.part a tileWire).meetErrors a tileWire
      else d1.stepFault p.part (d1.curCtx p.part) (notice cSecurity 0x0401 (fenceDetail p))
    let r := ((mkPkt 3 p.gen p.src p.dst p.tag 0 data).withTc p.tc p.queue).withPart p.part
    if ok && !own then d2 else if p.outer then d2.injectEdge p.dst r else d2.inject p.dst r

/-- A WRITE reaches its memory. A write into a registered image area has no effect (R147); T2 takes no write from the mesh (R177). -/
def opWrite (p : Packet) (d : Dev) : Dev :=
  d.arrive 4 p fun d1 =>
    let a := p.addr
    let data := if p.flit.len.toNat = 69 then p.payload ++ zeros 192 else p.payload
    let n := data.length
    let c := d1.curCtx p.part
    let ack := ((mkPkt 5 p.gen p.src p.dst p.tag 0 []).withTc p.tc p.queue).withPart p.part
    let back := fun (e : Dev) => if p.outer then e.injectEdge p.dst ack else e.inject p.dst ack
    if !d1.mapped a ∨ !d1.mapped (a + (n - 1)) then back (d1.unmapped p.part a)
    else if d1.imageHit a n then d1.stepFault p.part c (notice cRo 0x0941 a)
    else if !d1.reaches p.part a n then
      d1.stepFault p.part c (notice cSecurity 0x0401 (fenceDetail p))
    else if t2Base ≤ a then d1.stepFault p.part c (notice cRo 0x0809 0)
    else back ((d1.chargeMem p.part a n).setBytes a data)

/-! ### Summaries (R36, R90, R150) -/

def SumReg.zero : SumReg := ⟨0, false, false⟩
def Tc.sum (t : Tc) (r : Nat) : SumReg := sget (fun _ => SumReg.zero) t.sums r
def Tc.setSum (t : Tc) (r : Nat) (y : SumReg) : Tc := { t with sums := sput (fun _ => SumReg.zero) t.sums r y }
def SeqSt.zero : SeqSt := ⟨false, 0, [], [], [], .none, 0⟩
def Dev.seq (d : Dev) (k i : Nat) : SeqSt := sget (fun _ => SeqSt.zero) d.fab.seqs (4 * k + i)
def Dev.setSeq (d : Dev) (k i : Nat) (x : SeqSt) : Dev := { d with fab := { d.fab with seqs := sput (fun _ => SeqSt.zero) d.fab.seqs (4 * k + i) x } }
def SeqSt.sum (x : SeqSt) (r : Nat) : SumReg := sget (fun _ => SumReg.zero) x.q r
def SeqSt.setSum (x : SeqSt) (r : Nat) (y : SumReg) : SeqSt := { x with q := sput (fun _ => SumReg.zero) x.q r y }

/-- The sequencer that shares a cell's local port (R44, R143). -/
def seqAt (c : Nat) : Option Nat := if cellY c % 16 = 8 ∧ cellX c % 8 = 4 then some (cellX c % 32 / 8) else none
/-- Does a response that ejects at a cell's local port go to its sequencer (TAG bit 15, R150) or to its forager (TAG bit 14, R179)? -/
def toSeq (c tag : Nat) : Bool := bit tag 15 && (seqAt c).isSome
def toFor (c tag : Nat) : Bool := bit tag 14 && !bit tag 15 && cellY c % 16 == 0 && cellX c % 2 == 1

/-- The cell whose local port sequencer i of comb k shares. -/
def seqCell (k i : Nat) : Nat := combCell k (8 * i + 4) 8

def opSummary (p : Packet) (d : Dev) : Dev :=
  d.eject 8 p fun e =>
    let r := p.addr / 2 ^ 32 % 16
    let v : SumReg := ⟨BitVec.ofNat 32 p.addr, true, false⟩
    match seqAt p.dst with
    | some i =>
      if p.queue = 15 then e.setSeq (combOf p.dst) i ((e.seq (combOf p.dst) i).setSum r v)
      else (e.modCell p.dst fun x => x.setTc p.tc { (x.tc p.tc).setSum r v with since := e.ps }).wake p.dst (.summary (16 * p.tc + r))
    | none => (e.modCell p.dst fun x => x.setTc p.tc { (x.tc p.tc).setSum r v with since := e.ps }).wake p.dst (.summary (16 * p.tc + r))

/-! ### Work counters (R124 to R129) -/

/-- Key of counter n of partition p in the store of work counters: 256·p + n, with 4,096 added for a brood-wide one (R129). -/
def wkcKey (wide : Bool) (p n : Nat) : Nat := b2n wide * 4096 + 256 * p + n
def Wkc.zero : Wkc := ⟨0, false⟩
def Dev.wkc (d : Dev) (key : Nat) : Wkc := sget (fun _ => Wkc.zero) d.fab.wkc key
def Dev.setWkc (d : Dev) (key : Nat) (x : Wkc) : Dev := { d with fab := { d.fab with wkc := sput (fun _ => Wkc.zero) d.fab.wkc key x } }

/-- FETCH_ADD on a counter: the value before the add, or the fault cause. -/
def fetchAdd (w : Wkc) (inc : Nat) : Except Nat (Nat × Wkc) :=
  if inc = 0 then .error 0x0822 else if 2 ^ 48 ≤ w.val + inc then .error 0x0823 else .ok (w.val, ⟨w.val + inc, true⟩)

/-- Serve one request (Table 4-10) on the counter under a key: the reply's value, or the fault cause, and the device after it. -/
def Dev.serveWkc (d : Dev) (key addr : Nat) : Except Nat (Nat × Dev) :=
  let op := addr / 2 ^ 38 % 4
  let w := d.wkc key
  if op = 0 then
    match fetchAdd w (addr % 2 ^ 32) with
    | .ok (v, w1) => .ok (v, d.setWkc key w1)
    | .error e => .error e
  else if op = 1 then .ok (w.val, d)
  else if op = 2 then (if w.live then .error 0x0821 else .ok (0, d.setWkc key ⟨0, false⟩))
  else .error 0x0822

/-- Detail of a counter fault (Table 4-11). -/
def wkcDetail (addr cause : Nat) : Nat :=
  addr / 2 ^ 40 % 256 * 2 ^ 40 + (if cause = 0x0822 then addr / 2 ^ 38 % 4 * 2 ^ 38 else 0)

/-- The home of counter n in the active image of p (Table 4-11, cause 0x0824): the cell, and whether it is brood-wide. -/
def Dev.homeOf (d : Dev) (p n : Nat) : Option (Nat × Bool) := (d.activeImg p).bind fun i => d.wkcHome i n

/-- A WKC_REQ reaches a cell: the home serves it and replies with the same TAG. -/
def opWkcReq (op : Nat) (p : Packet) (d : Dev) : Dev :=
  if p.flit.kind.toNat = 9 ∧ p.addr / 2 ^ 38 % 4 != op ∧ p.addr / 2 ^ 38 % 4 != 3 then d
  else d.eject 9 p fun e =>
    let n := p.addr / 2 ^ 40 % 256
    let fault := fun (cause : Nat) => e.cellFault p.dst cCounter cause (wkcDetail p.addr cause)
    match e.homeOf p.part n with
    | some (c, wide) =>
      if c = p.dst ∧ (!wide ∨ e.isLead) then
        match e.serveWkc (wkcKey wide p.part n) p.addr with
        | .ok (v, e1) => e1.inject p.dst ((mkPkt 0xA p.gen p.src p.dst p.tag v []).withTc p.tc p.queue)
        | .error cause => fault cause
      else fault 0x0824
    | none => fault 0x0824

/-- A WKC_RESP reaches its requester: TAG bit 15 names a sequencer, whose SQ.WKC ends with the value. -/
def opWkcResp (p : Packet) (d : Dev) : Dev :=
  d.eject 0xA p fun e =>
    match seqAt p.dst with
    | some i =>
      let k := combOf p.dst
      let s := e.seq k i
      if bit p.tag 15 then
        match s.wait with
        | .wkc rd => e.setSeq k i { s with wait := .none, pc := s.pc + 4, x := if rd = 0 then s.x else sput (fun _ => 0#64) s.x rd (BitVec.ofNat 64 p.addr) }
        | _ => e
      else e
    | none => e

/-! ### Debug control (R64, R65) -/

/-- May a view change an RWL register of comb k's cells (R10)? -/
def Dev.mayDbg (d : Dev) (v c : Nat) : Bool :=
  (match d.ownerOf (combOf c) with
   | some p => !d.sealed p && (v == 0 || v == p + 1)
   | none => v == 0) && d.rf Reg.SEC_STAT Fld.SEC_STAT_DBG_LOCKED == 0

def Dev.dbgLocked (d : Dev) (v c : Nat) : Dev :=
  match d.ownerOf (combOf c) with
  | some p => if d.sealed p then d.lockRec v p (Reg.DBG_CTL c) else d
  | none => d

/-- The counters of a cell, as Table 2-12 lists them. -/
def dbgCounters (c : Nat) : List Nat :=
  [Reg.DBG_CYC_ACTIVE c, Reg.DBG_CYC_WAIT_IN c, Reg.DBG_CYC_WAIT_OUT c, Reg.DBG_MAC c, Reg.DBG_TC_SWITCH c, Reg.DBG_FLIT_INJ c, Reg.DBG_FLIT_EJ c,
   Reg.DBG_FLIT_TRANSIT c, Reg.DBG_GEN_DISCARD c, Reg.DBG_CFG_DISCARD c, Reg.DBG_INJ_REFUSE c, Reg.DBG_STALL_SUPPR c]

/-- TC_HALT bits: a set bit halts its task context, a cleared one makes it READY. -/
def haltTc (t : Tc) (halt : Bool) : Tc :=
  if halt then (if t.st = .unused ∨ t.st = .done then t else { t with st := .halted })
  else if t.st = .halted then { t with st := .ready } else t

/-- The watchdog counts only while no task context of the cell is HALTED (R61): the part of a wait that a halt covered is added to its start. -/
def restartWatch (x : Cell) (now : Nat) : Cell :=
  let halted := x.tcs.any fun q => q.2.st == .halted
  match x.haltAt with
  | none => if halted then { x with haltAt := some now } else x
  | some t =>
    if halted then x
    else { x with haltAt := none, tcs := x.tcs.map fun (q : Nat × Tc) => (q.1, { q.2 with since := q.2.since + (now - max t q.2.since) }) }

/-- A READY task context that still waits for something goes back to its wait when the halt is cleared and it issues again. -/
def opTcHalt (v c halt : Nat) (d : Dev) : Dev :=
  if d.mayDbg v c then
    let d1 := d.wf (Reg.DBG_CTL c) Fld.DBG_CTL_TC_HALT halt
    let d2 := d1.modCell c fun x => { x with tcs := x.tcs.map fun (q : Nat × Tc) => (q.1, haltTc q.2 (bit halt q.1)) }
    (d2.modCell c fun x => restartWatch x d.ps).pick c
  else d.dbgLocked v c

def opFreeze (v c : Nat) (f : Bool) (d : Dev) : Dev :=
  if d.mayDbg v c then d.wf (Reg.DBG_CTL c) Fld.DBG_CTL_FREEZE (b2n f) else d.dbgLocked v c

def opDbgClr (v c : Nat) (d : Dev) : Dev :=
  if d.mayDbg v c then (dbgCounters c).foldl (fun e o => e.wr o 0) d else d.dbgLocked v c

/-- PACKET_INJECT: a cell or sequencer hands its router a packet. -/
def opInject (c : Nat) (p : Packet) (d : Dev) : Dev := d.inject c p

/-! ### The commands -/

def execPacketInject (c : CellIdx) (p : Packet) (s : State) : Host.Outcome State Fault Refusal := done s (opInject c p s.dev)
def execReadReq (p : Packet) (s : State) : Host.Outcome State Fault Refusal := done s (opReadReq p s.dev)
def execWrite (p : Packet) (s : State) : Host.Outcome State Fault Refusal := done s (opWrite p s.dev)
def execSummary (p : Packet) (s : State) : Host.Outcome State Fault Refusal := done s (opSummary p s.dev)
def execWkcFetchAdd (p : Packet) (s : State) : Host.Outcome State Fault Refusal := done s (opWkcReq 0 p s.dev)
def execWkcRead (p : Packet) (s : State) : Host.Outcome State Fault Refusal := done s (opWkcReq 1 p s.dev)
def execWkcReset (p : Packet) (s : State) : Host.Outcome State Fault Refusal := done s (opWkcReq 2 p s.dev)
def execWkcResp (p : Packet) (s : State) : Host.Outcome State Fault Refusal := done s (opWkcResp p s.dev)
def execDbgTcHalt (v : View) (c : CellIdx) (halt : BitVec 4) (s : State) : Host.Outcome State Fault Refusal := hostDone s (Reg.DBG_CTL c) (opTcHalt v c halt.toNat)
def execDbgFreeze (v : View) (c : CellIdx) (f : Bool) (s : State) : Host.Outcome State Fault Refusal := hostDone s (Reg.DBG_CTL c) (opFreeze v c f)
def execDbgClr (v : View) (c : CellIdx) (s : State) : Host.Outcome State Fault Refusal := hostDone s (Reg.DBG_CTL c) (opDbgClr v c)

end Sys2Proof.Machine
end

