-- ==== Sys2Proof/Machine/Streams.lean ====
section
/-!
DEFINITION. Streams (chapter 04) and foragers (chapter 06): the tile walk (R109, R110), issue-time checks (Tables 4-8 and 4-9), what a
producer's and a consumer's binding do, and the transfers of a forager (R180 to R184).
-/
namespace Sys2Proof.Machine

/-! ### The tile walk -/

/-- Entry k of a loop-order field (R109). -/
def orderEntry (field k : Nat) : Nat := field / 2 ^ (3 * k) % 8
def orderList (field : Nat) : List Nat := (List.range 6).map (orderEntry field)
def isPerm (field : Nat) : Bool := (List.range 6).all fun i => (orderList field).contains i

/-- Index vectors with the given extents, the innermost loop first in the order. -/
def loopNest (order ext : List Nat) : List (List Nat) :=
  order.foldl (fun acc dim => (List.range (ext.getD dim 0)).flatMap fun t => acc.map fun v => v.set dim t) [List.replicate 6 0]

def dimVals (sd : StreamDesc) (f : Dim → Nat) : List Nat := sd.dims.map f
def zip3 (f : Nat → Nat → Nat) (a b : List Nat) : List Nat := List.zipWith f a b

/-- The T1 blocks of a walk, each a list of T0 blocks, each a list of tile indexes (R110). -/
def walkBlocks (sd : StreamDesc) (n : List Nat) : List (List (List (List Nat))) :=
  let b0 := dimVals sd (·.b0)
  let b1 := dimVals sd (·.b1)
  (loopNest (orderList sd.order2) (zip3 ceilDiv n b1)).map fun u =>
    let base1 := zip3 (· * ·) u b1
    let e1 := zip3 min b1 (zip3 (· - ·) n base1)
    (loopNest (orderList sd.order1) (zip3 ceilDiv e1 b0)).map fun w =>
      let off0 := zip3 (· * ·) w b0
      let e0 := zip3 min b0 (zip3 (· - ·) e1 off0)
      (loopNest (orderList sd.order0) e0).map fun t => zip3 (· + ·) (zip3 (· + ·) base1 off0) t

/-- The walk: the tile index of each delivery, SEQ in order. -/
def walk (sd : StreamDesc) (n : List Nat) : List (List Nat) := (walkBlocks sd n).flatten.flatten

/-- The address of a tile of a stream that is not BLOCKED. -/
def tileAddr (sd : StreamDesc) (i : List Nat) : Nat :=
  ((List.zipWith (fun (k : Nat) (q : Dim) => (k : Int) * q.stride) i sd.dims).foldl (· + ·) (sd.base : Int)).toNat

/-- What makes two tiles the same fetch: their address, or slot, block and place within the block for a BLOCKED stream. -/
def tileKey (sd : StreamDesc) (i : List Nat) : Nat :=
  if sd.blocked then
    (i.getD 5 0 * 2 ^ 40 + i.getD 1 0 * 2 ^ 20) + (((i.getD 0 0 : Nat) : Int) * (sd.dims.getD 0 ⟨0, 0, 0, false, 0, 0, 0⟩).stride).toNat / 512
  else tileAddr sd i

/-- Keep the first tile of each key. -/
def distinctTiles (sd : StreamDesc) (l : List (List Nat)) : List (List Nat) :=
  l.foldl (fun acc i => if acc.any (fun j => tileKey sd j == tileKey sd i) then acc else acc ++ [i]) []

/-- D0 and D1: the distinct addresses in the largest T0 block and in the largest T1 block. -/
def d0Of (sd : StreamDesc) (n : List Nat) : Nat := (walkBlocks sd n).flatten.foldl (fun m b => max m (distinctTiles sd b).length) 0
def d1Of (sd : StreamDesc) (n : List Nat) : Nat := (walkBlocks sd n).foldl (fun m b => max m (distinctTiles sd b.flatten).length) 0

/-! ### Bindings -/

/-- Does a STREAM record bind the producing side of its descriptor: the record's task context serves the producing station? -/
def isProducer (x : Cell) (t : Nat) (sd : StreamDesc) : Bool :=
  sd.producer != 0xFFFF && stationOf x.active t == sd.producer && (sd.kind == skLink || sd.kind == skRemote || sd.kind == skStore)

/-- The outputs of a task context in ascending order. -/
def outsOf (x : Cell) (t : Nat) : List Nat := (List.range 16).filter fun o => (outRec x.active t o).isSome

/-- The STREAM records by which a task context produces, in bank order: the k-th feeds its k-th output (log entry 24). -/
def producerRecs (d : Dev) (i : Img) (x : Cell) (t : Nat) : List CfgRec :=
  (streamRecs x.active t).filter fun r => match d.desc i (r.n 0 2) with | some sd => isProducer x t sd | none => false

/-- The output that a producing STREAM record feeds. -/
def outputOf (d : Dev) (i : Img) (x : Cell) (t desc : Nat) : Option Nat :=
  ((producerRecs d i x t).findIdx? fun r => r.n 0 2 == desc).bind fun k => (outsOf x t)[k]?

/-- The issue that feeds output o of a task context and has not ended. -/
def Dev.outIssue (d : Dev) (c t o : Nat) : Option Issue :=
  match d.partOfComb (combOf c) with
  | some p =>
    match d.activeImg p with
    | some i => d.fab.issues.find? fun j => j.cell == c && j.tc == t && !j.ended && !j.eos && j.chain.isNone && outputOf d i (d.cell c) t j.descIdx == some o
    | none => none
  | none => none

/-- The newest issue that feeds or fed output o of a task context. -/
def Dev.lastOut (d : Dev) (c t o : Nat) : Option Issue :=
  match (d.partOfComb (combOf c)).bind d.activeImg with
  | some i => (d.fab.issues.filter fun j => j.cell == c && j.tc == t && j.chain.isNone && outputOf d i (d.cell c) t j.descIdx == some o).getLast?
  | none => none

/-- The oldest issue that still delivers into queue q of a cell. -/
def Dev.queueIssue (d : Dev) (c q : Nat) : Option Issue :=
  d.fab.issues.find? fun j => j.cell == c && j.queue == q && j.chain.isNone && !j.ended

/-- The destination cell of an OUT record. -/
def outCell (c : Nat) (r : CfgRec) : Nat :=
  cellAt (((cellX c : Int) + signed 8 (r.b 1)).toNat % 128) (((cellY c : Int) + signed 8 (r.b 2)).toNat % 64)

/-- A packet on an output: destination, task context, queue, route and EJECT of the OUT record. -/
def Dev.outPkt (d : Dev) (c : Nat) (r : CfgRec) (p : Packet) : Packet :=
  let q := (p.withTc (r.b 3) (r.b 4)).withEject (r.b 7)
  if r.b 6 = 0xFF then q
  else
    match (d.partOfComb (combOf c)).bind d.activeImg, bankRec (d.cell c).active rRouteSlot fun s => s.b 0 == r.b 6 with
    | some i, some s => match d.routeEntry i (s.n 2 2) with | some (rt, e) => (q.withRoute rt).withEject e | none => q
    | _, _ => q

/-- Send a tile on output o of a task context, spending its credit: the producer's TAG names context and output. -/
def Dev.sendTile (d : Dev) (c t o : Nat) (i : Issue) (tile : List Byte) : Dev :=
  match outRec (d.cell c).active t o with
  | some r =>
    let g := (d.cell c).gen.toNat
    let p := d.outPkt c r (mkPkt 1 g (outCell c r) c (16 * t + o) (if i.sd.kind = skRemote then i.sd.base else 0) tile)
    (d.modCell c fun x => x.setTc t ((x.tc t).setOut o { (x.tc t).out o with credits := ((x.tc t).out o).credits - 1 })).inject c p
  | none => d

/-- The current epoch of the partition that owns a cell's comb. -/
def Dev.epochAt (d : Dev) (c : Nat) : Nat :=
  match (d.partOfComb (combOf c)).bind d.curCtx with
  | some x => (d.att x).epoch % 2 ^ 32
  | none => 0

/-- Slot and its generation of a SLOTTED stream's tile (R112). -/
def Dev.slotTag (d : Dev) (c : Nat) (sd : StreamDesc) (i : List Nat) : Nat × Nat :=
  if sd.slotted then
    let s := i.getD 5 0
    match d.partOfComb (combOf c) with
    | some p => (s % 65536, match d.curCtx p with | some x => d.slotGenIn p x s | none => 0)
    | none => (s % 65536, 0)
  else (0xFFFF, 0)

/-- A task context whose program has ended enters DONE once every output has carried END_OF_STREAM and every input's was consumed (Table 2-4). -/
def Dev.tryDone (d : Dev) (c t : Nat) : Dev :=
  let x := d.cell c
  let y := x.tc t
  let outs := (outsOf x t).all fun o => (y.out o).ended
  let ins := (queueRecs x.active).all fun r => r.tc != t || y.inEnded.contains (r.b 0)
  if y.progEnd && outs && ins then d.setCell c (x.setTc t { y with st := .done, wait := .none }) else d

/-! ### Issue (R114 to R119) -/

/-- A fault found at issue names the comb of sequencer i and the cell whose port it shares (R133). -/
def Dev.issueFault (d : Dev) (k i cls cause detail : Nat) : Dev := d.cellFault (seqCell k i) cls cause detail

/-- Is a REMOTE target word valid (Table 11-7): TARGET not reserved, and for a cell INDEX 0 and a column and row of a footprint of w by h combs? -/
def targetOk (b w h : Nat) : Bool :=
  let t := b / 2 ^ 46 % 4
  t != 3 && (t != 0 || (b % 65536 == 0 && b / 2 ^ 33 % 128 < 32 * w && b / 2 ^ 27 % 64 < 16 * h))

/-- The items of check 1 of Table 4-8 in its order, for a loop with so many PLANES and a footprint of w by h combs; the number of the first that fails (log entry 25). -/
def descCheck (sd : StreamDesc) (planes w h : Nat) : Option Nat :=
  let tierOk := if sd.kind = skLoad then sd.tier == 1 || sd.tier == 2 else if sd.kind = skStore then sd.tier == 1
    else if sd.kind = skLink then sd.tier == 3 || (sd.spillable && sd.tier == 1) else sd.tier == 3
  let baseOk := if sd.kind = skRemote then targetOk sd.base w h else if sd.blocked then sd.base < planes else sd.base % 512 == 0
  let dim0 := sd.dims.getD 0 ⟨0, 0, 0, false, 0, 0, 0⟩
  let checks : List Bool := [
    (fmtShape sd.format).isSome, tierOk, baseOk, sd.dims.all fun q => q.stride % 512 == 0,
    isPerm sd.order0 && isPerm sd.order1 && isPerm sd.order2, sd.dims.all fun q => q.b0 != 0 && q.b1 != 0 && q.b1 % q.b0 == 0,
    !sd.spillable || sd.kind == skLink, !sd.buffered || sd.kind == skLoad,
    !sd.blocked || ((sd.kind == skLoad || sd.kind == skStore) && sd.tier == 1 && sd.slotted && dim0.b0 ≤ 8 && dim0.b1 ≤ 8)]
  (checks.findIdx? (fun b => !b)).map (· + 1)

/-- The counts that an issue reads (R115). -/
def Dev.readCounts (d : Dev) (k : Nat) (sd : StreamDesc) : List Nat :=
  sd.dims.map fun q => if q.srcBnd then (sget (fun _ => 0#32) d.fab.bnd (64 * k + q.srcIdx)).toNat else q.count

/-- Forager contexts in use (R181) and T1 staging slots in use as (first, count) in tile slots (R187). -/
def Dev.forUsed (d : Dev) (k f : Nat) : Nat := (d.fab.issues.filter fun i => i.comb == k && i.forager == some f).length
def Dev.stagesUsed (d : Dev) (p : Nat) : List (Nat × Nat) :=
  d.fab.issues.filterMap fun i => if i.part == p then i.stage.map fun s => (s, 2 * d1Of i.sd i.counts) else none

/-- The T1 staging area of the active image: its region of kind 2 as (address, tile slots). -/
def Dev.stageArea (d : Dev) (p : Nat) : Option (Nat × Nat) :=
  (d.activeImg p).bind fun i =>
    ((List.range (d.regionCount i)).find? fun r => (d.region i r).2.1 == 2).map fun r => (i.place.getD r 0, (d.region i r).2.2 / tileBytes)

/-- The lowest run of n free slots below a limit. -/
def findRun (used : List (Nat × Nat)) (limit n : Nat) : Option Nat :=
  (List.range (limit + 1 - n)).find? fun s => n ≤ limit && used.all fun u => s + n ≤ u.1 || u.1 + u.2 ≤ s

/-- The tile buffers of a cell that live BUFFERED issues hold, as (first, count) (Table 4-9). -/
def Dev.buffersHeld (d : Dev) (c : Nat) : List (Nat × Nat) :=
  d.fab.issues.filterMap fun i => if i.cell == c && i.sd.buffered && i.chain.isNone && !i.ended then some (i.buf, 2 * d0Of i.sd i.counts) else none

/-- How many slots from `at_` on, of at most n, no held range takes. -/
def freeRun (held : List (Nat × Nat)) (at_ : Nat) : Nat → Nat
  | 0 => 0
  | n + 1 => if held.any (fun u => u.1 ≤ at_ && at_ < u.1 + u.2) then 0 else freeRun held (at_ + 1) n + 1

/-- One binding of an issue and what it needs. -/
structure Binding where
  cell : Nat
  tc : Nat
  queue : Nat
  buf : Nat
  producer : Bool
  out : Option Nat
  deriving DecidableEq, Repr

/-- The resources of Table 4-9 in order: cause, amount needed and available of the first that cannot be had. -/
def Dev.resourceCheck (d : Dev) (p : Nat) (sd : StreamDesc) (n : List Nat) (b : Binding) : Option (Nat × Nat × Nat) :=
  let x := d.cell b.cell
  let needsQueue := !b.producer && ((sd.kind == skLoad && !sd.buffered) || sd.kind == skLink || sd.kind == skRemote)
  let f := forOf b.cell
  let total := n.foldl (· * ·) 1
  let d0 := if sd.buffered then d0Of sd n else 0
  let d1 := if sd.kind = skLoad ∧ sd.tier = 2 then d1Of sd n else 0
  let stage := match d.stageArea p with | some (_, m) => (findRun (d.stagesUsed p) m (2 * d1)).isSome | none => false
  let route := match b.out with
    | some o => (match outRec x.active b.tc o with
      | some r => r.b 6 == 0xFF || (match bankRec x.active rRouteSlot fun s => s.b 0 == r.b 6, d.activeImg p with
        | some s, some i => (d.routeEntry i (s.n 2 2)).isSome
        | _, _ => false)
      | none => true)
    | none => true
  let free := freeRun (d.buffersHeld b.cell) b.buf (sramTb x.active - b.buf)
  if needsQueue ∧ (queueRec x.active b.queue).isNone then some (0x0811, 1, 0)
  else if (x.tc b.tc).st = .unused then some (0x0812, 1, 0)
  else if sd.buffered ∧ free < 2 * d0 then some (0x0813, 2 * d0, free)
  else if !route then some (0x0815, 1, 0)
  else if (sd.kind = skLoad ∨ sd.kind = skStore ∨ (sd.spillable ∧ !b.producer)) ∧ 64 ≤ d.forUsed (combOf b.cell) f then some (0x0816, 1, 0)
  else if d1 ≠ 0 ∧ !stage then some (0x0817, 2 * d1, match d.stageArea p with | some (_, m) => m | none => 0)
  else if sd.spillable ∧ 16 * sd.spillDepth < total then some (0x0818, total, 16 * sd.spillDepth)
  else none

/-- Detail of a resource fault. -/
def resDetail (station stream need avail : Nat) : Nat := station % 65536 * 2 ^ 48 + stream * 2 ^ 32 + min need 0xFFFF * 2 ^ 16 + min avail 0xFFFF

/-- A bound register of comb k. -/
def Dev.bndOf (d : Dev) (k n : Nat) : Nat := (sget (fun _ => 0#32) d.fab.bnd (64 * k + n % 64)).toNat

/-- An issue that feeds a task context: its input has not ended; a steering context's construct starts, N and a BOUND selector being read (R58, R59). -/
def steerIssue (d : Dev) (k : Nat) (x : Cell) (t q : Nat) : Cell :=
  match steerRec x.active t with
  | some r =>
    let n := if bit (r.b 14) 7 then d.bndOf k (r.b 14 % 64) else r.n 12 2
    let y := x.tc t
    x.setTc t { y with inEnded := y.inEnded.filter (· != q), steer := ⟨y.steer.lastStream, if r.b 1 = q then 1 else y.steer.pass, y.steer.lastSeq, n, d.bndOf k (r.b 10)⟩ }
  | none => x.setTc t { x.tc t with inEnded := (x.tc t).inEnded.filter (· != q) }

/-- Register the issue of one binding. -/
def Dev.addIssue (d : Dev) (tok p desc : Nat) (sd : StreamDesc) (n : List Nat) (b : Binding) : Dev :=
  let usesFor := sd.kind = skLoad ∨ sd.kind = skStore ∨ (sd.spillable ∧ !b.producer)
  let d1 := if sd.kind = skLoad ∧ sd.tier = 2 then d1Of sd n else 0
  let stage := if d1 = 0 then none else match d.stageArea p with | some (_, m) => findRun (d.stagesUsed p) m (2 * d1) | none => none
  let que := if b.producer ∨ sd.buffered then 0xFF else b.queue
  let fgr : Option Nat := if usesFor then some (forOf b.cell) else none
  let i : Issue :=
    ⟨d.fab.nextToken, tok, p, combOf b.cell, b.cell, b.tc, desc, sd, n, que, b.buf, none, fgr, stage, 0, 0, 0, [], false, [], 0, false, false⟩
  let d0 := if b.producer then d else d.modCell b.cell fun x => steerIssue d (combOf b.cell) x b.tc b.queue
  let e : Dev := { d0 with fab := { d0.fab with issues := d0.fab.issues ++ [i], nextToken := d0.fab.nextToken + 1 } }
  match b.out with
  | some o => (e.modCell b.cell fun x => x.setTc b.tc ((x.tc b.tc).setOut o { (x.tc b.tc).out o with put := 0, ended := false })).wake b.cell (.output (16 * b.tc + o))
  | none => e

/-- The EMPTY tile with END_OF_STREAM of an issue: SEQ is its count (R104, R117, R120). -/
def Dev.eosTile (d : Dev) (i : Issue) : List Byte :=
  emptyTile i.sd.format 0 i.sd.streamId i.total (d.cell i.cell).gen.toNat (d.epochAt i.cell) true i.sd.speculative

/-! ### Foragers' writes (R147, R170, R179) -/

/-- A forager writes a tile slot of T1: outside the map, or in the area of a registered image, nothing is written and the step aborts. -/
def Dev.forWrite (d : Dev) (part a : Nat) (tile : List Byte) : Dev :=
  if !d.mapped a || !d.mapped (a + (tileBytes - 1)) then d.unmapped part a
  else if d.imageHit a tileBytes then d.stepFault part (d.curCtx part) (notice cRo 0x0941 a)
  else (d.charge part aT1 tileBytes).setBytes a tile

/-- An output has carried END_OF_STREAM: its issue delivers no more. A STORE issue ends when its last write is acknowledged. -/
def Dev.endOutput (d : Dev) (c t o : Nat) (i : Issue) : Dev :=
  let d1 := d.modCell c fun x => x.setTc t ((x.tc t).setOut o { (x.tc t).out o with ended := true })
  let d2 := d1.modIssue i.uid fun j => if j.sd.kind = skStore then (if j.landed = j.sent then j.finish else { j with eos := true }) else j.finish
  d2.tryDone c t

/-- A tile of a spillable stream that finds no credit, or earlier tiles spilled, goes to the spill area under its sequence number (R131). The extra EMPTY tile of
EOS_SEPARATE has the count as its number and so lies in the slot after the last, which may be past 16·SPILL_DEPTH slots (DESIGN CHOICE, log entry 87). -/
def Dev.spillTile (d : Dev) (i : Issue) (seq : Nat) (tile : List Byte) : Dev :=
  (d.forWrite i.part (i.sd.base + tileBytes * seq) (slotBytes tile)).modIssue i.uid fun j => { j with spilled := j.spilled ++ [seq] }

/-- The EMPTY tile that ends an issue beside its counted tiles: the extra one of EOS_SEPARATE once the count is reached (R120), the only one of a stream of zero extent
(R117). It goes out when a credit is held; that of a spillable stream is spilled instead of waiting (R131). -/
def Dev.trySeparate (d : Dev) (c t o : Nat) : Dev :=
  match d.outIssue c t o with
  | some i =>
    let y := (d.cell c).tc t
    if (i.sd.eosSeparate ∨ i.total = 0) ∧ (y.out o).put = i.total ∧ !(y.out o).ended then
      if i.sd.kind = skStore then d.endOutput c t o i
      else if 0 < (y.out o).credits ∧ i.spilled.isEmpty then (d.endOutput c t o i).sendTile c t o i (d.eosTile i)
      else if i.sd.spillable then (d.spillTile i i.total (d.eosTile i)).endOutput c t o i
      else d
    else d
  | none => d

/-! ### Landing -/

/-- Tiles that an issue delivers: its count, with the extra one of EOS_SEPARATE; one for a zero extent (R117, R120). -/
def Issue.deliveries (i : Issue) : Nat := if i.total = 0 then 1 else i.total + b2n i.sd.eosSeparate

/-- One more tile of an issue has landed; with the last one the issue has ended and its forager context is free (R181). -/
def Issue.landOne (i : Issue) : Issue := if i.landed + 1 = i.deliveries then { i.finish with landed := i.landed + 1 } else { i with landed := i.landed + 1 }

/-- The distinct tiles of each T0 block in order, with the block's number and the place in the block: the fetches of a BUFFERED LOAD. -/
def fetchList (sd : StreamDesc) (n : List Nat) : List (Nat × Nat × List Nat) :=
  ((walkBlocks sd n).flatten.zipIdx).flatMap fun b => ((distinctTiles sd b.1).zipIdx).map fun t => (b.2, t.2, t.1)

/-- The tile buffer of a fetch: the two sets serve the T0 blocks in turn (R111). -/
def Issue.bufOf (i : Issue) (pos : Nat) : Option Nat := ((fetchList i.sd i.counts)[pos]?).map fun q => i.buf + q.1 % 2 * d0Of i.sd i.counts + q.2.1

/-- Fetch `pos` of a BUFFERED LOAD has landed; with the last one its forager context and its staging slots are free (R181, R187). -/
def Issue.landFetch (i : Issue) (pos : Nat) : Issue :=
  let j := { i with landed := i.landed + 1, got := i.got ++ [pos] }
  if j.landed = (fetchList i.sd i.counts).length then { j with forager := none, stage := none } else j

/-- The BUFFERED LOAD and its fetch that a read out for a tile buffer belongs to. -/
def Dev.awaitingBuf (d : Dev) (c b : Nat) : Option (Issue × Nat) :=
  d.fab.issues.findSome? fun i =>
    if i.cell == c && i.sd.buffered && i.chain.isNone && !i.ended then
      ((List.range i.sent).find? fun pos => !i.got.contains pos && i.bufOf pos == some b).map fun pos => (i, pos)
    else none

/-- A tile lands in a tile buffer: unchecked, and whoever waits for its stream goes on. -/
def Dev.landBuf (d : Dev) (c b : Nat) (tile : List Byte) : Dev :=
  let e := (d.setBytes (bufAddr c b) (slotBytes tile)).modCell c fun z => { z with bufFresh := b :: z.bufFresh.filter (· != b) }
  match d.awaitingBuf c b with
  | some (i, pos) => (e.modIssue i.uid (Issue.landFetch · pos)).wake c (.queue (64 + i.buf))
  | none => e

/-- A READ_RESP lands in the queue slot (TAG bit 13 clear) or tile buffer (set) that TAG bits 5 to 0 name. One for a sequencer or a forager finds nothing there that
awaits it (R150, R179). -/
def opReadResp (p : Packet) (d : Dev) : Dev :=
  d.eject 3 p fun e =>
    let c := p.dst
    let x := e.cell c
    if toSeq c p.tag || toFor c p.tag then e
    else if bit p.tag 13 then e.landBuf c (p.tag % 64) p.payload
    else
      let y := x.queue p.queue
      match y.slots.find? (fun s => s.pos == p.tag % 64 && !s.landed) with
      | some s =>
        let e1 := e.setBytes (slotAddr x.active c p.queue s.pos) (slotBytes p.payload)
        let e2 := e1.modCell c fun z => z.setQueue p.queue { y with slots := y.slots.map fun r => if r.pos == s.pos then { r with landed := true, at_ := e.ps } else r }
        let e3 := match s.prod with
          | .forager tok => e2.modIssue tok Issue.landOne
          | _ => e2
        e3.wake c (.queue p.queue)
      | none => e

/-- A WRITE_ACK: to a forager it completes one write of a STORE issue, and a producer that the outstanding limit held goes on; to a cell one of the cell's own. -/
def opWriteAck (p : Packet) (d : Dev) : Dev :=
  d.eject 5 p fun e =>
    if toSeq p.dst p.tag then e
    else if toFor p.dst p.tag then
      match e.fab.issues.find? fun i => i.uid % 0x4000 == p.tag % 0x4000 with
      | some i =>
        let e1 := e.modIssue i.uid fun j =>
          let j1 := { j with landed := j.landed + 1 }
          if j1.eos && j1.landed == j1.sent then j1.finish else j1
        let e2 := e1.modCell i.cell fun x => { x with unacked := x.unacked - 1 }
        (e2.fab.issues.filter fun j => j.comb == i.comb && j.sd.kind == skStore && !j.ended && forOf j.cell == forOf i.cell).foldl (fun (z : Dev) j =>
          (outsOf (z.cell j.cell) j.tc).foldl (fun (w : Dev) o => w.wake j.cell (.output (16 * j.tc + o))) z) e2
      | none => e
    else e.modCell p.dst fun x => { x with unacked := x.unacked - 1 }

/-- The forager's share of a queue: the depth left by the cells that produce into it; with several producers the last share (log entry 26). -/
def forShare (x : Cell) (q : Nat) : Nat :=
  match queueRec x.active q with
  | some r => if r.b 2 ≤ 1 then r.b 1 else r.b (8 + (r.b 2 - 1))
  | none => 0

/-- Credits of a forager for the queues of a cell at a flip (R43). -/
def forCreditsOf (x : Cell) : Store Nat := (queueRecs x.active).foldl (fun m r => sput (fun _ => 0) m (r.b 0) (forShare x (r.b 0))) []
def Cell.forCredit (x : Cell) (q : Nat) : Nat := sget (fun _ => 0) x.forCredits q
def Cell.setForCredit (x : Cell) (q n : Nat) : Cell := { x with forCredits := sput (fun _ => 0) x.forCredits q n }

/-- Has a queue room and its forager a credit for one more tile? -/
def Dev.forMaySend (d : Dev) (c q : Nat) : Bool :=
  let x := d.cell c
  0 < x.forCredit q && (x.queue q).slots.length < queueDepth x.active q

/-- A forager spends a credit. -/
def Dev.spendFor (d : Dev) (c q : Nat) : Dev := d.modCell c fun x => x.setForCredit q (x.forCredit q - 1)

/-- The EMPTY tile with END_OF_STREAM of a LOAD goes into its queue when there is room and a credit; else its forager delivers it later. -/
def Dev.emptyLoad (d : Dev) (i : Issue) : Dev :=
  if d.forMaySend i.cell i.queue then
    let e := (d.spendFor i.cell i.queue).modIssue i.uid fun j => { j with sent := j.sent + 1 }.landOne
    e.landTile i.cell i.queue (d.eosTile i) (.forager i.uid) true
  else d

/-- A stream of zero extent delivers one EMPTY tile with END_OF_STREAM (R117): a LOAD into its queue, when there is room and a credit, or its first buffer, a producer on
its output, when it holds a credit; a STORE's forager writes nothing. -/
def Dev.issueEmpty (d : Dev) (tok p desc : Nat) (sd : StreamDesc) (n : List Nat) (b : Binding) : Dev :=
  let d1 := d.addIssue tok p desc sd n b
  if b.producer then match b.out with
    | some o => d1.trySeparate b.cell b.tc o
    | none => d1.modIssue d.fab.nextToken Issue.finish
  else if sd.kind = skLoad then
    match d1.fab.issues.find? fun i => i.uid == d.fab.nextToken with
    | some i =>
      if sd.buffered then
        let e := (d1.setBytes (bufAddr b.cell b.buf) (slotBytes (d1.eosTile i))).modCell b.cell fun z => { z with bufFresh := b.buf :: z.bufFresh.filter (· != b.buf) }
        (e.modIssue i.uid fun j => { j with sent := 1, landed := 1, got := [0], forager := none }).wake b.cell (.queue (64 + b.buf))
      else d1.emptyLoad i
    | none => d1
  else d1

/-- Every STREAM binding of a descriptor in a comb. -/
def Dev.bindings (d : Dev) (i : Img) (k desc : Nat) : List Binding :=
  (d.fab.cells.filter fun q => combOf q.1 == k).flatMap fun q =>
    (bankRecs q.2.active rStream fun r => r.n 0 2 == desc).filterMap fun r =>
      (d.desc i desc).map fun sd =>
        let pr := isProducer q.2 r.tc sd
        ⟨q.1, r.tc, r.b 2, r.b 3, pr, if pr then outputOf d i q.2 r.tc desc else none⟩

/-- The first failing dimension of the planned-maximum check. -/
def overMax (sd : StreamDesc) (n : List Nat) : Option Nat :=
  (List.range 6).find? fun k => (sd.dims.getD k ⟨0, 0, 0, false, 0, 0, 0⟩).max < n.getD k 0

/-- Take the resources of one binding: the device, or the cause and detail of the first that cannot be had. -/
def Dev.issueOne (d : Dev) (tok p desc : Nat) (sd : StreamDesc) (n : List Nat) (b : Binding) : Except (Nat × Nat) Dev :=
  match d.resourceCheck p sd n b with
  | some (cause, need, avail) => .error (cause, resDetail (stationOf (d.cell b.cell).active b.tc) sd.streamId need avail)
  | none => .ok (d.addIssue tok p desc sd n b)

/-- All bindings of an issue. -/
def Dev.issueAll (d : Dev) (tok p desc : Nat) (sd : StreamDesc) (n : List Nat) : List Binding → Except (Nat × Nat) Dev
  | [] => .ok d
  | b :: bs => match d.issueOne tok p desc sd n b with
    | .ok e => e.issueAll tok p desc sd n bs
    | .error f => .error f

/-- The checks of a REMOTE target that R334 and R343 add: the partition's domain, and a member of the participant set. -/
def Dev.remoteOk (d : Dev) (p : Nat) (sd : StreamDesc) : Bool :=
  sd.kind != skRemote || sd.producer == 0xFFFF ||
    ((d.rd (Reg.LNK_DOMAIN p)).toNat % 65536 != 0 &&
      (sd.base / 2 ^ 46 != 0 || match d.curCtx p with
        | some c => (sget (fun _ => []) d.lnk.participants c).contains (sd.base / 2 ^ 43 % 8)
        | none => false))

/-- SQ.ISSUE by sequencer sq of comb k (R116): the token it gets, and the device. A stream that fails a check delivers no tile and takes no resource. -/
def Dev.issueStream (d : Dev) (k sq desc : Nat) : Option (Nat × Dev) :=
  match d.partOfComb k with
  | none => none
  | some p =>
    match d.activeImg p with
    | none => none
    | some img =>
      match d.desc img desc with
      | none => none
      | some sd =>
        let planes := match (d.curCtx p).bind (d.geo p) with | some g => g.planes | none => 256
        let tok := d.fab.nextToken
        let bs := d.bindings img k desc
        let n := d.readCounts k sd
        let station := match bs.head? with | some b => stationOf (d.cell b.cell).active b.tc | none => 0xFFFF
        if sd.kind = skStore ∧ sd.tier = 2 then some (tok, d.issueFault k sq cRo 0x0809 (sd.streamId * 2 ^ 32))
        else
          match descCheck sd planes (d.footW img) (d.footH img) with
          | some c => some (tok, d.issueFault k sq cConfig 0x0803 (sd.streamId * 2 ^ 32 + c))
          | none =>
            if !d.remoteOk p sd then some (tok, d.issueFault k sq cConfig 0x0F25 (sd.streamId * 2 ^ 32))
            else if n.contains 0 then some (tok, bs.foldl (fun e b => e.issueEmpty tok p desc sd n b) d)
            else
              match overMax sd n with
              | some dim =>
                let q := sd.dims.getD dim ⟨0, 0, 0, false, 0, 0, 0⟩
                let d1 := d.upd [(Reg.MEM_BND_LAST p, Fld.MEM_BND_LAST_STREAM_ID, sd.streamId), (Reg.MEM_BND_LAST p, Fld.MEM_BND_LAST_DIM, dim),
                  (Reg.MEM_BND_LAST p, Fld.MEM_BND_LAST_COUNT_SAT, min (n.getD dim 0) 0xFFFF)]
                some (tok, d1.issueFault k sq cBounds 0x0805 (station * 2 ^ 48 + sd.streamId * 2 ^ 32 + dim * 2 ^ 29 + b2n q.srcBnd * 2 ^ 28 +
                  (if q.srcBnd then q.srcIdx * 2 ^ 22 else 0) + q.max))
              | none =>
                match d.issueAll tok p desc sd n bs with
                | .ok e => some (tok, e)
                | .error (cause, detail) => some (tok, d.issueFault k sq cResource cause detail)

/-! ### Foragers (R179 to R184) -/

/-- The distinct tiles of each T1 block in order, with the block's number and the place in the block. -/
def copyList (sd : StreamDesc) (n : List Nat) : List (Nat × Nat × List Nat) :=
  ((walkBlocks sd n).zipIdx).flatMap fun b => ((distinctTiles sd b.1.flatten).zipIdx).map fun t => (b.2, t.2, t.1)

/-- The T0 block that holds delivery m, and the T1 block that holds tile index i. -/
def blockOfDelivery (sd : StreamDesc) (n : List Nat) (m : Nat) : Nat :=
  ((walkBlocks sd n).flatten.zipIdx.flatMap fun b => b.1.map fun _ => b.2).getD m 0
def t1BlockOf (sd : StreamDesc) (n : List Nat) (i : List Nat) : Nat := ((walkBlocks sd n).findIdx? fun b => b.flatten.contains i).getD 0

/-- The next transfer of an issue. -/
inductive Transfer where
  | none
  | copy (src dst : Nat)
  | queueRead (i : List Nat) (last : Bool)
  | bufRead (i : List Nat) (buf : Nat)
  | eos
  | spill (src : Nat) (seq : Nat)
  deriving DecidableEq, Repr

/-- The producing issue whose spilled tiles a consumer's issue takes next (R131): its number, output and first spilled sequence number. It needs a credit
of that producer, and no earlier tile of the output may still be in the mesh, so that tiles arrive in SEQ order. -/
def Dev.spillOf (d : Dev) (i : Issue) : Option (Issue × Nat × Nat) :=
  match d.activeImg i.part with
  | none => none
  | some img =>
    d.fab.issues.findSome? fun j =>
      if j.part == i.part && j.descIdx == i.descIdx then
        match j.spilled, outputOf d img (d.cell j.cell) j.tc j.descIdx with
        | q :: _, some o =>
          match outRec (d.cell j.cell).active j.tc o with
          | some r =>
            if outCell j.cell r == i.cell && r.b 4 == i.queue && 0 < (((d.cell j.cell).tc j.tc).out o).credits &&
                !d.fab.transit.any (fun z => z.flit.kind == 1#8 && z.src == j.cell && z.dst == i.cell && z.tag == 16 * j.tc + o)
              then some (j, o, q) else none
          | none => none
        | _, _ => none
      else none

/-- Where a tile of an issue from T2 rests in the staging area. -/
def Dev.stagedAddr (d : Dev) (i : Issue) (t : List Nat) : Nat :=
  match i.stage, d.stageArea i.part with
  | some s, some (a, _) =>
    match (copyList i.sd i.counts).find? fun q => tileKey i.sd q.2.2 == tileKey i.sd t && q.1 == t1BlockOf i.sd i.counts t with
    | some (u, k, _) => a + tileBytes * (s + u % 2 * d1Of i.sd i.counts + k)
    | none => 0
  | _, _ => 0

/-- Is the tile's copy in the staging area yet? -/
def staged (i : Issue) (t : List Nat) : Bool :=
  i.sd.tier != 2 ||
    match (copyList i.sd i.counts).findIdx? fun q => tileKey i.sd q.2.2 == tileKey i.sd t && q.1 == t1BlockOf i.sd i.counts t with
    | some k => k < i.copied
    | none => true

def Dev.nextTransfer (d : Dev) (i : Issue) : Transfer :=
  let n := i.counts
  let x := d.cell i.cell
  if i.ended then .none
  else if i.sd.kind = skLoad then
    let total := i.total
    let copyNext : Transfer :=
      if i.sd.tier = 2 then
        match (copyList i.sd n)[i.copied]? with
        | some (u, _, t) =>
          let nextLands := if i.sd.buffered then ((fetchList i.sd n)[i.landed]?).map (·.2.2) else (walk i.sd n)[i.landed]?
          let here := match nextLands with | some v => t1BlockOf i.sd n v | none => 0
          if u < here + 2 then .copy (tileAddr i.sd t) (d.stagedAddr i t) else .none
        | none => .none
      else .none
    if i.sd.buffered then
      match (fetchList i.sd n)[i.sent]? with
      | some (b, k, t) =>
        if blockOfDelivery i.sd n i.taken + 2 ≤ b then copyNext
        else if staged i t then .bufRead t (i.buf + b % 2 * d0Of i.sd n + k) else copyNext
      | none => .none
    else if i.sent < total then
      match (walk i.sd n)[i.sent]? with
      | some t =>
        if staged i t then
          (if d.forMaySend i.cell i.queue then .queueRead t (i.sent + 1 == total && !i.sd.eosSeparate) else .none)
        else copyNext
      | none => .none
    else if i.sent < i.deliveries ∧ d.forMaySend i.cell i.queue then .eos
    else .none
  else if i.sd.kind = skLink then
    match d.spillOf i with
    | some (j, _, q) => if i.queue < 16 ∧ (x.queue i.queue).slots.length < queueDepth x.active i.queue then .spill j.uid q else .none
    | none => .none
  else .none

/-- Transfers outstanding of an issue: reads not landed, writes not acknowledged (R182). -/
def Issue.outstanding (i : Issue) : Nat := if i.sd.kind = skLoad ∨ i.sd.kind = skStore then i.sent - i.landed else 0

/-- Transfers that forager f of comb k has outstanding, and its limit (R182). -/
def Dev.forBusy (d : Dev) (k f : Nat) : Nat := (d.fab.issues.filter fun i => i.comb == k && forOf i.cell == f && i.chain.isNone).foldl (fun a i => a + i.outstanding) 0
def Dev.forLimit (d : Dev) (k f : Nat) : Nat := d.rf (Reg.MEM_FQ_LIMIT (16 * k + f)) Fld.MEM_FQ_LIMIT_LIMIT

/-- The issue that forager f of comb k serves next: a demand transfer first, then the oldest issue that has a transfer (R183). -/
def Dev.nextFor (d : Dev) (k f : Nat) : Option (Issue × Bool) :=
  let l := d.fab.issues.filter fun i => i.comb == k && i.forager == some f && d.nextTransfer i != .none
  let busy := d.forBusy k f
  let limit := d.forLimit k f
  match l.find? (·.demand) with
  | some i => if busy < limit + 4 then some (i, true) else none
  | none => if busy < limit then l.head?.map fun i => (i, false) else none

/-- Send a READ_REQ for a tile at an address: it names the landing cell and, in QUEUE and TAG, where the tile lands. -/
def Dev.sendRead (d : Dev) (i : Issue) (a tag : Nat) : Dev :=
  let port := forCell i.comb (forOf i.cell)
  let m := memPort a i.cell
  let q : Packet := (mkPkt 2 (d.cell i.cell).gen.toNat (cellAt m.1 m.2.1) i.cell tag a []).withTc i.tc (if i.queue < 16 then i.queue else 0)
  d.inject port (q.withEject m.2.2)

/-- The address of a LOAD's tile: staged, resolved through the block table, or in place. -/
def Dev.loadAddr (d : Dev) (i : Issue) (t : List Nat) : KvRes :=
  if i.sd.blocked then
    match d.curCtx i.part with
    | some c => d.kvFind i.part c (t.getD 5 0) (t.getD 1 0) (i.sd.base % 256) (((t.getD 0 0 : Nat) : Int) * (i.sd.dims.getD 0 ⟨0, 0, 0, false, 0, 0, 0⟩).stride).toNat
    | none => .empty
  else if i.sd.tier = 2 then .addr (d.stagedAddr i t) 0
  else .addr (tileAddr i.sd t) 0

/-- A tile failure stops the step and is remembered for R255. -/
def Dev.tileFault (d : Dev) (cell cls cause detail : Nat) (key : TileKey) : Dev :=
  let c? := (d.partOfComb (combOf cell)).bind d.curCtx
  let old := c?.bind fun c => (d.att c).lastTile
  let oldN := match c? with | some c => (d.att c).tileFails | none => 0
  let e := d.cellFault cell cls cause detail
  match c? with
  | some c =>
    if d.executing c ∧ !e.executing c then
      e.modAtt c fun a => { a with lastTile := some key, tileFails := if old = some key then oldN + 1 else 1 }
    else e
  | none => e

def Dev.kvFault (d : Dev) (cell : Nat) : KvRes → Dev
  | .badGen b n => d.tileFault cell cTileCheck 0x0B11 (b * 2 ^ 24 + n) ⟨65536, b, 2, b⟩
  | .badTier b => d.cellFault cell cConfig 0x0B13 (b * 2 ^ 24)
  | _ => d

/-- Is a transfer the read of a tile into T0? -/
def isRead : Transfer → Bool
  | .queueRead _ _ => true
  | .bufRead _ _ => true
  | _ => false

/-- FORAGER_TRANSFER_SEND: one transfer of forager f of comb k. The demand mark is spent by the read that it marks (R184); a copy into staging that the read needs
goes first. -/
def opForager (k f : Nat) (d : Dev) : Dev :=
  match d.nextFor k f with
  | none => d
  | some (i, demand) =>
    let go := d.nextTransfer i
    let d0 := if demand && isRead go then (d.bump (Reg.MEM_DEMAND k) 1).modIssue i.uid fun j => { j with demand := false } else d
    let x := d0.cell i.cell
    let g := x.gen.toNat
    match go with
    | .none => d0
    | .copy src dst =>
      let d1 := if d0.mapped src then ((d0.chargeMem i.part src tileBytes).meetErrors src tileBytes).forWrite i.part dst (d0.bytes src tileBytes) else d0.unmapped i.part src
      d1.modIssue i.uid fun j => { j with copied := j.copied + 1 }
    | .queueRead t last =>
      let y := x.queue i.queue
      let depth := queueDepth x.active i.queue
      match d0.loadAddr i t with
      | .addr a _ =>
        let d1 := (d0.spendFor i.cell i.queue).modIssue i.uid fun j => { j with sent := j.sent + 1 }
        let d2 := d1.modCell i.cell fun z => z.setQueue i.queue ⟨(y.next + 1) % depth, y.slots ++ [⟨y.next, .forager i.uid, false, last, 0⟩]⟩
        d2.sendRead i a y.next
      | .empty =>
        let tile := emptyTile i.sd.format 0 i.sd.streamId i.sent g (d0.epochAt i.cell) last i.sd.speculative
        let d1 := (d0.spendFor i.cell i.queue).modIssue i.uid fun j => { j with sent := j.sent + 1 }.landOne
        d1.landTile i.cell i.queue tile (.forager i.uid) last
      | r => d0.kvFault i.cell r
    | .bufRead t b =>
      match d0.loadAddr i t with
      | .addr a _ => (d0.modIssue i.uid fun j => { j with sent := j.sent + 1 }).sendRead i a (0x2000 + b)
      | .empty =>
        let tile := emptyTile i.sd.format 0 i.sd.streamId 0 g (d0.epochAt i.cell) false i.sd.speculative
        (d0.modIssue i.uid fun j => { j with sent := j.sent + 1 }).landBuf i.cell b tile
      | r => d0.kvFault i.cell r
    | .eos => d0.emptyLoad i
    | .spill _ q =>
      match d0.spillOf i with
      | some (j, o, _) =>
        let tile := d0.bytes (i.sd.base + tileBytes * q) tileWire
        let eos := (hdrOf tile).eos
        let d1 := (d0.charge i.part aT1 tileBytes).modIssue j.uid fun z => { z with spilled := z.spilled.drop 1 }
        let d2 := d1.modIssue i.uid fun z =>
          let z1 := { z with landed := z.landed + 1 }
          if eos then z1.finish else z1
        let d3 := d2.modCell j.cell fun z => z.setTc j.tc ((z.tc j.tc).setOut o { (z.tc j.tc).out o with credits := ((z.tc j.tc).out o).credits - 1 })
        d3.landTile i.cell i.queue tile (.cell j.cell (16 * j.tc + o)) eos
      | none => d0

/-- FQ_LIMIT_WRITE: values 1 to 64 take effect for later transfers (R182). -/
def opFqLimit (v k f val : Nat) (d : Dev) : Dev :=
  let off := Reg.MEM_FQ_LIMIT (16 * k + f)
  match d.ownerOf k with
  | some p =>
    if d.sealed p then d.lockRec v p off
    else if (v = 0 ∨ v = p + 1) ∧ 1 ≤ val % 128 ∧ val % 128 ≤ 64 then d.wr off (BitVec.ofNat 64 (val % 128)) else d
  | none => if v = 0 ∧ 1 ≤ val % 128 ∧ val % 128 ≤ 64 then d.wr off (BitVec.ofNat 64 (val % 128)) else d

def execReadResp (p : Packet) (s : State) : Host.Outcome State Fault Refusal := done s (opReadResp p s.dev)
def execWriteAck (p : Packet) (s : State) : Host.Outcome State Fault Refusal := done s (opWriteAck p s.dev)
def execForagerTransferSend (k : CombIdx) (f : ForIdx) (s : State) : Host.Outcome State Fault Refusal := done s (opForager k f s.dev)
def execFqLimitWrite (v : View) (k : CombIdx) (f : ForIdx) (val : Word) (s : State) : Host.Outcome State Fault Refusal :=
  hostDone s (Reg.MEM_FQ_LIMIT (16 * k + f)) (opFqLimit v k f val.toNat)

end Sys2Proof.Machine
end

