-- ==== Sys2Proof/Machine/CellProg.lean ====
section
/-!
DEFINITION. Cell programs (R141): operands, the operations of Table 3-8, moves between queues, buffers, registers and banks, chains (R74 to R84, R121 to
R123), and the end of a program.
-/
namespace Sys2Proof.Machine

/-! ### The issue slot -/

/-- The word of an instruction (R141). -/
def cellWord (opc : Nat) (o : CellOps) : Nat :=
  opc * 2 ^ 56 + o.d.toNat * 2 ^ 50 + o.a.toNat * 2 ^ 44 + o.b.toNat * 2 ^ 38 + o.c.toNat * 2 ^ 32 + o.imm.toNat

/-- Change a task context of a cell. -/
def Dev.modTc (d : Dev) (c t : Nat) (f : Tc → Tc) : Dev := d.modCell c fun x => x.setTc t (f (x.tc t))

/-- Does task context t of cell c hold the issue slot with this word next? -/
def Dev.issues (d : Dev) (c t opc : Nat) (o : CellOps) : Bool :=
  let x := d.cell c
  (x.tc t).st == .running && programWord x.active t (x.tc t).pc == some (cellWord opc o)

/-- Issue an instruction: one active cycle, and progress for the watchdog. An instruction that is not the next word of a running task context does not
issue (log entry 27). -/
def Dev.cellRun (d : Dev) (c t opc : Nat) (o : CellOps) (body : Dev → Dev) : Dev :=
  if d.issues c t opc o then body (((d.dbg c (Reg.DBG_CYC_ACTIVE c) 1).chargeCell c).modTc c t fun y => { y with since := d.ps }) else d

/-- The task context goes on with the next word. -/
def Dev.next (d : Dev) (c t : Nat) : Dev := d.modTc c t fun y => { y with pc := y.pc + 1 }

/-- The task context leaves the issue slot to wait; the instruction issues again when it is READY and its turn comes. The watchdog times the wait from here (R61). -/
def Dev.tcWait (d : Dev) (c t : Nat) (st : TcState) (w : Wait) : Dev := (d.modTc c t fun y => { y with st := st, wait := w, since := d.ps }).pick c

/-! ### Operands -/

/-- What an operand code names. -/
inductive Opnd where
  | vreg (n : Nat)
  | sreg (n : Nat)
  | bank (n : Nat)
  | buf (n : Nat)
  | imm
  | none
  | undef
  deriving DecidableEq, Repr

/-- Resolve an operand code of task context t (R34, R35, R141). -/
def opnd (x : Cell) (t code imm : Nat) : Opnd :=
  match tcSetup x.active t with
  | some r =>
    if code < 32 then (if code < r.b 3 ∧ r.b 2 + code < 32 then .vreg (r.b 2 + code) else .undef)
    else if code < 48 then .sreg (code - 32)
    else if code < 50 then (if bit (r.b 4) (code - 48) then .bank (code - 48) else .undef)
    else if code = 50 then (if imm / 256 % 256 < sramTb x.active then .buf (imm / 256 % 256) else .undef)
    else if code = 51 then .imm
    else if code = 63 then .none
    else .undef
  | Option.none => .undef

/-- The header of a tile buffer. -/
def Dev.bufHdr (d : Dev) (c b : Nat) : Hdr := hdrOf (d.bytes (bufAddr c b) 64)

/-- Rows and columns that an operand gives to an element-wise operation; none for one that is broadcast. A tile gives its valid extents, an EMPTY tile
none of them (R104). -/
def Dev.extent (d : Dev) (c : Nat) : Opnd → Option (Nat × Nat)
  | .vreg _ => some (1, 64)
  | .bank _ => some (64, 64)
  | .buf b => let h := d.bufHdr c b; if h.empty then some (0, 0) else if hdrValid h then some (hdrRows h, hdrCols h) else some (0, 0)
  | _ => Option.none

/-- The code of one element of a tile buffer (R99). -/
def Dev.bufElem (d : Dev) (c b : Nat) (h : Hdr) (r k : Nat) : Nat :=
  match fmtShape h.format with
  | some (w, _, _) =>
    let e := (r * (tileShape h.format h.kaxis).2 + k) * w
    d.num (bufAddr c b + 320 + e / 8) 5 / 2 ^ (e % 8) % 2 ^ w
  | Option.none => 0

/-- Write one element code of a tile buffer. -/
def Dev.setBufElem (d : Dev) (c b : Nat) (h : Hdr) (r k v : Nat) : Dev :=
  match fmtShape h.format with
  | some (w, _, _) =>
    let e := (r * (tileShape h.format h.kaxis).2 + k) * w
    let a := bufAddr c b + 320 + e / 8
    let old := d.num a 5
    d.setNum a 5 (old - old / 2 ^ (e % 8) % 2 ^ w * 2 ^ (e % 8) + v % 2 ^ w * 2 ^ (e % 8))
  | Option.none => d

/-- The scale byte of the block that holds an element (R100). -/
def Dev.bufScale (d : Dev) (c b : Nat) (h : Hdr) (r k : Nat) : Nat :=
  match fmtShape h.format with
  | some (_, kt, _) =>
    let line := if h.kaxis = 0 then r else k
    let red := if h.kaxis = 0 then k else r
    (d.byte (bufAddr c b + 64 + line * (kt / 32) + red / 32)).toNat
  | Option.none => 0

/-- One element of an operand. An operand that the manual leaves undefined reads as a free value. A summary register whose valid flag is 0 reads as the value it
holds, and the instruction does not wait: only WAITSUM and a SUMMARY selector do (DESIGN CHOICE, log entry 86). -/
def Dev.elem (d : Dev) (c t imm : Nat) (p : Opnd) (r k : Nat) : W32 :=
  let x := d.cell c
  match p with
  | .vreg n => sget (fun _ => 0#32) x.vregs (64 * n + k)
  | .sreg n => ((x.tc t).sum n).val
  | .bank n => sget (fun _ => 0#32) x.acc (4096 * n + 64 * r + k)
  | .buf b => BitVec.ofNat 32 (d.bufElem c b (d.bufHdr c b) r k)
  | .imm => BitVec.ofNat 32 imm
  | .none => Config.freeElem d.fresh r k
  | .undef => Config.freeElem d.fresh r k

/-- Write one element of a result; an operand that cannot hold it takes nothing. A summary register becomes valid and not EMPTY (R36, R90). -/
def Dev.setElem (d : Dev) (c t : Nat) (p : Opnd) (r k : Nat) (v : W32) : Dev :=
  match p with
  | .vreg n => d.modCell c fun x => { x with vregs := sput (fun _ => 0#32) x.vregs (64 * n + k) v }
  | .sreg n => d.modTc c t fun y => y.setSum n ⟨v, true, false⟩
  | .bank n => d.modCell c fun x => { x with acc := sput (fun _ => 0#32) x.acc (4096 * n + 64 * r + k) v }
  | .buf b => d.setBufElem c b (d.bufHdr c b) r k v.toNat
  | _ => d

/-- Does an operand read as a free value? -/
def isFree : Opnd → Bool
  | .none => true
  | .undef => true
  | _ => false

/-! ### Tiles at first use (R103) -/

/-- What R255 remembers of a failing tile: a weight tile from T2 by its address, a KV tile by its block, any other by stream and SEQ. -/
def Dev.keyOf (d : Dev) (i : Option Issue) (h : Hdr) : TileKey :=
  match i with
  | some j =>
    match (walk j.sd j.counts)[h.seq]? with
    | some t =>
      if j.sd.blocked then
        match d.loadAddr j t with
        | .addr _ b => ⟨h.streamId, h.seq, 2, b⟩
        | _ => ⟨h.streamId, h.seq, 0, 0⟩
      else if j.sd.kind = skLoad ∧ j.sd.tier = 2 then ⟨h.streamId, h.seq, 1, tileAddr j.sd t⟩
      else ⟨h.streamId, h.seq, 0, 0⟩
    | Option.none => ⟨h.streamId, h.seq, 0, 0⟩
  | Option.none => ⟨h.streamId, h.seq, 0, 0⟩

/-- Check a tile that task context t of cell c uses for the first time: none when it passes, else the device after the fault. -/
def Dev.checkTile (d : Dev) (c t : Nat) (i : Option Issue) (tile : List Byte) : Option Dev :=
  let h := hdrOf tile
  let detail := stationOf (d.cell c).active t * 2 ^ 48 + h.streamId * 2 ^ 16 + h.seq % 65536
  if !tileCrcOk tile then some (d.tileFault c cTileCheck 0x0801 detail (d.keyOf i h))
  else if !hdrValid h then some (d.tileFault c cTileCheck 0x0802 detail (d.keyOf i h))
  else
    match i with
    | some j =>
      if h.format != j.sd.format then some (d.cellFault c cConfig 0x0804 (j.sd.streamId * 2 ^ 32 + h.format * 256 + j.sd.format)) else Option.none
    | Option.none => Option.none

/-- The BUFFERED LOAD whose tile buffer b holds, and which of its fetches that tile is: the newest that landed there. -/
def Dev.bufIssue (d : Dev) (c b : Nat) : Option (Issue × Nat) :=
  d.fab.issues.reverse.findSome? fun i =>
    if i.cell == c && i.chain.isNone && i.sd.buffered then (i.got.reverse.find? fun pos => i.bufOf pos == some b || i.total == 0 && i.buf == b).map fun pos => (i, pos)
    else Option.none

/-- An unchecked tile buffer is checked: the device with the buffer checked, or the device after the fault. -/
def Dev.checkBuf (d : Dev) (c t b : Nat) : Except Dev Dev :=
  if (d.cell c).bufFresh.contains b then
    match d.checkTile c t ((d.bufIssue c b).map (·.1)) (d.bytes (bufAddr c b) tileWire) with
    | some e => .error e
    | Option.none => .ok (d.modCell c fun x => { x with bufFresh := x.bufFresh.filter (· != b) })
  else .ok d

/-- The walk of a BUFFERED LOAD has come to the tile of fetch `pos`: its forager may fill the set of buffers that the block before held. When no tile of the last block
is unused the stream has been delivered (DESIGN CHOICE, log entry 86). -/
def Dev.walkTo (d : Dev) (c : Nat) (i : Issue) (pos : Nat) : Dev :=
  let l := fetchList i.sd i.counts
  let w := (walk i.sd i.counts).zipIdx
  match l[pos]? with
  | some q =>
    let m := ((w.find? fun v => blockOfDelivery i.sd i.counts v.2 == q.1 && tileKey i.sd v.1 == tileKey i.sd q.2.2).map (·.2)).getD 0
    let unused := (List.range l.length).any fun z => !i.got.contains z || ((i.bufOf z).any fun b => (d.cell c).bufFresh.contains b)
    d.modIssue i.uid fun j => if unused then { j with taken := max j.taken m } else { j.finish with taken := j.total }
  | Option.none => d

/-- First use of a tile buffer by an instruction (R103): it is checked, and the walk of the stream that filled it goes on. -/
def Dev.useBuf (d : Dev) (c t b : Nat) : Except Dev Dev :=
  if (d.cell c).bufFresh.contains b then
    match d.checkBuf c t b with
    | .error e => .error e
    | .ok e => match d.bufIssue c b with
      | some (i, pos) => .ok (if i.ended then e else e.walkTo c i pos)
      | Option.none => .ok e
  else .ok d

/-- Check the tile buffers among some operands, in order. -/
def Dev.useOpnds (d : Dev) (c t : Nat) : List Opnd → Except Dev Dev
  | [] => .ok d
  | .buf b :: ps =>
    match d.useBuf c t b with
    | .ok e => e.useOpnds c t ps
    | .error e => .error e
  | _ :: ps => d.useOpnds c t ps

/-! ### Element-wise operations -/

def minExt : List (Option (Nat × Nat)) → Option (Nat × Nat)
  | [] => Option.none
  | Option.none :: l => minExt l
  | some e :: l => match minExt l with
    | some f => some (min e.1 f.1, min e.2 f.2)
    | Option.none => some e

def cells2 (rows cols : Nat) : List (Nat × Nat) := (List.range rows).flatMap fun r => (List.range cols).map fun k => (r, k)

/-- An element-wise operation: each element that the result and every source that is not broadcast have (log entry 28). -/
def Dev.elemOp (d : Dev) (c t : Nat) (o : CellOps) (srcs : List (BitVec 6)) (f : List W32 → W32) : Dev :=
  let x := d.cell c
  let imm := o.imm.toNat
  let dst := opnd x t o.d.toNat imm
  let ps := srcs.map fun s => opnd x t s.toNat imm
  match d.useOpnds c t ps with
  | .error e => e
  | .ok d1 =>
    let ext := (minExt ((match dst with | .sreg _ => some (1, 1) | p => d1.extent c p) :: ps.map (d1.extent c))).getD (0, 0)
    let d2 := (cells2 ext.1 ext.2).foldl (fun e q => e.setElem c t dst q.1 q.2 (f (ps.map fun p => d1.elem c t imm p q.1 q.2))) d1
    let d3 := if ps.any isFree then d2.drawn else d2
    d3.next c t

def un (f : W32 → W32) : List W32 → W32
  | a :: _ => f a
  | [] => 0
def bin (f : W32 → W32 → W32) : List W32 → W32
  | a :: b :: _ => f a b
  | _ => 0
def tern (f : W32 → W32 → W32 → W32) : List W32 → W32
  | a :: b :: c :: _ => f a b c
  | _ => 0

def opUn (opc : Nat) (f : W32 → W32) (c t : Nat) (o : CellOps) (d : Dev) : Dev := d.cellRun c t opc o fun e => e.elemOp c t o [o.a] (un f)
def opBin (opc : Nat) (f : W32 → W32 → W32) (c t : Nat) (o : CellOps) (d : Dev) : Dev := d.cellRun c t opc o fun e => e.elemOp c t o [o.a, o.b] (bin f)
def opTern (opc : Nat) (f : W32 → W32 → W32 → W32) (c t : Nat) (o : CellOps) (d : Dev) : Dev :=
  d.cellRun c t opc o fun e => e.elemOp c t o [o.a, o.b, o.c] (tern f)

def shiftCount (b : W32) : Nat := b.toNat % 32
def selOp (a b m : W32) : W32 := if m != 0 then a else b
def fpCmpOp (o : CellOps) (a b : W32) : W32 := maskOf (fpCmp (condOf (o.imm.toNat % 4)) (f32 a) (f32 b))
def intCmpOp (o : CellOps) (a b : W32) : W32 := maskOf (intCmp (condOf (o.imm.toNat % 4)) a.toInt b.toInt)
def fpSub (a b : Fp) : Fp := fpAdd a (fpNeg b)

/-! ### Broadcast and reductions (R88, R89, R90) -/

/-- The five operations of BROW and BCOL. -/
def bcastOp (f : Nat) : W32 → W32 → W32 := if f = 0 then f32Add else if f = 1 then f32Sub else if f = 2 then f32Mul else if f = 3 then f32Min else f32Max

/-- BROW (dir 0) and BCOL (dir 1): A is the tile or bank, B the vector. -/
def opBcast (dir f c t : Nat) (o : CellOps) (d : Dev) : Dev :=
  d.cellRun c t (0x80 + 5 * dir + f) o fun d0 =>
    let x := d0.cell c
    let imm := o.imm.toNat
    let dst := opnd x t o.d.toNat imm
    let pa := opnd x t o.a.toNat imm
    let pb := opnd x t o.b.toNat imm
    match d0.useOpnds c t [pa, pb] with
    | .error e => e
    | .ok d1 =>
      let ext := (minExt [d1.extent c dst, d1.extent c pa]).getD (0, 0)
      let d2 := (cells2 ext.1 ext.2).foldl (fun e q =>
        e.setElem c t dst q.1 q.2 (bcastOp f (d1.elem c t imm pa q.1 q.2) (d1.elem c t imm pb 0 (if dir = 0 then q.2 else q.1)))) d1
      let d3 := if isFree pa || isFree pb then d2.drawn else d2
      d3.next c t

/-- Reduce a list of elements: 0 sum by T, 1 maximum, 2 minimum; over no elements Table 3-9, with its EMPTY flag. -/
def reduce (f : Nat) (l : List W32) : W32 × Bool :=
  if f = 0 then (tree l, false)
  else
    match l with
    | [] => (toF32 (.inf (f == 1)), true)
    | a :: as => (as.foldl (fun m v => if f = 1 then f32Max m v else f32Min m v) (toF32 (f32 a)), false)

/-- Set the EMPTY flag of a result that holds no elements. -/
def Dev.setEmpty (d : Dev) (c t : Nat) (p : Opnd) (b : Bool) : Dev :=
  match p with
  | .sreg n => if b then d.modTc c t fun y => y.setSum n { y.sum n with empty := true } else d
  | .buf n => let h := d.bufHdr c n; d.setBytes (bufAddr c n + 4) (hdrTail { h with empty := b })
  | _ => d

/-- Tile reductions: rows (dir 0) over the valid columns, columns (dir 1) over the valid rows; IMM[6:0] is the valid count. -/
def opTileReduce (dir f c t : Nat) (o : CellOps) (d : Dev) : Dev :=
  d.cellRun c t (0x90 + 3 * dir + f) o fun d0 =>
    let x := d0.cell c
    let imm := o.imm.toNat
    let dst := opnd x t o.d.toNat imm
    let pa := opnd x t o.a.toNat imm
    match d0.useOpnds c t [pa] with
    | .error e => e
    | .ok d1 =>
      let ext := (d1.extent c pa).getD (1, 1)
      let n := min (imm % 128) (if dir = 0 then ext.2 else ext.1)
      let m := if dir = 0 then ext.1 else ext.2
      let m' := match dst with | .sreg _ => min m 1 | _ => min m 64
      let line := fun (r : Nat) => reduce f ((List.range n).map fun k => if dir = 0 then d1.elem c t imm pa r k else d1.elem c t imm pa k r)
      let rows := if m' = 0 then 1 else m'
      let d2 := (List.range rows).foldl (fun e r => e.setElem c t dst 0 r (line r).1) d1
      let d3 := d2.setEmpty c t dst (n == 0 && f != 0)
      let d4 := if isFree pa then d3.drawn else d3
      d4.next c t

/-- Is a greater than b where a NaN counts as greater than every number (R89)? -/
def argLt (a b : W32) : Bool :=
  match f32 a, f32 b with
  | .nan, _ => false
  | _, .nan => true
  | x, y => fpLt x y

/-- The lowest index of the greatest (or least) element. -/
def argBest (least : Bool) (l : List W32) : Option Nat :=
  (l.zipIdx.foldl (fun (b : Option (W32 × Nat)) v =>
    match b with
    | Option.none => some v
    | some w => if (if least then argLt v.1 w.1 else argLt w.1 v.1) then some v else some w) Option.none).map (·.2)

/-- Scalar reductions over lanes 0 to c − 1: VSUM, VMAX, VMIN, VARGMAX, VARGMIN. -/
def opScalar (f c t : Nat) (o : CellOps) (d : Dev) : Dev :=
  d.cellRun c t (0xA0 + f) o fun d0 =>
    let x := d0.cell c
    let imm := o.imm.toNat
    let dst := opnd x t o.d.toNat imm
    let pa := opnd x t o.a.toNat imm
    match d0.useOpnds c t [pa] with
    | .error e => e
    | .ok d1 =>
      let n := min (min (imm % 128) 64) ((d1.extent c pa).getD (1, 1)).2
      let l := (List.range n).map fun k => d1.elem c t imm pa 0 k
      let r : W32 × Bool :=
        if f < 3 then reduce f l
        else match argBest (f == 4) l with
          | some k => (BitVec.ofNat 32 k, false)
          | Option.none => (0xFFFFFFFF#32, true)
      let d2 := (d1.setElem c t dst 0 0 r.1).setEmpty c t dst r.2
      let d3 := if isFree pa then d2.drawn else d2
      d3.next c t

/-! ### CONVERT (R72, R73) -/

/-- The value of an element code in a format, with its block's scale; none for a code without a floating-point value. -/
def codeValue (fmt scale code : Nat) : Option Fp :=
  if fmt = 0x01 then some (fpDecode fmtFP32 code)
  else if fmt = 0x02 then some (fpDecode fmtBF16 code)
  else if fmt = 0x03 then some (fpDecode fmtFP16 code)
  else if fmt = 0x20 then let i := (BitVec.ofNat 32 code).toInt; some (.fin (i < 0) i.natAbs 0)
  else (mxFmt fmt).map fun m => mxValue m scale code

/-- Is the pair a row of Table 3-4 or a conversion of R72? -/
def convertible (src dst : Nat) : Bool :=
  (src == 0x01 && (dst == 0x02 || dst == 0x03 || dst == 0x20 || dst == 0x21 || (mxFmt dst).isSome)) ||
  (dst == 0x01 && (src == 0x02 || src == 0x03 || src == 0x20 || (mxFmt src).isSome)) ||
  (dst == 0x10 && (src == 0x12 || src == 0x13 || src == 0x14))

/-- The code of a value in a target that is not an MX format. -/
def valueCode (dst : Nat) (v : Fp) : Nat :=
  if dst = 0x01 then fpRound fmtFP32 v
  else if dst = 0x02 then fpRound fmtBF16 v
  else if dst = 0x03 then fpRound fmtFP16 v
  else if dst = 0x20 then (BitVec.ofInt 32 (fpToIntSat (-2147483648) 2147483647 v)).toNat
  else if dst = 0x21 then (fpToIntSat 0 65535 v).toNat
  else 0

/-- The E4M3 code of an E2M1, E3M2 or E2M3 code, exactly. -/
def widenCode (src code : Nat) : Nat :=
  match mxFmt src with
  | some m => fpRoundSat fmtE4M3 (mxElem m code)
  | Option.none => 0

/-- Source elements of a conversion: format, rows, columns, KAXIS, codes and scales. -/
structure CvtSrc where
  fmt : Nat
  rows : Nat
  cols : Nat
  kaxis : Nat
  code : Nat → Nat → Nat
  scale : Nat → Nat → Nat

/-- Scale and codes of one block of up to 32 values, or of values that each have their own code. -/
def cvtBlock (dst : Nat) (vs : List Fp) : Nat × List Nat :=
  match mxFmt dst with
  | some m => mxConvert m vs
  | Option.none => (0, vs.map (valueCode dst))

/-- The converted element (r, k): its code and, for an MX target, its block's scale. Blocks of 32 lie along the reduction axis. -/
def cvtElem (s : CvtSrc) (dst r k : Nat) : Nat × Nat :=
  if dst = 0x10 ∧ s.fmt != 0x01 then (widenCode s.fmt (s.code r k), s.scale r k)
  else
    let red := if s.kaxis = 0 then k else r
    let lim := if s.kaxis = 0 then s.cols else s.rows
    let lo := red / 32 * 32
    let at_ := fun (q : Nat) => let (a, b) := if s.kaxis = 0 then (r, q) else (q, k); (codeValue s.fmt (s.scale a b) (s.code a b)).getD .nan
    if (mxFmt dst).isSome then
      let res := cvtBlock dst ((List.range (min 32 (lim - lo))).map fun q => at_ (lo + q))
      (res.2.getD (red - lo) 0, res.1)
    else (valueCode dst (at_ red), 0)

/-- A tile of a format from a function of its elements: its header keeps what the old one says of stream and steering. -/
def cvtTile (h : Hdr) (dst kaxis rows cols : Nat) (el : Nat → Nat → Nat × Nat) : List Byte :=
  let shape := tileShape dst kaxis
  let w := match fmtShape dst with | some (w, _, _) => w | Option.none => 8
  let kt := match fmtShape dst with | some (_, kt, _) => kt | Option.none => 32
  let codes := (cells2 shape.1 shape.2).map fun q => if q.1 < rows ∧ q.2 < cols then (el q.1 q.2).1 else 0
  let lines := if kaxis = 0 then shape.1 else shape.2
  let scales := if (mxFmt dst).isSome then
      (cells2 lines (kt / 32)).map fun q =>
        let (r, k) := if kaxis = 0 then (q.1, 32 * q.2) else (32 * q.2, q.1)
        BitVec.ofNat 8 (if r < rows ∧ k < cols then (el r k).2 else 0)
    else []
  let red := if kaxis = 0 then cols else rows
  let hdr : Hdr := { h with
    format := dst, kaxis := kaxis, kext := if dst = 0x14 then (red - 1) / 64 % 2 else 0, rows := (rows - 1) % 64, cols := (cols - 1) % 64, empty := rows == 0 || cols == 0 }
  mkTile hdr scales (packElems w codes)

/-- The source of a conversion: a tile by its header; a register, bank or immediate as FP32, or INT32 when the target is FP32: CONVERT names only the target, so codes of
another format in a register cannot be widened (DESIGN CHOICE, log entry 86). -/
def Dev.cvtSrc (d : Dev) (c t imm dst : Nat) (p : Opnd) (kaxis : Nat) : CvtSrc :=
  match p with
  | .buf b =>
    let h := d.bufHdr c b
    let e := (d.extent c p).getD (0, 0)
    ⟨h.format, e.1, e.2, h.kaxis, fun r k => d.bufElem c b h r k, fun r k => d.bufScale c b h r k⟩
  | _ =>
    let e := (d.extent c p).getD (1, 1)
    ⟨if dst = 0x01 then 0x20 else 0x01, e.1, e.2, kaxis, fun r k => (d.elem c t imm p r k).toNat, fun _ _ => 0⟩

/-- CONVERT. A result in a tile buffer is a tile of the target format, which takes the KAXIS of a source tile or of the buffer's header; an E2M1 tile widened to
E4M3 becomes two tiles, in the buffer and the next one. Of a source larger than one tile of the target only the corner that fits its shape is converted, and the second
E4M3 tile is dropped where the next buffer does not exist (DESIGN CHOICE, log entry 86). A result in a register, bank or summary register holds each code zero-extended, and for an MX target
its block's scale above it (log entry 29). A pair outside Table 3-4 and R72 gives free values. -/
def opConvert (c t : Nat) (o : CellOps) (d : Dev) : Dev :=
  d.cellRun c t 0x60 o fun d0 =>
    let x := d0.cell c
    let imm := o.imm.toNat
    let fmt := imm % 256
    let dst := opnd x t o.d.toNat imm
    let pa := opnd x t o.a.toNat imm
    match d0.useOpnds c t [pa] with
    | .error e => e
    | .ok d1 =>
      match dst with
      | .buf b =>
        let h := d1.bufHdr c b
        let s := d1.cvtSrc c t imm fmt pa (if hdrValid h then h.kaxis else 0)
        let ok := convertible s.fmt fmt
        if (fmtShape fmt).isNone then (d1.next c t).drawn
        else
          let shape := tileShape fmt s.kaxis
          let el := fun (r k : Nat) => if ok then cvtElem s fmt r k else ((Config.freeElem d1.fresh r k).toNat, (Config.freeElem d1.fresh r (k + 4096)).toNat % 256)
          let put := fun (e : Dev) (n : Nat) (tile : List Byte) => (e.setBytes (bufAddr c n) (slotBytes tile)).modCell c fun z => { z with bufFresh := z.bufFresh.filter (· != n) }
          let d2 := put d1 b (cvtTile h fmt s.kaxis (min s.rows shape.1) (min s.cols shape.2) el)
          let d3 :=
            if s.fmt = 0x14 ∧ fmt = 0x10 ∧ b + 1 < sramTb x.active then
              put d2 (b + 1) (cvtTile h fmt s.kaxis (if s.kaxis = 0 then s.rows else s.rows - 64) (if s.kaxis = 0 then s.cols - 64 else s.cols)
                fun r k => if s.kaxis = 0 then el r (k + 64) else el (r + 64) k)
            else d2
          let d4 := if ok && !isFree pa then d3 else d3.drawn
          d4.next c t
      | _ =>
        let s := d1.cvtSrc c t imm fmt pa 0
        let ok := convertible s.fmt fmt
        let ext := (minExt [match dst with | .sreg _ => some (1, 1) | p => d1.extent c p, some (s.rows, s.cols)]).getD (0, 0)
        let d2 := (cells2 ext.1 ext.2).foldl (fun e q =>
          let v := cvtElem s fmt q.1 q.2
          e.setElem c t dst q.1 q.2 (if ok then BitVec.ofNat 32 (if (mxFmt fmt).isSome then v.1 + 256 * v.2 else v.1) else Config.freeElem d1.fresh q.1 q.2)) d1
        let d3 := if ok && !isFree pa then d2 else d2.drawn
        d3.next c t

/-! ### Control and moves -/

def opCellNop (c t : Nat) (o : CellOps) (d : Dev) : Dev := d.cellRun c t 0x00 o fun e => e.next c t

/-- END: outputs whose producer stops before the count fault (R120); the task context is DONE once every output has ended and every input was consumed, and
waits until then. -/
def opCellEnd (c t : Nat) (o : CellOps) (d : Dev) : Dev :=
  d.cellRun c t 0x01 o fun e =>
    let x := e.cell c
    match (outsOf x t).findSome? fun q => match e.outIssue c t q with
      | some i => if ((x.tc t).out q).put < i.total then some (i, ((x.tc t).out q).put) else Option.none
      | Option.none => Option.none with
    | some (i, put) => e.cellFault c cBounds 0x0807 (i.sd.streamId * 2 ^ 32 + put)
    | Option.none =>
      let e1 := (e.modTc c t fun y => { y with progEnd := true }).tryDone c t
      if ((e1.cell c).tc t).st = .done then e1.pick c
      else
        match (outsOf x t).find? fun q => !((x.tc t).out q).ended with
        | some q => e1.tcWait c t .waitOut (.output (16 * t + q))
        | Option.none =>
          match (queueRecs x.active).find? fun r => r.tc == t && !(x.tc t).inEnded.contains (r.b 0) with
          | some r => e1.tcWait c t .waitIn (.queue (r.b 0))
          | Option.none => e1

def opCellJump (c t : Nat) (o : CellOps) (d : Dev) : Dev := d.cellRun c t 0x02 o fun e => e.modTc c t fun y => { y with pc := o.imm.toNat }

/-- BNZ looks at the first element of A. -/
def opCellBnz (c t : Nat) (o : CellOps) (d : Dev) : Dev :=
  d.cellRun c t 0x03 o fun e =>
    let p := opnd (e.cell c) t o.a.toNat o.imm.toNat
    match e.useOpnds c t [p] with
    | .error z => z
    | .ok e1 =>
      let e2 := if isFree p then e1.drawn else e1
      if e1.elem c t o.imm.toNat p 0 0 != 0 then e2.modTc c t fun y => { y with pc := o.imm.toNat } else e2.next c t

/-- A tile of queue q goes to its consumer: the slot is free, the oldest issue that awaits one counts it, and END_OF_STREAM ends the input. -/
def Dev.consume (d : Dev) (c t q : Nat) (eos : Bool) : Dev :=
  let d1 := match d.fab.issues.find? (fun j => j.cell == c && j.queue == q && j.chain.isNone && j.taken < max 1 (j.total + b2n j.sd.eosSeparate)) with
    | some i => d.modIssue i.uid fun j => { j with taken := j.taken + 1 }
    | Option.none => d
  (d1.freeSlot c q).modTc c t fun y => { y with inEnded := if eos then q :: y.inEnded.filter (· != q) else y.inEnded.filter (· != q), since := d.ps }

/-- The oldest landed tile of a queue: none when the queue is empty or its oldest read is still out. -/
def Dev.front (d : Dev) (c q : Nat) : Option (QSlot × List Byte) :=
  let x := d.cell c
  match (x.queue q).slots with
  | s :: _ => if s.landed then some (s, d.bytes (slotAddr x.active c q s.pos) tileWire) else Option.none
  | [] => Option.none

/-- A task context waits for a queue whose next tile no read has asked for: its forager serves it on demand (R183). -/
def Dev.demand (d : Dev) (c q : Nat) : Dev :=
  match d.queueIssue c q with
  | some i => if i.sd.kind = skLoad ∧ i.sent = i.landed then d.modIssue i.uid fun j => { j with demand := true } else d
  | Option.none => d

/-- The issue that a queue's oldest tile belongs to: the one that names its stream. -/
def Dev.tileIssue (d : Dev) (c q : Nat) (h : Hdr) : Option Issue :=
  match d.fab.issues.find? fun j => j.cell == c && j.queue == q && j.chain.isNone && j.sd.streamId == h.streamId with
  | some j => some j
  | Option.none => d.queueIssue c q

/-- TAKE: the queue's oldest tile moves into a tile buffer. -/
def opCellTake (c t : Nat) (o : CellOps) (d : Dev) : Dev :=
  d.cellRun c t 0x04 o fun e =>
    let q := o.imm.toNat % 16
    let b := o.imm.toNat / 256 % 256
    match e.front c q with
    | Option.none => (e.demand c q).tcWait c t .waitIn (.queue q)
    | some (s, tile) =>
      match e.checkTile c t (e.tileIssue c q (hdrOf tile)) tile with
      | some z => z
      | Option.none =>
        let e1 := if b < sramTb (e.cell c).active then
            (e.setBytes (bufAddr c b) (slotBytes tile)).modCell c fun x => { x with bufFresh := x.bufFresh.filter (· != b) }
          else e
        (e1.consume c t q s.eos).next c t

/-- LDROW and STROW: rows of a buffer from IMM[7:0] on, registers from D (A) on, to the end of either. Each code is one element of 32 bits. -/
def rowMoves (x : Cell) (t code imm rows : Nat) : List (Nat × Nat) :=
  (List.range 32).filterMap fun i =>
    match opnd x t (code + i) imm with
    | .vreg n => if code + i < 32 ∧ imm % 256 + i < rows then some (n, imm % 256 + i) else Option.none
    | _ => Option.none

def opCellLdrow (c t : Nat) (o : CellOps) (d : Dev) : Dev :=
  d.cellRun c t 0x06 o fun e =>
    let imm := o.imm.toNat
    let b := imm / 256 % 256
    if b < sramTb (e.cell c).active then
      match e.useBuf c t b with
      | .error z => z
      | .ok e1 =>
        let h := e1.bufHdr c b
        let shape := tileShape h.format h.kaxis
        let l := rowMoves (e1.cell c) t o.d.toNat imm shape.1
        (l.foldl (fun z m => (List.range (min 64 shape.2)).foldl (fun y k =>
          y.setElem c t (.vreg m.1) 0 k (BitVec.ofNat 32 (e1.bufElem c b h m.2 k))) z) e1).next c t
    else e.next c t

/-- The header that a buffer's contents have: its own if valid, else an FP32 tile of full extents. -/
def Dev.ownHdr (d : Dev) (c b : Nat) : Hdr :=
  let h := d.bufHdr c b
  if hdrValid h then h else { h with format := 0x01, kaxis := 0, kext := 0, rows := 31, cols := 31, empty := false }

/-- STROW: elements outside the valid extents are written as zero (R101). It reads nothing of the buffer, so a tile that landed there unchecked is overwritten
without a check (DESIGN CHOICE, log entry 86). -/
def opCellStrow (c t : Nat) (o : CellOps) (d : Dev) : Dev :=
  d.cellRun c t 0x07 o fun e =>
    let imm := o.imm.toNat
    let b := imm / 256 % 256
    if b < sramTb (e.cell c).active then
      let h := e.ownHdr c b
      let shape := tileShape h.format h.kaxis
      let l := rowMoves (e.cell c) t o.a.toNat imm shape.1
      let e1 := (e.setBytes (bufAddr c b + 4) (hdrTail h)).modCell c fun x => { x with bufFresh := x.bufFresh.filter (· != b) }
      (l.foldl (fun z m => (List.range (min 64 shape.2)).foldl (fun y k =>
        y.setBufElem c b h m.2 k (if m.2 < hdrRows h ∧ k < hdrCols h then (e.elem c t imm (.vreg m.1) 0 k).toNat else 0)) z) e1).next c t
    else e.next c t

/-- Has a bank an unfinished chain? -/
def bankBusy (x : Cell) (b : Nat) : Bool := x.tcs.any fun q => q.2.chains.any fun r => match r.2 with | some run => run.bank == b | Option.none => false

/-- SUMSEND: a SUMMARY on an output. -/
def opCellSumsend (c t : Nat) (o : CellOps) (d : Dev) : Dev :=
  d.cellRun c t 0x0A o fun e =>
    let imm := o.imm.toNat
    let p := opnd (e.cell c) t o.a.toNat imm
    let v := e.elem c t imm p 0 0
    let e1 := if isFree p then e.drawn else e
    match outRec (e.cell c).active t (imm % 16) with
    | some r =>
      let pkt := e.outPkt c r (mkPkt 8 (e.cell c).gen.toNat (outCell c r) c 0 (imm / 256 % 16 * 2 ^ 32 + v.toNat) [])
      (e1.next c t).inject c pkt
    | Option.none => e1.next c t

def opCellWaitsum (c t : Nat) (o : CellOps) (d : Dev) : Dev :=
  d.cellRun c t 0x0B o fun e =>
    match opnd (e.cell c) t o.a.toNat o.imm.toNat with
    | .sreg n => if (((e.cell c).tc t).sum n).valid then e.next c t else e.tcWait c t .waitIn (.summary (16 * t + n))
    | _ => e.next c t

/-! ### PUT (R120, R131) -/

/-- The header that the stream logic writes (R97): STEER and PRED from the instruction. -/
def Dev.putHdr (d : Dev) (c : Nat) (i : Issue) (h : Hdr) (put steer pred : Nat) : Hdr :=
  let v := ((walk i.sd i.counts)[put]?).getD []
  let s := d.slotTag c i.sd v
  { h with
    speculative := i.sd.speculative, eos := put + 1 == i.total && !i.sd.eosSeparate, streamId := i.sd.streamId, gen := (d.cell c).gen.toNat,
    steer := steer, pred := pred, slot := s.1, seq := put, epoch := d.epochAt c, slotGen := s.2 }

/-- The write of a STORE's tile: none where a BLOCKED stream finds no block. -/
def Dev.storeTile (d : Dev) (c : Nat) (i : Issue) (v : List Nat) (tile : List Byte) : Dev :=
  match (if i.sd.blocked then d.loadAddr i v else KvRes.addr (tileAddr i.sd v) 0) with
  | .addr a _ =>
    let f := forCell (combOf c) (forOf c)
    let m := memPort a c
    let p := (mkPkt 4 (d.cell c).gen.toNat (cellAt m.1 m.2.1) f (forTag i.uid) a tile).withEject m.2.2
    ((d.modIssue i.uid fun j => { j with sent := j.sent + 1 }).modCell c fun x => { x with unacked := x.unacked + 1 }).inject f p
  | .empty => d.cellFault c cBounds 0x0B12 (i.sd.streamId * 2 ^ 32 + v.getD 5 0)
  | r => d.kvFault c r

/-- Is line l of the other axis, or reduction index l, within the valid extents? -/
def clipKeep (h : Hdr) (r k : Nat) : Bool := r < hdrRows h && k < hdrCols h

/-- A tile with zero in every element outside its valid extents and in the scales of lines outside them (R101). -/
def clipTile (h : Hdr) (tile : List Byte) : List Byte :=
  let shape := tileShape h.format h.kaxis
  if hdrRows h = shape.1 ∧ hdrCols h = shape.2 then tile
  else match fmtShape h.format with
    | some (w, kt, _) =>
      let codes := (cells2 shape.1 shape.2).map fun q => if clipKeep h q.1 q.2 then elemAt (tile.drop 320) w (q.1 * shape.2 + q.2) else 0
      let lines := if h.kaxis = 0 then hdrRows h else hdrCols h
      let scales := ((tile.drop 64).take 256).zipIdx.map fun q => if q.2 / (kt / 32) < lines then q.1 else 0#8
      tile.take 64 ++ scales ++ (packElems w codes ++ zeros 4096).take 4096 ++ tile.drop 4416
    | Option.none => tile

/-- PUT buffer IMM[15:8] on output IMM[3:0]. A tile beyond the count of the issue faults and is dropped (R120). An output that an absent part or a zero extent has ended takes
nothing (log entry 46). A STORE's write waits while its forager has as many transfers outstanding as its limit (R182). -/
def opCellPut (c t : Nat) (o : CellOps) (d : Dev) : Dev :=
  d.cellRun c t 0x05 o fun e =>
    let imm := o.imm.toNat
    let q := imm % 16
    let b := imm / 256 % 256
    let past := fun (i : Issue) => e.cellFault c cBounds 0x0806 (i.sd.streamId * 2 ^ 32 + min i.total 0xFFFFFFFF)
    match e.outIssue c t q with
    | Option.none =>
      let y := ((e.cell c).tc t).out q
      if y.ended && y.put == 0 then e.next c t
      else match e.lastOut c t q with
        | some i => if y.ended then past i else e.tcWait c t .waitOut (.output (16 * t + q))
        | Option.none => e.tcWait c t .waitOut (.output (16 * t + q))
    | some i =>
      let put := (((e.cell c).tc t).out q).put
      if i.total ≤ put then (if i.total = 0 then e.tcWait c t .waitOut (.output (16 * t + q)) else past i)
      else
        match e.useBuf c t b with
        | .error z => z
        | .ok e1 =>
          let own := e1.ownHdr c b
          let h := e1.putHdr c i own put (imm / 2 ^ 24) (imm / 65536 % 256)
          let tile := reHdr (clipTile own (e1.bytes (bufAddr c b) tileWire)) h
          let count := fun (z : Dev) => z.modTc c t fun y => y.setOut q { y.out q with put := put + 1 }
          let fin := fun (z : Dev) => if h.eos then z.endOutput c t q i else z.trySeparate c t q
          if i.sd.kind = skStore then
            let f := forOf c
            if e1.forLimit (combOf c) f ≤ e1.forBusy (combOf c) f then e1.tcWait c t .waitOut (.output (16 * t + q))
            else (fin ((count e1).storeTile c i (((walk i.sd i.counts)[put]?).getD []) tile)).next c t
          else
            let credits := (((e1.cell c).tc t).out q).credits
            if 0 < credits ∧ i.spilled.isEmpty then (fin ((count e1).sendTile c t q i tile)).next c t
            else if i.sd.spillable then (fin (count (e1.spillTile i put tile))).next c t
            else e1.tcWait c t .waitOut (.output (16 * t + q))

/-- A QCREDIT arrives: a sequencer has no use for one; a forager has one credit more for the queue of the cell that freed the slot (R43, R179); a cell's output one more, and
an END_OF_STREAM that waited for it goes out. -/
def opQcredit (p : Packet) (d : Dev) : Dev :=
  d.eject 6 p fun e =>
    if toSeq p.dst p.tag then e
    else if toFor p.dst p.tag then e.modCell p.src fun x => x.setForCredit (p.addr % 16) (x.forCredit (p.addr % 16) + 1)
    else
      let t := p.tag / 16 % 4
      let o := p.tag % 16
      let e1 := e.modTc p.dst t fun y => y.setOut o { y.out o with credits := (y.out o).credits + 1 }
      (e1.trySeparate p.dst t o).wake p.dst (.output (16 * t + o))

/-! ### Chains -/

/-- The reduction length and part of a chain record, as n, b, c, L and K (R121). -/
def Dev.chainVals (d : Dev) (c : Nat) (r : CfgRec) : Nat × Nat × Nat × Nat × Nat :=
  let k := combOf c
  let len := if bit (r.b 6) 7 then d.bndOf k (r.b 6 % 64) else r.n 8 4
  let j := if bit (r.b 7) 7 then d.bndOf k (r.b 7 % 64) else r.n 12 2
  let l := r.b 14 % 32
  let n := ceilDiv len 32
  let b := j * 2 ^ l
  (n, b, min (2 ^ l) (n - b), l, len)

/-- Is a part absent (R121)? -/
def partAbsent (n b : Nat) : Bool := n ≤ b

/-- Do the numbers of a chain fail R84 or R122? A chain with b = 0 and c = n is unsplit and no part, so the least L of R122 does not bind it (DEDUCED, log entry 86). -/
def splitBad (combine : Bool) (n b c l g : Nat) : Bool :=
  1048576 < n || (!combine && (b % 2 ^ l != 0 || c != min (2 ^ l) (n - b) || (2 ^ l < g && !(b == 0 && c == n))))

/-- Detail of cause 0x0701 (Table 3-11). -/
def splitDetail (station b c l : Nat) : Nat := station * 2 ^ 48 + l * 2 ^ 42 + b % 2 ^ 21 * 2 ^ 21 + c % 2 ^ 21

/-- Table 3-5. -/
def pairOk (a b : Nat) : Bool :=
  let g8 := [0x10, 0x11, 0x12, 0x13, 0x18]
  (g8.contains a && g8.contains b) || (a == 0x14 && b == 0x14) || (a == 0x02 && b == 0x02) || (a == 0x03 && b == 0x03)

/-- Grains of one tile product. -/
def grainsOf (fmt : Nat) : Nat := match fmtShape fmt with | some (_, kt, _) => kt / 32 | Option.none => 1

/-- The issue of chain index i on a task context. -/
def Dev.chainIssue (d : Dev) (c t i : Nat) : Option Issue := d.fab.issues.find? fun j => j.cell == c && j.tc == t && j.chain == some i && !j.ended

def chainOf (x : Cell) (t i : Nat) : Option ChainRun := sget (fun _ => none) (x.tc t).chains i
def setChain (x : Cell) (t i : Nat) (r : Option ChainRun) : Cell := x.setTc t { x.tc t with chains := sput (fun _ => none) (x.tc t).chains i r }

/-- Tree slots that a chain of P products needs (R82). -/
def treeSlots (p : Nat) : Nat := if p = 0 then 0 else Nat.log2 p

/-- A bank of a task context that holds no unfinished chain: none runs in it, and no chain issue has taken it (R119). -/
def Dev.freeBank (d : Dev) (c t : Nat) : Option Nat :=
  match tcSetup (d.cell c).active t with
  | some r => [0, 1].find? fun b => bit (r.b 4) b && !bankBusy (d.cell c) b &&
      !d.fab.issues.any fun j => j.cell == c && j.tc == t && j.chain.isSome && !j.ended && j.buf == b
  | Option.none => Option.none

/-- Zero a bank. -/
def zeroBank (m : Store W32) (b : Nat) : Store W32 := m.filter fun q => q.1 / 4096 != b

/-- An absent part (R121) sends one EMPTY tile with END_OF_STREAM on the first output of its task context, once that output's stream is issued and it
holds a credit (log entry 46). -/
def Dev.absentPart (d : Dev) (c t : Nat) : Dev :=
  match (outsOf (d.cell c) t).head? with
  | Option.none => d.next c t
  | some o =>
    match d.outIssue c t o with
    | Option.none => if (((d.cell c).tc t).out o).ended then d.next c t else d.tcWait c t .waitOut (.output (16 * t + o))
    | some i =>
      let tile := emptyTile i.sd.format 0 i.sd.streamId 0 (d.cell c).gen.toNat (d.epochAt c) true i.sd.speculative
      if i.sd.kind = skStore then (d.endOutput c t o i).next c t
      else if 0 < (((d.cell c).tc t).out o).credits then ((d.endOutput c t o i).sendTile c t o i tile).next c t
      else d.tcWait c t .waitOut (.output (16 * t + o))

/-- CHAIN: the checks of R74, R84, R122, R119 and R82, then the chain runs in the bank that SQ.CHAIN took, or, where no sequencer issued it, in a free one. A chain of K = 0 makes its
bank zero (R77) and, having no part, sends what an absent part sends (R121, log entry 32). -/
def opCellChain (c t : Nat) (o : CellOps) (d : Dev) : Dev :=
  d.cellRun c t 0x08 o fun e =>
    let x := e.cell c
    let i := o.imm.toNat % 8
    match chainRec x.active t i, (e.partOfComb (combOf c)).bind e.activeImg with
    | some r, some img =>
      let iss := e.chainIssue c t i
      let v := match iss with
        | some j => (j.counts.getD 0 0, j.counts.getD 1 0, j.counts.getD 2 0, j.counts.getD 3 0, j.counts.getD 4 0)
        | Option.none => e.chainVals c r
      let n := v.1
      let b := v.2.1
      let cc := v.2.2.1
      let l := v.2.2.2.1
      let len := v.2.2.2.2
      let combine := bit (r.b 16) 0
      let fa := match e.desc img (r.n 2 2) with | some sd => sd.format | Option.none => 0
      let fb := match e.desc img (r.n 4 2) with | some sd => sd.format | Option.none => 0
      let station := r.n 0 2
      let g := if combine then 1 else grainsOf fa
      let total := if combine then ceilDiv n (2 ^ l) else ceilDiv cc g
      let used := (x.tc t).chains.foldl (fun a q => a + match q.2 with | some z => treeSlots z.total | Option.none => 0) 0
      let slots := match tcSetup x.active t with | some z => z.b 5 | Option.none => 0
      let bank? := match iss with | some j => some j.buf | Option.none => e.freeBank c t
      let done := fun (f : Dev) => match iss with | some j => f.modIssue j.uid Issue.finish | Option.none => f
      let zero := fun (f : Dev) => match bank? with | some k => f.modCell c fun z => { z with acc := zeroBank z.acc k } | Option.none => f
      if !combine ∧ !pairOk fa fb then e.cellFault c cConfig 0x0703 (station * 2 ^ 48 + fa * 256 + fb)
      else if !combine ∧ partAbsent n b then (done (if n = 0 then zero e else e)).absentPart c t
      else if splitBad combine n b cc l g then e.cellFault c cResource 0x0701 (splitDetail station b cc l)
      else
        match bank? with
        | Option.none => e.cellFault c cResource 0x0814 (resDetail station 0 1 0)
        | some bank =>
          if slots < used + treeSlots total then e.cellFault c cResource 0x0702 (station * 2 ^ 48 + min 255 (used + treeSlots total) * 256 + slots)
          else if total = 0 then (done (zero e)).next c t
          else
            let tok := match iss with | some j => j.uid | Option.none => 0
            ((zero e).modCell c fun z => setChain z t i (some ⟨bank, b, cc, n, len, combine, 0, total, [], tok⟩)).next c t
    | _, _ => e.next c t

/-- The next tile of a chain's operand stream. -/
inductive OpTile where
  | wait
  | bad (d : Dev)
  | tile (h : Hdr) (bytes : List Byte) (eos : Bool) (taken : Nat) (d : Dev)
  deriving DecidableEq, Repr

/-- Tiles that an issue gives as an operand stream: a BUFFERED LOAD ends with its last counted tile. -/
def Issue.operands (i : Issue) : Nat := if i.sd.buffered then max 1 i.total else i.deliveries

/-- The issue from which a task context takes tiles of a descriptor, and the STREAM record that binds it. -/
def Dev.operandIssue (d : Dev) (c t desc : Nat) : Option (CfgRec × Issue) :=
  match (streamRecs (d.cell c).active t).find? fun r => r.n 0 2 == desc with
  | Option.none => Option.none
  | some r =>
    (d.fab.issues.find? fun j => j.cell == c && j.tc == t && j.descIdx == desc && j.chain.isNone && j.taken < j.operands).map fun j => (r, j)

/-- The fetch that holds delivery m of a BUFFERED LOAD. -/
def fetchOf (i : Issue) (m : Nat) : Option Nat :=
  match (walk i.sd i.counts)[m]? with
  | some v => (fetchList i.sd i.counts).findIdx? fun q => q.1 == blockOfDelivery i.sd i.counts m && tileKey i.sd q.2.2 == tileKey i.sd v
  | Option.none => Option.none

/-- What a chain lacks when its operand has no tile: the queue, or 64 and the first buffer of a BUFFERED stream; none when a tile is there. -/
def Dev.operandLack (d : Dev) (c t desc : Nat) : Option Nat :=
  match d.operandIssue c t desc with
  | some (r, i) =>
    if i.sd.buffered then
      (if i.total = 0 then Option.none
       else match fetchOf i i.taken with
         | some pos => if i.got.contains pos then Option.none else some (64 + i.buf)
         | Option.none => some (64 + i.buf))
    else if (d.front c (r.b 2)).isSome then Option.none else some (r.b 2)
  | Option.none =>
    match (streamRecs (d.cell c).active t).find? fun r => r.n 0 2 == desc with
    | some r => some (if r.b 2 < 16 then r.b 2 else 64 + r.b 3)
    | Option.none => Option.none

/-- Take the next tile of the operand stream under a descriptor: from its queue, or from its buffers in the order of the walk. -/
def Dev.takeOperand (d : Dev) (c t desc : Nat) : OpTile :=
  match d.operandIssue c t desc with
  | Option.none => .wait
  | some (r, i) =>
    if i.sd.buffered then
      let last := i.taken + 1 == i.operands
      let give := fun (e : Dev) (b : Nat) =>
        let tile := e.bytes (bufAddr c b) tileWire
        OpTile.tile (hdrOf tile) tile last (i.taken + 1) (e.modIssue i.uid fun j =>
          let j1 := { j with taken := j.taken + 1 }
          if last then j1.finish else j1)
      if i.total = 0 then
        match d.checkBuf c t i.buf with
        | .error e => .bad e
        | .ok e => give e i.buf
      else
        match fetchOf i i.taken with
        | Option.none => .wait
        | some pos =>
          if !i.got.contains pos then .wait
          else
            let b := (i.bufOf pos).getD i.buf
            match d.checkBuf c t b with
            | .error e => .bad e
            | .ok e => give e b
    else
      match d.front c (r.b 2) with
      | Option.none => .wait
      | some (s, tile) =>
        match d.checkTile c t (some i) tile with
        | some e => .bad e
        | Option.none => .tile (hdrOf tile) tile s.eos (i.taken + 1) (d.consume c t (r.b 2) s.eos)

/-- Element code and scale of an operand tile at line ℓ and reduction index k of the tile (R100). -/
def tileCode (h : Hdr) (tile : List Byte) (line k : Nat) : Nat :=
  match fmtShape h.format with
  | some (w, _, _) =>
    let q := if h.kaxis = 0 then (line, k) else (k, line)
    elemAt (tile.drop 320) w (q.1 * (tileShape h.format h.kaxis).2 + q.2)
  | Option.none => 0
def tileScale (h : Hdr) (tile : List Byte) (line k : Nat) : Nat :=
  match fmtShape h.format with
  | some (_, kt, _) => byteAt tile (64 + line * (kt / 32) + k / 32)
  | Option.none => 0

/-- The grain result of line i of A and line j of B over the tile's grain g; reduction indices at or beyond `len` give zero products (R75, R78, R79). -/
def grainOf (ha hb : Hdr) (ta tb : List Byte) (i j g len : Nat) : W32 :=
  let ks := (List.range 32).filter fun s => s < len
  let ca := ks.map fun s => tileCode ha ta i (32 * g + s)
  let cb := ks.map fun s => tileCode hb tb j (32 * g + s)
  match mxFmt ha.format, mxFmt hb.format with
  | some fa, some fb => grainMx fa fb (tileScale ha ta i (32 * g)) (tileScale hb tb j (32 * g)) ca cb
  | _, _ => grain16 (if ha.format = 0x02 then fmtBF16 else fmtFP16) ca cb

/-- A 64 × 64 array of sums: zero elements are not listed. -/
def grid (f : Nat → Nat → W32) : Store W32 := ((cells2 64 64).map fun q => (64 * q.1 + q.2, f q.1 q.2)).filter fun q => q.2 != 0#32
def gridAt (m : Store W32) (i j : Nat) : W32 := sget (fun _ => 0#32) m (64 * i + j)
def gridAdd (a b : Store W32) : Store W32 := grid fun i j => f32Add (gridAt a i j) (gridAt b i j)

/-- Push a product on the stack of pending sums (R81): equal levels combine, the earlier sum on the left. -/
def pushPend : Nat → Nat → Store W32 → List (Nat × Store W32) → List (Nat × Store W32)
  | 0, lvl, v, p => (lvl, v) :: p
  | fuel + 1, lvl, v, p =>
    match p with
    | (k, w) :: rest => if k = lvl then pushPend fuel (lvl + 1) (gridAdd w v) rest else (lvl, v) :: p
    | [] => [(lvl, v)]

/-- The chain's end: the remaining sums combine from the top down. -/
def drainPend : List (Nat × Store W32) → Store W32
  | [] => []
  | q :: rest => rest.foldl (fun v w => gridAdd w.2 v) q.2

/-- Write a finished sum into a bank. -/
def putBank (m : Store W32) (b : Nat) (v : Store W32) : Store W32 := (cells2 64 64).foldl (fun a q => sput (fun _ => 0#32) a (4096 * b + 64 * q.1 + q.2) (gridAt v q.1 q.2)) m

/-- Multiply-accumulates of one product (Table 2-2). -/
def macsOf (fmt : Nat) : Nat := if fmt = 0x14 then 64 * 128 * 64 else if fmt = 0x02 ∨ fmt = 0x03 then 64 * 32 * 64 else 64 * 64 * 64

/-- A chain has ended: its sum is in its bank, its issue delivers no more. -/
def Dev.chainEnd (d : Dev) (c t i : Nat) (run : ChainRun) : Dev :=
  let d1 := d.modCell c fun x => setChain { x with acc := putBank x.acc run.bank (drainPend run.pend) } t i Option.none
  d1.modIssue run.token Issue.finish

/-- One product or part of a chain is added; the last one ends it, unless the chain must still see that its stream brings no part beyond its count. -/
def Dev.chainAdd (d : Dev) (c t i : Nat) (run : ChainRun) (v : Store W32) (hold : Bool) : Dev :=
  let next := { run with done := run.done + 1, pend := pushPend 32 0 v run.pend }
  if next.done = run.total ∧ !hold then d.chainEnd c t i next
  else d.modCell c fun x => setChain x t i (some next)

/-- R123: an operand tile that ends its stream before the last product, or, with ONE_PER_ISSUE, a stream that has not ended with the chain. Where an extra EMPTY tile is
to carry END_OF_STREAM, the stream's counted tiles must all have been taken. -/
def countBad (r : CfgRec) (run : ChainRun) (eos separate : Bool) (taken total : Nat) : Bool :=
  let last := run.done + 1 == run.total
  (eos && (!last || separate)) || (last && bit (r.b 16) 1 && (if separate then taken < total else !eos))

/-- Is the tile that an operand stream would give now the extra EMPTY tile of an issue whose counted tiles an earlier chain took? -/
def Dev.spareEos (d : Dev) (c t desc : Nat) : Bool :=
  match d.operandIssue c t desc with
  | some (r, i) => !i.sd.buffered && i.sd.eosSeparate && i.taken == i.total && 0 < i.total &&
      (match d.front c (r.b 2) with | some (s, tile) => s.eos && (hdrOf tile).empty | Option.none => false)
  | Option.none => false

/-- Can a running context do nothing before the chain in a bank ends: is its next word RDBANK of that bank? -/
def Dev.stuckOn (d : Dev) (c t bank : Nat) : Bool :=
  let x := d.cell c
  (x.tc t).st == .running && match programWord x.active t (x.tc t).pc with
    | some w => w / 2 ^ 56 == 9 && w / 2 ^ 44 % 64 == 48 + bank
    | Option.none => false

/-- The read of a BUFFERED LOAD's tile that its forager has not sent yet goes next (R184). -/
def Dev.demandBuf (d : Dev) (c buf : Nat) : Dev :=
  match d.fab.issues.find? fun i => i.cell == c && i.sd.buffered && i.chain.isNone && !i.ended && i.buf == buf with
  | some i => if i.sent = i.landed then d.modIssue i.uid fun j => { j with demand := true } else d
  | Option.none => d

/-- A chain finds no operand tile: its forager is asked for it (R184), and a context that can only wait for the chain's bank enters WAIT_IN (R40). -/
def Dev.starved (d : Dev) (c t desc bank : Nat) : Dev :=
  match d.operandLack c t desc with
  | some q =>
    let e := if q < 16 then d.demand c q else d.demandBuf c (q - 64)
    if d.stuckOn c t bank then e.tcWait c t .waitIn (.queue q) else e
  | Option.none => d

/-- TILE_PRODUCT_DONE: chain index i of a task context forms its next product, or takes its next part. The parts of a combining chain are counted by R84: with
ONE_PER_ISSUE a part beyond the count raises 0x0701 and nothing is written. -/
def opTileProduct (c t i : Nat) (d : Dev) : Dev :=
  let x := d.cell c
  match chainRec x.active t i, chainOf x t i, (d.partOfComb (combOf c)).bind d.activeImg with
  | some r, some run, some img =>
    let station := r.n 0 2
    let da := r.n 2 2
    let db := r.n 4 2
    let separate := fun (n : Nat) => match d.desc img n with | some sd => sd.eosSeparate && !sd.buffered | Option.none => false
    let stream := fun (n : Nat) => match d.desc img n with | some sd => sd.streamId | Option.none => 0
    let totalOf := fun (n : Nat) => match d.operandIssue c t n with | some q => q.2.total | Option.none => 0
    let bad := fun (e : Dev) (n taken : Nat) => e.cellFault c cConfig 0x0808 (station * 2 ^ 48 + stream n * 2 ^ 32 + taken % 65536)
    if run.done = 0 ∧ !run.combine ∧ d.spareEos c t da then (match d.takeOperand c t da with | .tile _ _ _ _ e => e | .bad e => e | .wait => d)
    else
    match d.takeOperand c t da with
    | .wait => d.starved c t da run.bank
    | .bad e => e
    | .tile ha ta ea na d1 =>
      if run.combine then
        let left := match d.operandIssue c t da with | some q => na < q.2.operands | Option.none => false
        if ha.empty then (if run.done = run.total ∧ !left then d1.chainEnd c t i run else d1)
        else if run.done = run.total then d1.cellFault c cResource 0x0701 (splitDetail station run.b run.c (r.b 14 % 32))
        else
          d1.chainAdd c t i run (grid fun a b => if a < 32 ∧ b < 32 then canonW (BitVec.ofNat 32 (tileCode ha ta a b)) else 0#32) (bit (r.b 16) 1 && left)
      else if countBad r run ea (separate da) na (totalOf da) then bad d1 da na
      else if d1.spareEos c t db ∧ run.done = 0 then (match d.takeOperand c t db with | .tile _ _ _ _ e => e | .bad e => e | .wait => d)
      else
        match d1.takeOperand c t db with
        | .wait => d.starved c t db run.bank
        | .bad e => e
        | .tile hb tb eb nb d2 =>
          if countBad r run eb (separate db) nb (totalOf db) then bad d2 db nb
          else
            let g := grainsOf ha.format
            let first := run.done * g
            let v := grid fun a b => tree ((List.range (min g (run.c - first))).map fun z =>
              grainOf ha hb ta tb a b z (run.k - 32 * (run.b + first + z)))
            (d2.dbg c (Reg.DBG_MAC c) (macsOf ha.format)).chainAdd c t i run v false
  | _, _, _ => d

/-- RDBANK of a bank whose chain runs: when the chain lacks an operand tile the context waits for it. -/
def Dev.awaitChain (d : Dev) (c t bank : Nat) : Dev :=
  let x := d.cell c
  match (List.range 8).findSome? fun i => match chainRec x.active t i, chainOf x t i with
      | some r, some run => if run.bank == bank then some (r, run) else Option.none
      | _, _ => Option.none with
  | some (r, run) =>
    match d.operandLack c t (r.n 2 2) with
    | some _ => d.starved c t (r.n 2 2) bank
    | Option.none => if run.combine then d else d.starved c t (r.n 4 2) bank
  | Option.none => d

/-- RDBANK: a 32 × 32 quarter of the bank, IMM[1] its half of the rows and IMM[0] of the columns, becomes an FP32 tile (log entry 31). The instruction does not
end before the bank's chain does: a context whose chain lacks an operand tile waits for it in WAIT_IN (R40). -/
def opCellRdbank (c t : Nat) (o : CellOps) (d : Dev) : Dev :=
  d.cellRun c t 0x09 o fun e =>
    let imm := o.imm.toNat
    let b := imm / 256 % 256
    match opnd (e.cell c) t o.a.toNat imm with
    | .bank n =>
      if bankBusy (e.cell c) n then e.awaitChain c t n
      else if b < sramTb (e.cell c).active then
        let r0 := 32 * (imm / 2 % 2)
        let k0 := 32 * (imm % 2)
        let h : Hdr := { e.bufHdr c b with format := 0x01, kaxis := 0, kext := 0, rows := 31, cols := 31, empty := false }
        let tile := mkTile h [] (packElems 32 ((cells2 32 32).map fun q => (e.elem c t imm (.bank n) (r0 + q.1) (k0 + q.2)).toNat))
        ((e.setBytes (bufAddr c b) (slotBytes tile)).modCell c fun x => { x with bufFresh := x.bufFresh.filter (· != b) }).next c t
      else e.next c t
    | _ => e.next c t

/-! ### The commands -/

def execNop (c : CellIdx) (t : TcIdx) (o : CellOps) (s : State) : Host.Outcome State Fault Refusal := done s (opCellNop c t o s.dev)
def execEndProgram (c : CellIdx) (t : TcIdx) (o : CellOps) (s : State) : Host.Outcome State Fault Refusal := done s (opCellEnd c t o s.dev)
def execJump (c : CellIdx) (t : TcIdx) (o : CellOps) (s : State) : Host.Outcome State Fault Refusal := done s (opCellJump c t o s.dev)
def execBnz (c : CellIdx) (t : TcIdx) (o : CellOps) (s : State) : Host.Outcome State Fault Refusal := done s (opCellBnz c t o s.dev)
def execTake (c : CellIdx) (t : TcIdx) (o : CellOps) (s : State) : Host.Outcome State Fault Refusal := done s (opCellTake c t o s.dev)
def execPut (c : CellIdx) (t : TcIdx) (o : CellOps) (s : State) : Host.Outcome State Fault Refusal := done s (opCellPut c t o s.dev)
def execLdrow (c : CellIdx) (t : TcIdx) (o : CellOps) (s : State) : Host.Outcome State Fault Refusal := done s (opCellLdrow c t o s.dev)
def execStrow (c : CellIdx) (t : TcIdx) (o : CellOps) (s : State) : Host.Outcome State Fault Refusal := done s (opCellStrow c t o s.dev)
def execChain (c : CellIdx) (t : TcIdx) (o : CellOps) (s : State) : Host.Outcome State Fault Refusal := done s (opCellChain c t o s.dev)
def execRdbank (c : CellIdx) (t : TcIdx) (o : CellOps) (s : State) : Host.Outcome State Fault Refusal := done s (opCellRdbank c t o s.dev)
def execSumsend (c : CellIdx) (t : TcIdx) (o : CellOps) (s : State) : Host.Outcome State Fault Refusal := done s (opCellSumsend c t o s.dev)
def execWaitsum (c : CellIdx) (t : TcIdx) (o : CellOps) (s : State) : Host.Outcome State Fault Refusal := done s (opCellWaitsum c t o s.dev)
def execTileProductDone (c : CellIdx) (t : TcIdx) (i : Fin 8) (s : State) : Host.Outcome State Fault Refusal := done s (opTileProduct c t i s.dev)
def execFp32Add (c : CellIdx) (t : TcIdx) (o : CellOps) (s : State) : Host.Outcome State Fault Refusal := done s (opBin 0x10 f32Add c t o s.dev)
def execFp32Sub (c : CellIdx) (t : TcIdx) (o : CellOps) (s : State) : Host.Outcome State Fault Refusal := done s (opBin 0x11 f32Sub c t o s.dev)
def execFp32Mul (c : CellIdx) (t : TcIdx) (o : CellOps) (s : State) : Host.Outcome State Fault Refusal := done s (opBin 0x12 f32Mul c t o s.dev)
def execFp32Fma (c : CellIdx) (t : TcIdx) (o : CellOps) (s : State) : Host.Outcome State Fault Refusal := done s (opTern 0x13 f32Fma c t o s.dev)
def execFp32Neg (c : CellIdx) (t : TcIdx) (o : CellOps) (s : State) : Host.Outcome State Fault Refusal := done s (opUn 0x14 f32Neg c t o s.dev)
def execFp32Abs (c : CellIdx) (t : TcIdx) (o : CellOps) (s : State) : Host.Outcome State Fault Refusal := done s (opUn 0x15 f32Abs c t o s.dev)
def execFp32Min (c : CellIdx) (t : TcIdx) (o : CellOps) (s : State) : Host.Outcome State Fault Refusal := done s (opBin 0x20 f32Min c t o s.dev)
def execFp32Max (c : CellIdx) (t : TcIdx) (o : CellOps) (s : State) : Host.Outcome State Fault Refusal := done s (opBin 0x21 f32Max c t o s.dev)
def execFp32Cmp (c : CellIdx) (t : TcIdx) (o : CellOps) (s : State) : Host.Outcome State Fault Refusal := done s (opBin 0x22 (fpCmpOp o) c t o s.dev)
def execSel (c : CellIdx) (t : TcIdx) (o : CellOps) (s : State) : Host.Outcome State Fault Refusal := done s (opTern 0x23 selOp c t o s.dev)
def execBf16Add (c : CellIdx) (t : TcIdx) (o : CellOps) (s : State) : Host.Outcome State Fault Refusal := done s (opBin 0x30 (bf16Lanes fpAdd) c t o s.dev)
def execBf16Sub (c : CellIdx) (t : TcIdx) (o : CellOps) (s : State) : Host.Outcome State Fault Refusal := done s (opBin 0x31 (bf16Lanes fpSub) c t o s.dev)
def execBf16Mul (c : CellIdx) (t : TcIdx) (o : CellOps) (s : State) : Host.Outcome State Fault Refusal := done s (opBin 0x32 (bf16Lanes fpMul) c t o s.dev)
def execBf16Fma (c : CellIdx) (t : TcIdx) (o : CellOps) (s : State) : Host.Outcome State Fault Refusal := done s (opTern 0x33 bf16Fma c t o s.dev)
def execBf16Min (c : CellIdx) (t : TcIdx) (o : CellOps) (s : State) : Host.Outcome State Fault Refusal := done s (opBin 0x34 (bf16Lanes fpMin) c t o s.dev)
def execBf16Max (c : CellIdx) (t : TcIdx) (o : CellOps) (s : State) : Host.Outcome State Fault Refusal := done s (opBin 0x35 (bf16Lanes fpMax) c t o s.dev)
def execInt32Add (c : CellIdx) (t : TcIdx) (o : CellOps) (s : State) : Host.Outcome State Fault Refusal := done s (opBin 0x40 (fun a b => a + b) c t o s.dev)
def execInt32Sub (c : CellIdx) (t : TcIdx) (o : CellOps) (s : State) : Host.Outcome State Fault Refusal := done s (opBin 0x41 (fun a b => a - b) c t o s.dev)
def execInt32Mul (c : CellIdx) (t : TcIdx) (o : CellOps) (s : State) : Host.Outcome State Fault Refusal := done s (opBin 0x42 (fun a b => a * b) c t o s.dev)
def execInt32And (c : CellIdx) (t : TcIdx) (o : CellOps) (s : State) : Host.Outcome State Fault Refusal := done s (opBin 0x43 (fun a b => a &&& b) c t o s.dev)
def execInt32Or (c : CellIdx) (t : TcIdx) (o : CellOps) (s : State) : Host.Outcome State Fault Refusal := done s (opBin 0x44 (fun a b => a ||| b) c t o s.dev)
def execInt32Xor (c : CellIdx) (t : TcIdx) (o : CellOps) (s : State) : Host.Outcome State Fault Refusal := done s (opBin 0x45 (fun a b => a ^^^ b) c t o s.dev)
def execInt32Shl (c : CellIdx) (t : TcIdx) (o : CellOps) (s : State) : Host.Outcome State Fault Refusal := done s (opBin 0x46 (fun a b => a <<< shiftCount b) c t o s.dev)
def execInt32Shr (c : CellIdx) (t : TcIdx) (o : CellOps) (s : State) : Host.Outcome State Fault Refusal := done s (opBin 0x47 (fun a b => a >>> shiftCount b) c t o s.dev)
def execInt32Sar (c : CellIdx) (t : TcIdx) (o : CellOps) (s : State) : Host.Outcome State Fault Refusal := done s (opBin 0x48 (fun a b => a.sshiftRight (shiftCount b)) c t o s.dev)
def execInt32Min (c : CellIdx) (t : TcIdx) (o : CellOps) (s : State) : Host.Outcome State Fault Refusal := done s (opBin 0x49 i32Min c t o s.dev)
def execInt32Max (c : CellIdx) (t : TcIdx) (o : CellOps) (s : State) : Host.Outcome State Fault Refusal := done s (opBin 0x4A i32Max c t o s.dev)
def execInt32Cmp (c : CellIdx) (t : TcIdx) (o : CellOps) (s : State) : Host.Outcome State Fault Refusal := done s (opBin 0x4B (intCmpOp o) c t o s.dev)
def execUint16Adds (c : CellIdx) (t : TcIdx) (o : CellOps) (s : State) : Host.Outcome State Fault Refusal := done s (opBin 0x50 u16Adds c t o s.dev)
def execConvert (c : CellIdx) (t : TcIdx) (o : CellOps) (s : State) : Host.Outcome State Fault Refusal := done s (opConvert c t o s.dev)
def execExp2 (c : CellIdx) (t : TcIdx) (o : CellOps) (s : State) : Host.Outcome State Fault Refusal := done s (opUn 0x70 sfExp2 c t o s.dev)
def execLog2 (c : CellIdx) (t : TcIdx) (o : CellOps) (s : State) : Host.Outcome State Fault Refusal := done s (opUn 0x71 sfLog2 c t o s.dev)
def execRsqrt (c : CellIdx) (t : TcIdx) (o : CellOps) (s : State) : Host.Outcome State Fault Refusal := done s (opUn 0x72 sfRsqrt c t o s.dev)
def execRcp (c : CellIdx) (t : TcIdx) (o : CellOps) (s : State) : Host.Outcome State Fault Refusal := done s (opUn 0x73 sfRcp c t o s.dev)
def execTanh (c : CellIdx) (t : TcIdx) (o : CellOps) (s : State) : Host.Outcome State Fault Refusal := done s (opUn 0x74 sfTanh c t o s.dev)
def execBrowAdd (c : CellIdx) (t : TcIdx) (o : CellOps) (s : State) : Host.Outcome State Fault Refusal := done s (opBcast 0 0 c t o s.dev)
def execBrowSub (c : CellIdx) (t : TcIdx) (o : CellOps) (s : State) : Host.Outcome State Fault Refusal := done s (opBcast 0 1 c t o s.dev)
def execBrowMul (c : CellIdx) (t : TcIdx) (o : CellOps) (s : State) : Host.Outcome State Fault Refusal := done s (opBcast 0 2 c t o s.dev)
def execBrowMin (c : CellIdx) (t : TcIdx) (o : CellOps) (s : State) : Host.Outcome State Fault Refusal := done s (opBcast 0 3 c t o s.dev)
def execBrowMax (c : CellIdx) (t : TcIdx) (o : CellOps) (s : State) : Host.Outcome State Fault Refusal := done s (opBcast 0 4 c t o s.dev)
def execBcolAdd (c : CellIdx) (t : TcIdx) (o : CellOps) (s : State) : Host.Outcome State Fault Refusal := done s (opBcast 1 0 c t o s.dev)
def execBcolSub (c : CellIdx) (t : TcIdx) (o : CellOps) (s : State) : Host.Outcome State Fault Refusal := done s (opBcast 1 1 c t o s.dev)
def execBcolMul (c : CellIdx) (t : TcIdx) (o : CellOps) (s : State) : Host.Outcome State Fault Refusal := done s (opBcast 1 2 c t o s.dev)
def execBcolMin (c : CellIdx) (t : TcIdx) (o : CellOps) (s : State) : Host.Outcome State Fault Refusal := done s (opBcast 1 3 c t o s.dev)
def execBcolMax (c : CellIdx) (t : TcIdx) (o : CellOps) (s : State) : Host.Outcome State Fault Refusal := done s (opBcast 1 4 c t o s.dev)
def execRsum (c : CellIdx) (t : TcIdx) (o : CellOps) (s : State) : Host.Outcome State Fault Refusal := done s (opTileReduce 0 0 c t o s.dev)
def execRmax (c : CellIdx) (t : TcIdx) (o : CellOps) (s : State) : Host.Outcome State Fault Refusal := done s (opTileReduce 0 1 c t o s.dev)
def execRmin (c : CellIdx) (t : TcIdx) (o : CellOps) (s : State) : Host.Outcome State Fault Refusal := done s (opTileReduce 0 2 c t o s.dev)
def execCsum (c : CellIdx) (t : TcIdx) (o : CellOps) (s : State) : Host.Outcome State Fault Refusal := done s (opTileReduce 1 0 c t o s.dev)
def execCmax (c : CellIdx) (t : TcIdx) (o : CellOps) (s : State) : Host.Outcome State Fault Refusal := done s (opTileReduce 1 1 c t o s.dev)
def execCmin (c : CellIdx) (t : TcIdx) (o : CellOps) (s : State) : Host.Outcome State Fault Refusal := done s (opTileReduce 1 2 c t o s.dev)
def execVsum (c : CellIdx) (t : TcIdx) (o : CellOps) (s : State) : Host.Outcome State Fault Refusal := done s (opScalar 0 c t o s.dev)
def execVmax (c : CellIdx) (t : TcIdx) (o : CellOps) (s : State) : Host.Outcome State Fault Refusal := done s (opScalar 1 c t o s.dev)
def execVmin (c : CellIdx) (t : TcIdx) (o : CellOps) (s : State) : Host.Outcome State Fault Refusal := done s (opScalar 2 c t o s.dev)
def execVargmax (c : CellIdx) (t : TcIdx) (o : CellOps) (s : State) : Host.Outcome State Fault Refusal := done s (opScalar 3 c t o s.dev)
def execVargmin (c : CellIdx) (t : TcIdx) (o : CellOps) (s : State) : Host.Outcome State Fault Refusal := done s (opScalar 4 c t o s.dev)

end Sys2Proof.Machine
end

