-- ==== Sys2Proof/Machine/ImageCheck.lean ====
section
/-!
DEFINITION. Registering an image (R134 to R148): the records of an instar section, the checks of Table 5-7, and REGISTER, REGISTRATION_END and RETIRE.
-/
namespace Sys2Proof.Machine

/-- May view v change what the MOLT, MEM and STEP blocks hold of partition p: the operator view of an unsealed partition, or the partition's own view? -/
def Dev.mayPart (d : Dev) (v p : Nat) : Bool := (v == 0 && !d.sealed p) || v == p + 1

/-! ### Records of an instar section (R138, R139) -/

/-- A record as it stands in its section. -/
structure RawRec where
  typ : Nat
  group : Nat
  x : Nat
  y : Nat
  tc : Nat
  payload : List Byte
  deriving DecidableEq, Repr

/-- Parse n records; none when one runs past the end. -/
def parseRecs : Nat → List Byte → Option (List RawRec)
  | 0, _ => some []
  | n + 1, bs =>
    let len := leAt bs 2 2
    if bs.length < 8 + len then none
    else (parseRecs n (bs.drop (8 + len))).map fun l => ⟨byteAt bs 0, byteAt bs 1, byteAt bs 4, byteAt bs 5, byteAt bs 6, (bs.drop 8).take len⟩ :: l

/-- The records of a section: its header's count of them from byte 64 on. -/
def Dev.sectionRecs (d : Dev) (i : Img) (s : Section) : Option (List RawRec) :=
  parseRecs (d.imgNum i (s.off + 4) 4) (d.bytes (i.addr + s.off + 64) (s.len - 64))

/-- The cells of a STAMP, as footprint coordinates. -/
def stampCells (r : RawRec) : List (Nat × Nat) :=
  (List.range (byteAt r.payload 2)).flatMap fun b =>
    (List.range (byteAt r.payload 1)).map fun a => (r.x + a * byteAt r.payload 3, r.y + b * byteAt r.payload 4)

/-- Each record with the cells that it applies to, in order; none for a group that no STAMP covers yet. `st` are the STAMPs seen, latest first. -/
def placeRecs : List RawRec → List RawRec → List (RawRec × Option (List (Nat × Nat)))
  | _, [] => []
  | st, r :: rs =>
    if r.typ = rStamp then (r, some (stampCells r)) :: placeRecs (r :: st) rs
    else if r.group = 0 then (r, some [(r.x, r.y)]) :: placeRecs st rs
    else (r, (st.find? fun q => byteAt q.payload 0 == r.group).map stampCells) :: placeRecs st rs

/-- The records that one cell receives, in order, STAMPs left out. -/
def cellRecs (ps : List (RawRec × Option (List (Nat × Nat)))) (x y : Nat) : List CfgRec :=
  ps.filterMap fun q =>
    if q.1.typ != rStamp && (match q.2 with | some l => l.contains (x, y) | none => false) then some ⟨q.1.typ, q.1.tc, q.1.payload⟩ else none

/-- Cells that receive a record. -/
def usedCells (ps : List (RawRec × Option (List (Nat × Nat)))) : List (Nat × Nat) :=
  (ps.filter fun q => q.1.typ != rStamp).foldl (fun acc q => (q.2.getD []).foldl (fun a c => if a.contains c then a else c :: a) acc) []

/-- Bank bytes of a cell after replacement (R140). -/
def bankBytes (rs : List CfgRec) : Nat := (rs.foldl applyRec []).foldl (fun a r => a + 8 + r.payload.length) 0

/-! ### Ranges of the fields of a record (Table 5-4) -/

/-- Is a cell operation defined (Table 5-5)? -/
def opcDefined (opc : Nat) : Bool :=
  let n := opc % 16
  match opc / 16 with
  | 0x0 => n ≤ 11
  | 0x1 => n ≤ 5
  | 0x2 => n ≤ 3
  | 0x3 => n ≤ 5
  | 0x4 => n ≤ 11
  | 0x5 => n == 0
  | 0x6 => n == 0
  | 0x7 => n ≤ 4
  | 0x8 => n ≤ 9
  | 0x9 => n ≤ 5
  | 0xA => n ≤ 4
  | _ => false

def programOk : Nat → List Byte → Bool
  | 0, _ => true
  | n + 1, bs => opcDefined (byteAt bs 7) && programOk n (bs.drop 8)

/-- Shares of a queue: each producer's at least 1, their sum the depth (R44). -/
def sharesOk (p : List Byte) : Bool :=
  let n := byteAt p 2
  n ≤ 1 || ((List.range n).all (fun k => 1 ≤ byteAt p (8 + k)) && (List.range n).foldl (fun a k => a + byteAt p (8 + k)) 0 == byteAt p 1)

def orNone (lim v : Nat) : Bool := v ≤ lim || v == 0xFF

/-- Are a record's length, context and fields in range? Descriptors, routes and stations are those of the image's sections; a combining chain has no second operand. The depth of a queue and
the range of the vector registers are R38's to check. -/
def recOk (r : RawRec) (descs routes stations : Nat) : Bool :=
  let p := r.payload
  let b := byteAt p
  let len := p.length
  let tc := decide (r.tc ≤ 3)
  let wide := r.tc == 0xFF
  if r.typ = rTcSetup then tc && len == 16 && leAt p 0 2 < stations && 1 ≤ b 3 && b 3 ≤ 32 && b 5 ≤ 12
  else if r.typ = rSramPlan then wide && len == 8
  else if r.typ = rQueue then tc && len == 16 && b 0 ≤ 15 && 1 ≤ b 2 && b 2 ≤ 4 && sharesOk p
  else if r.typ = rOut then tc && len == 16 && b 0 ≤ 15 && b 3 ≤ 3 && b 4 ≤ 15 && b 5 ≤ 3 && orNone 15 (b 6) && b 7 ≤ 2
  else if r.typ = rRouteSlot then wide && len == 8 && b 0 ≤ 15 && leAt p 2 2 < routes
  else if r.typ = rStream then tc && len == 8 && leAt p 0 2 < descs && orNone 15 (b 2)
  else if r.typ = rChain then
    tc && len == 24 && leAt p 0 2 < stations && leAt p 2 2 < descs && (bit (b 16) 0 || leAt p 4 2 < descs) && b 14 ≤ 20 && b 15 ≤ 7
  else if r.typ = rSteer then
    tc && len == 24 && b 0 ≤ 5 && ([1, 2, 3, 4, 5, 6, 7, 8].all fun k => orNone 15 (b k)) && b 9 ≤ 3 && b 11 / 16 % 4 ≤ 2
  else if r.typ = rProgram then tc && 8 ≤ len && len ≤ 4096 && len % 8 == 0 && programOk (len / 8) p
  else if r.typ = rStamp then
    wide && len == 8 && r.group == 0 && 1 ≤ b 0 && 1 ≤ b 1 && b 1 ≤ 128 && 1 ≤ b 2 && b 2 ≤ 64 && 1 ≤ b 3 && b 3 ≤ 127 && 1 ≤ b 4 && b 4 ≤ 63
  else false

/-! ### Sequencer programs (R143) -/

/-- A program with its footprint comb (column, row) and sequencer. -/
structure SeqProg where
  rx : Nat
  ry : Nat
  seq : Nat
  prog : Prog
  deriving DecidableEq, Repr

/-- Parse the SEQPROG section; none when a head is out of range. -/
def parseProgs : Nat → List Byte → Option (List SeqProg)
  | 0, _ => some []
  | n + 1, bs =>
    if bs.length < 32 then some []
    else
      let t := leAt bs 4 4
      let m := leAt bs 8 4
      let e := leAt bs 12 4
      if 3 < byteAt bs 1 ∨ 15 < byteAt bs 0 ∨ 65536 < t ∨ t % 4 != 0 ∨ 16384 < m ∨ bs.length < 32 + t + m ∨ t ≤ e then none
      else
        (parseProgs n (bs.drop ((32 + t + m + 63) / 64 * 64))).map fun l =>
          ⟨byteAt bs 0 % 4, byteAt bs 0 / 4, byteAt bs 1, ⟨(bs.drop 32).take t, (bs.drop (32 + t)).take m, e, bit (byteAt bs 2) 0⟩⟩ :: l

def Dev.seqProgs (d : Dev) (i : Img) : Option (List SeqProg) :=
  match d.section? i 5 with
  | some s => parseProgs 64 (d.bytes (i.addr + s.off) s.len)
  | none => some []

/-- Pages of 4 KiB that a program's text and data take (log entry 34). -/
def progPages (p : Prog) : Nat := (p.text.length + p.data.length + 4095) / 4096

def Dev.progAt (d : Dev) (n : Nat) : Option Prog := sget (fun _ => none) d.img.progs n
/-- Key of a program: handle 16·p + h, footprint comb's device index, sequencer. -/
def progKey (handle k sq : Nat) : Nat := 64 * handle + 4 * k + sq

/-- Pages in use in the store of a comb. -/
def Dev.pagesUsed (d : Dev) (k : Nat) : Nat :=
  d.img.progs.foldl (fun a (q : Nat × Option Prog) => if q.1 / 4 % 16 = k then a + (q.2.elim 0 progPages) else a) 0

/-! ### The checks of Table 5-7 -/

/-- The first address of a range that is not in T1 granules of p: the address itself when misaligned. -/
def Dev.outside (d : Dev) (p a len align : Nat) : Option Nat :=
  if a % align != 0 then some a
  else if a < t1Base then some a
  else
    (List.range ((a + len - 1) / 2 ^ 34 + 1 - a / 2 ^ 34)).findSome? fun i =>
      let lo := max a ((a / 2 ^ 34 + i) * 2 ^ 34)
      if d.t1Owned p lo 1 then none else some lo

def entrySize (typ : Nat) : Nat :=
  if typ = 1 then 32 else if typ = 3 ∨ typ = 6 ∨ typ = 8 then 16 else if typ = 4 then 104 else if typ = 7 then 64 else if typ = 0xA then 4 else 1

/-- Check 4, its layout part (R134 to R137, R142). Table 5-7 names no check for three limits of the section layouts, which are refused here: WDOG above 1,000, a WCET section without exactly
one whole-step entry, and the region count (DESIGN CHOICE, log entry 88). -/
def Dev.layoutOk (d : Dev) (i : Img) : Bool :=
  let sig := d.imgNum i 24 8
  let n := d.imgNum i 32 2
  let ss := d.sections i
  let dirEnd := 256 + 16 * n
  let count := fun (t : Nat) => (ss.filter fun s => s.typ == t).length
  let serving := bit (d.imgNum i 12 4) 1
  i.len == sig + 384 && i.len ≤ 2 ^ 30 && sig % 64 == 0 && 1 ≤ n && n ≤ 1024 && 1 ≤ d.instarCount i && d.instarCount i ≤ 4096 &&
  1 ≤ d.footW i && d.footW i ≤ 4 && 1 ≤ d.footH i && d.footH i ≤ 4 && 1 ≤ d.imgNum i 38 2 && dirEnd ≤ sig &&
  (ss.all fun s => 1 ≤ s.typ && s.typ ≤ 0xB && s.off % 64 == 0 && dirEnd ≤ s.off && s.off + s.len ≤ sig && s.len % entrySize s.typ == 0 &&
    (s.typ == 2 || s.instar == 0xFFFF)) &&
  (ss.zipIdx.all fun a => ss.zipIdx.all fun b => a.2 == b.2 || a.1.off + a.1.len ≤ b.1.off || b.1.off + b.1.len ≤ a.1.off) &&
  count 1 == 1 && (match d.section? i 1 with | some s => s.len == 32 * d.imgNum i 38 2 | none => false) &&
  count 2 == d.instarCount i && ((List.range (d.instarCount i)).all fun k => (d.instarSection i k).isSome) &&
  (ss.all fun s => s.typ != 2 || (64 ≤ s.len && d.imgNum i s.off 2 == s.instar && d.imgNum i (s.off + 8) 2 ≤ 1000)) &&
  count 3 ≤ 1 && count 4 == 1 && count 5 == 1 && count 6 ≤ 1 && count 7 ≤ 1 && count 8 == 1 && count 9 == 1 && count 0xA ≤ 1 &&
  count 0xB == b2n serving &&
  (match d.section? i 8 with
   | some s => ((List.range (s.len / 16)).filter fun k => d.imgNum i (s.off + 16 * k) 2 == 0xFFFF).length == 1
   | none => false) &&
  1 ≤ d.regionCount i && d.regionCount i ≤ 64 && (match d.section? i 9 with | some s => s.len == 64 + 16 * d.regionCount i | none => false) &&
  (match d.section? i 0xB with | some s => s.len == 64 | none => true) &&
  ((List.range (sig - dirEnd)).all fun k =>
    let o := dirEnd + k
    (ss.any fun s => s.off ≤ o && o < s.off + s.len) || d.imgNum i o 1 == 0)

/-- The image's DIGEST: SHA-512 up to the signature block with the field itself as zero (R136). -/
def Dev.imageDigest (d : Dev) (i : Img) : List Byte :=
  sha512 (putAt (d.bytes i.addr (d.imgNum i 24 8)) 64 (zeros 64))

/-- A key-digest slot of p (R486). -/
def Dev.keySlot (d : Dev) (p j : Nat) : List Byte := (List.range 8).flatMap fun i => toLe 8 (d.rd (Reg.SEC_KEYDIG p j i)).toNat

/-- Does the signer's key pass for partition p (check 7)? -/
def Dev.keyOk (d : Dev) (p : Nat) (key : List Byte) : Bool :=
  let slots := ((List.range 4).map (d.keySlot p)).filter (· != zeros 64)
  slots.contains key || (slots.isEmpty && !d.sealed p)

/-- Check 8: footprint, records, bank bytes, GEOMETRY (R204), BNDMAP (R206), voters (R143). -/
def Dev.recordsOk (d : Dev) (p : Nat) (i : Img) : Bool :=
  let w := d.footW i
  let h := d.footH i
  let combs := d.footCombs i
  let descs := d.descCount i
  let routes := match d.section? i 3 with | some s => s.len / 16 | none => 0
  let secs := (List.range (d.instarCount i)).filterMap (d.instarSection i)
  let placed := secs.map fun s => (d.sectionRecs i s).map (placeRecs [])
  i.origin % 4 + w ≤ 4 && i.origin / 4 + h ≤ 4 && (combs.all fun k => (d.partCombs p).contains k) &&
  (placed.all fun q => match q with
    | some ps =>
      (ps.all fun r => recOk r.1 descs routes (d.imgNum i 38 2) && (match r.2 with | some l => l.all fun c => c.1 < 32 * w && c.2 < 16 * h | none => false)) &&
      ((usedCells ps).all fun c => bankBytes (cellRecs ps c.1 c.2) ≤ 16384)
    | none => false) &&
  (match d.geoOf i with | some g => geoValid g && g.station < d.imgNum i 38 2 && g.region < d.regionCount i && (d.region i g.region).2.1 == 4 | none => true) &&
  ((d.bndMap i).all fun b => b.2.1 ≤ 63 && b.2.2.1 ≤ 7) &&
  (match d.seqProgs i with
   | some ps =>
     (ps.all fun s => s.rx < w && s.ry < h && (ps.filter fun q => q.rx == s.rx && q.ry == s.ry && q.seq == s.seq).length == 1) &&
     (combs.all fun k =>
       let here := ps.filter fun s => i.origin + 4 * s.ry + s.rx == k
       let used := placed.any fun q => match q with
         | some l => (usedCells l).any fun c => combOf (Dev.footCell i c.1 c.2) == k
         | none => false
       !used || (here.filter fun s => s.prog.voter).length == 1)
   | none => false)

/-- Check 9: at most four work-counter homes in a cell, and no index twice. -/
def Dev.homesOk (d : Dev) (i : Img) : Bool :=
  match d.section? i 0xA with
  | some s =>
    let es := (List.range (s.len / 4)).map fun k => (d.imgNum i (s.off + 4 * k) 1, d.imgNum i (s.off + 4 * k + 2) 1, d.imgNum i (s.off + 4 * k + 3) 1)
    es.all fun e => (es.filter fun f => f.1 == e.1).length == 1 && (es.filter fun f => f.2 == e.2).length ≤ 4
  | none => true

/-- Check 10: the first region that is not in place. -/
def Dev.badRegion (d : Dev) (p : Nat) (i : Img) : Option Nat :=
  let rs := (List.range (d.regionCount i)).map fun r => (i.place.getD r 0, d.region i r)
  let apart := fun (a n b m : Nat) => a + n ≤ b || b + m ≤ a
  (List.range rs.length).find? fun k =>
    match rs[k]? with
    | some (a, tier, _, size) =>
      !(a % 512 == 0 && size % 512 == 0 && (if tier = 1 then d.t1Owned p a size else if tier = 2 then d.t2Owned p a size else false) &&
        apart a size i.addr i.len &&
        (rs.zipIdx.all fun q => q.2 == k || apart a size q.1.1 q.1.2.2.2))
    | none => false

/-- Check 11: the first comb whose program store has too few free pages, and the pages needed. -/
def Dev.badPages (d : Dev) (i : Img) : Option (Nat × Nat) :=
  (d.footCombs i).findSome? fun k =>
    let need := ((d.seqProgs i).getD []).foldl (fun a s => if i.origin + 4 * s.ry + s.rx = k then a + progPages s.prog else a) 0
    if 256 < d.pagesUsed k + need then some (k, need) else none

/-- The placement table of 64 addresses. -/
def Dev.placeTable (d : Dev) (p : Nat) : List Nat :=
  (List.range 64).map fun r => d.num ((d.rd (Reg.MOLT_PLACE_ADDR p)).toNat % 2 ^ 48 + 8 * r) 8

/-- The image that MOLT_IMG_ADDR and MOLT_PLACE_ADDR of p name, at an origin. -/
def Dev.candidate (d : Dev) (p origin : Nat) : Img :=
  let a := (d.rd (Reg.MOLT_IMG_ADDR p)).toNat % 2 ^ 48
  ⟨a, d.num (a + 16) 8, origin, d.placeTable p⟩

/-- The first failing check of Table 5-7: class, cause and detail. A signature block with another mark or version holds no signature to check and is refused by check 6 (DESIGN CHOICE, log
entry 88). -/
def Dev.regCheck (d : Dev) (p h : Nat) (i : Img) : Option (Nat × Nat × Nat) :=
  let hd := h * 2 ^ 60
  let img := fun (cause : Nat) => some (cImage, cause, hd)
  let sig := d.bytes (i.addr + d.imgNum i 24 8) 384
  let digest := d.bytes (i.addr + 64) 64
  match d.outside p i.addr 256 512, d.outside p ((d.rd (Reg.MOLT_PLACE_ADDR p)).toNat % 2 ^ 48) 512 64 with
  | some a, _ => some (cSecurity, 0x0932, hd + a)
  | none, some a => some (cSecurity, 0x0932, hd + a)
  | none, none =>
    if d.bytes i.addr 4 != [0x4A#8, 0x58#8, 0x49#8, 0x4D#8] ∨ d.imgNum i 5 1 != 1 ∨ d.imgNum i 6 2 != 256 then img 0x0901
    else if d.imgNum i 8 2 != 0x5840 ∨ !bit (d.imgNum i 10 2) 4 then img 0x0902
    else if d.rf Reg.BOOT_FW Fld.BOOT_FW_MAJOR * 256 + d.rf Reg.BOOT_FW Fld.BOOT_FW_MINOR < d.imgNum i 44 2 then img 0x0903
    else if !d.layoutOk i then img 0x0904
    else
      match d.outside p i.addr i.len 512 with
      | some a => some (cSecurity, 0x0932, hd + a)
      | none =>
        if d.imageDigest i != digest then img 0x0905
        else if !(sigMarks sig && sigKeyOk sig && sigOk sig digest) then img 0x0906
        else if !d.keyOk p (sigKey sig) then img 0x0907
        else if !d.recordsOk p i then img 0x0908
        else if !d.homesOk i then img 0x0909
        else
          match d.badRegion p i, d.badPages i with
          | some r, _ => some (cSecurity, 0x0931, hd + r)
          | none, some (k, n) => some (cResource, 0x0921, hd + n * 65536 + k)
          | none, none => none

/-! ### Measurement (R484) -/

/-- Extend a measurement register, given its eight words' offsets, with 64 bytes. -/
def Dev.extendMr (d : Dev) (off : Nat → Nat) (v : List Byte) : Dev :=
  let old := (List.range 8).flatMap fun i => toLe 8 (d.rd (off i)).toNat
  let new := sha512 (old ++ v)
  (List.range 8).foldl (fun e i => e.wr (off i) (BitVec.ofNat 64 (leAt new (8 * i) 8))) d

/-! ### REGISTER, REGISTRATION_END, RETIRE -/

def Dev.cmdResult (d : Dev) (p n : Nat) : Dev := d.wf (Reg.MOLT_STAT p) Fld.MOLT_STAT_CMD_RESULT n
def crRunning : Nat := 1
def crDone : Nat := 2
def crRefused : Nat := 3
def crBusy : Nat := 4

/-- The IMAGE event of a handle (Table 7-14). -/
def Dev.imageEvent (d : Dev) (p h : Nat) : Dev := d.event p 0x08 0xFF h 0 (d.rd (Reg.MOLT_HSTAT (16 * p + h))).toNat

/-- A write of MOLT_CMD with OP REGISTER (R145, R146). -/
def opRegisterImage (v p h origin : Nat) (d : Dev) : Dev :=
  if !d.mayPart v p then d
  else if d.rf (Reg.MOLT_CMD p) Fld.MOLT_CMD_OP != 0 then d.cmdResult p crBusy
  else
    let st := d.handleState (16 * p + h)
    if st = 1 ∨ st = 2 then (d.upd [(Reg.MOLT_CMD p, Fld.MOLT_CMD_ORIGIN, origin), (Reg.MOLT_CMD p, Fld.MOLT_CMD_HANDLE, h)]).cmdResult p crRefused
    else
      ((d.upd [(Reg.MOLT_CMD p, Fld.MOLT_CMD_ORIGIN, origin), (Reg.MOLT_CMD p, Fld.MOLT_CMD_HANDLE, h), (Reg.MOLT_CMD p, Fld.MOLT_CMD_OP, 1),
        (Reg.MOLT_HSTAT (16 * p + h), Fld.MOLT_HSTAT_STATE, 1)]).cmdResult p crRunning).setMolt p { d.molt p with cmdHandle := h }

/-- Resolve every descriptor's BASE in place (R142). -/
def Dev.resolveBases (d : Dev) (i : Img) : Dev :=
  match d.section? i 4 with
  | some s =>
    (List.range (s.len / 104)).foldl (fun (e : Dev) n =>
      let a := i.addr + s.off + 104 * n
      let r := d.num (a + 96) 1
      if r = 0xFF then e else e.setNum a 6 (i.place.getD r 0 + d.num a 6)) d
  | none => d

/-- The registered image: programs loaded, descriptors resolved, MRP extended, the handle REGISTERED. -/
def Dev.registered (d : Dev) (p h : Nat) (i : Img) : Dev :=
  let n := 16 * p + h
  let ps := (d.seqProgs i).getD []
  let progs := ps.foldl (fun m s => sput (fun _ => none) m (progKey n (i.origin + 4 * s.ry + s.rx) s.seq) (some s.prog)) d.img.progs
  let pages := ps.foldl (fun a s => a + progPages s.prog) 0
  let d1 : Dev := { d with img := { d.img with progs := progs } }
  let d2 := (d1.setImg n (some i)).resolveBases i
  let d3 := d2.extendMr (Reg.SEC_MRP p) (d.bytes (i.addr + 64) 64)
  let d4 := d3.upd [(Reg.MOLT_HSTAT n, Fld.MOLT_HSTAT_STATE, 2), (Reg.MOLT_HSTAT n, Fld.MOLT_HSTAT_INSTARS, d.instarCount i),
    (Reg.MOLT_HSTAT n, Fld.MOLT_HSTAT_PAGES, pages), (Reg.MOLT_HSTAT n, Fld.MOLT_HSTAT_ORIGIN, i.origin),
    (Reg.MOLT_HSTAT n, Fld.MOLT_HSTAT_FOOT_W, d.footW i), (Reg.MOLT_HSTAT n, Fld.MOLT_HSTAT_FOOT_H, d.footH i)]
  (d4.wr (Reg.MOLT_HDIG n) (BitVec.ofNat 64 (d.imgNum i 64 8))).cmdResult p crDone

/-- REGISTRATION_END: the checks in order; a failure refuses the handle and loads nothing. -/
def opRegistrationEnd (p : Nat) (d : Dev) : Dev :=
  let h := (d.molt p).cmdHandle
  if d.rf (Reg.MOLT_CMD p) Fld.MOLT_CMD_OP = 1 ∧ d.handleState (16 * p + h) = 1 then
    let i := d.candidate p (d.rf (Reg.MOLT_CMD p) Fld.MOLT_CMD_ORIGIN)
    let d1 := d.wf (Reg.MOLT_CMD p) Fld.MOLT_CMD_OP 0
    match d.regCheck p h i with
    | some (cls, cause, detail) =>
      let d2 := (d1.raise { notice cls cause detail with part := some p }).wr (Reg.MOLT_HSTAT (16 * p + h)) (BitVec.ofNat 64 (3 * 2 ^ 60))
      (d2.cmdResult p crRefused).imageEvent p h
    | none => (d1.registered p h i).imageEvent p h
  else d

/-- Does an enabled context of p name the handle (R148)? -/
def Dev.handleNamed (d : Dev) (p h : Nat) : Bool :=
  (List.range 64).any fun c => d.partOfCtx c == some p && d.rf (Reg.SCHED_CTX c) Fld.SCHED_CTX_ENABLE == 1 && d.rf (Reg.SCHED_CTX c) Fld.SCHED_CTX_HANDLE == h

/-- Does a MODEL_SWITCH launch slot that is ARMED, READY or HELD name it? Action 5 is MODEL_SWITCH. -/
def Dev.handleLaunch (d : Dev) (p h : Nat) : Bool :=
  (List.range 32).any fun n =>
    let st := d.rf (Reg.TIME_LAUNCH_STAT n) Fld.TIME_LAUNCH_STAT_STATE
    let a := d.rd (Reg.TIME_LAUNCH_ACT n)
    (st == 1 || st == 2 || st == 3) && fget a Fld.TIME_LAUNCH_ACT_ACTION == 5 && fget a Fld.TIME_LAUNCH_ACT_PART == p &&
      fget a Fld.TIME_LAUNCH_ACT_HANDLE == h

/-- May RETIRE free the handle? -/
def Dev.mayRetire (d : Dev) (p h : Nat) : Bool :=
  let n := 16 * p + h
  let shadow := d.rf (Reg.MOLT_STAT p) Fld.MOLT_STAT_SHADOW_HANDLE == h &&
    (d.moltState p == mLoading || d.rf (Reg.MOLT_STAT p) Fld.MOLT_STAT_SHADOW_VALID == 1 || !(d.molt p).unacked.isEmpty)
  d.handleState n == 3 || (d.handleState n == 2 && d.activeHandle p != some n && !shadow && !d.handleNamed p h && !d.handleLaunch p h)

/-- Free a handle: its pages, the protection of its area, its state. -/
def Dev.freeHandle (d : Dev) (p h : Nat) : Dev :=
  let n := 16 * p + h
  let d1 : Dev := { d with img := { d.img with progs := d.img.progs.filter fun (q : Nat × Option Prog) => q.1 / 64 != n } }
  ((d1.setImg n none).wr (Reg.MOLT_HSTAT n) 0).wr (Reg.MOLT_HDIG n) 0

/-- A write of MOLT_CMD with OP RETIRE (R148). -/
def opRetire (v p h : Nat) (d : Dev) : Dev :=
  if !d.mayPart v p then d
  else if d.rf (Reg.MOLT_CMD p) Fld.MOLT_CMD_OP != 0 then d.cmdResult p crBusy
  else
    let d0 := d.wf (Reg.MOLT_CMD p) Fld.MOLT_CMD_HANDLE h
    if d.mayRetire p h then ((d0.freeHandle p h).cmdResult p crDone).imageEvent p h else d0.cmdResult p crRefused

def execRegisterImage (v : View) (p : PartIdx) (h : Fin 16) (o : CombIdx) (s : State) : Host.Outcome State Fault Refusal :=
  hostDone s (Reg.MOLT_CMD p) (opRegisterImage v p h o)
def execRegistrationEnd (p : PartIdx) (s : State) : Host.Outcome State Fault Refusal := done s (opRegistrationEnd p s.dev)
def execRetire (v : View) (p : PartIdx) (h : Fin 16) (s : State) : Host.Outcome State Fault Refusal := hostDone s (Reg.MOLT_CMD p) (opRetire v p h)

end Sys2Proof.Machine
end

