-- ==== Sys2Proof/Machine/Molt.lean ====
section
/-!
DEFINITION. Molts (R154 to R166): the shadow load with its CFG_WRITE and CFG_ACK packets (R38, R39, R155 to R158), the drain barrier (R159 to R161), the flip
(R162, R164) and the re-tag of ABORTING (R163).
-/
namespace Sys2Proof.Machine

/-! ### Footprints and sequencers -/

def Dev.img? (d : Dev) (p h : Nat) : Option Img := if d.handleState (16 * p + h) = 2 then d.imgAt (16 * p + h) else none

/-- The cells of a footprint. -/
def Dev.footCells (d : Dev) (i : Img) : List Nat :=
  (List.range (16 * d.footH i)).flatMap fun y => (List.range (32 * d.footW i)).map fun x => Dev.footCell i x y

/-- The sequencers of an image's combs start at ENTRY with x1 to x31 zero; their data memory is loaded when the image becomes active (R153). -/
def Dev.startSeqs (d : Dev) (handle : Nat) (combs : List Nat) (load : Bool) : Dev :=
  combs.foldl (fun e k => (List.range 4).foldl (fun (e : Dev) i =>
    match d.progAt (progKey handle k i) with
    | some g =>
      let data : Store Byte := if load then g.data.zipIdx.foldl (fun m b => sput (fun _ => 0#8) m b.2 b.1) [] else (d.seq k i).data
      e.setSeq k i ⟨true, g.entry, [], [], data, .none, 0⟩
    | none => e.setSeq k i SeqSt.zero) e) d

/-! ### The shadow load (R155 to R158) -/

/-- Records of an instar, placed; STAMP and group as registration found them. -/
def Dev.instarRecs (d : Dev) (i : Img) (n : Nat) : List (RawRec × Option (List (Nat × Nat))) :=
  match d.instarSection i n with
  | some s => placeRecs [] ((d.sectionRecs i s).getD [])
  | none => []

/-- The lowest and the highest offset of a walk at the planned maxima. -/
def walkSpan (sd : StreamDesc) : Int × Int :=
  sd.dims.foldl (fun (a : Int × Int) q =>
    let t := q.stride * ((q.max - 1 : Nat) : Int)
    (a.1 + min 0 t, a.2 + max 0 t)) (0, 0)

/-- R156: the first descriptor bound by an instar's STREAM records whose walk leaves its region. A descriptor with REGION 0xFF (R142: a BLOCKED stream, or one with TIER none) has no
region to leave. -/
def Dev.badWalk (d : Dev) (i : Img) (ps : List (RawRec × Option (List (Nat × Nat)))) : Option (Nat × Nat) :=
  ((ps.filter fun q => q.1.typ == rStream).map fun q => leAt q.1.payload 0 2).findSome? fun n =>
    match d.desc i n with
    | some sd =>
      let r := d.descRegion i n
      if r = 0xFF then none
      else
        let lo := (i.place.getD r 0 : Int)
        let hi := lo + (d.region i r).2.2
        let w := walkSpan sd
        if lo ≤ sd.base + w.1 ∧ (sd.base + w.2 + tileBytes : Int) ≤ hi then none else some (n, r)
    | none => none

/-- Bytes of a record as a CFG_WRITE carries it. -/
def recBytes (r : CfgRec) (x y : Nat) : List Byte :=
  let body := toLe 1 r.typ ++ toLe 1 0 ++ toLe 2 r.payload.length ++ toLe 1 x ++ toLe 1 y ++ toLe 1 r.tc ++ zeros 1 ++ r.payload
  body ++ zeros ((64 - body.length % 64) % 64)

/-- The CFG_WRITE packets of one cell, through its forager's port; TAG counts the packets that follow (log entry 35). -/
def Dev.sendCfg (d : Dev) (c gen : Nat) (rs : List CfgRec) : Dev :=
  rs.zipIdx.foldl (fun (e : Dev) r =>
    let port := forCell (combOf c) (forOf c)
    e.inject port (mkPkt 0x10 gen c port (rs.length - 1 - r.2) 0 (recBytes r.1 (cellX c) (cellY c)))) d

/-- MOLT_TIMES fields count 10 ns, saturating. -/
def t10ns (ps : Nat) : Nat := min (ps / 10000) 0xFFFF

/-- Start the shadow load of an instar: descriptors are checked, the shadow banks of the footprint are invalid, then the records go out. A cell that the active
image's footprint lacks takes the partition's present generation (log entry 38). -/
def Dev.startLoad (d : Dev) (p h n : Nat) : Dev :=
  match d.img? p h with
  | none => d
  | some i =>
    let ps := d.instarRecs i n
    let d0 := (d.cancelLoad p).upd [(Reg.MOLT_STAT p, Fld.MOLT_STAT_SHADOW_VALID, 0)]
    match d.badWalk i ps with
    | some (desc, r) => (if d.moltState p = mLoading then d0.setMoltState p mIdle else d0).stepFault p (d.curCtx p) (notice cConfig 0x0916 (desc * 2 ^ 32 + r))
    | none =>
      let used := usedCells ps
      let cells := d.footCells i
      let now := match d.activeImg p with | some a => d.footCells a | none => []
      let act := BitVec.ofNat 8 (d.rf (Reg.MOLT_STAT p) Fld.MOLT_STAT_GEN)
      let writes := used.map fun c => (Dev.footCell i c.1 c.2, cellRecs ps c.1 c.2)
      let busy := (writes.filter fun w => !w.2.isEmpty).map (·.1)
      let gen := (d.rf (Reg.MOLT_STAT p) Fld.MOLT_STAT_GEN + 1) % 256
      let d1 : Dev := { d0 with fab := { d0.fab with transit := d0.fab.transit.filter fun q => !(q.part == p && [0x10#8, 0x11#8].contains q.flit.kind) } }
      let d2 := cells.foldl (fun (e : Dev) c => e.modCell c fun x => { x with
        gen := if now.contains c then x.gen else act, shadow := [], shadowValid := !busy.contains c, shadowBad := false }) d1
      let d3 := d2.upd [(Reg.MOLT_STAT p, Fld.MOLT_STAT_STATE, if busy.isEmpty then mLoaded else mLoading), (Reg.MOLT_STAT p, Fld.MOLT_STAT_SHADOW_INSTAR, n),
        (Reg.MOLT_STAT p, Fld.MOLT_STAT_SHADOW_HANDLE, h), (Reg.MOLT_STAT p, Fld.MOLT_STAT_SHADOW_VALID, b2n busy.isEmpty)]
      let d4 := d3.setMolt p { d3.molt p with unacked := busy, loadStart := d.ps }
      writes.foldl (fun (e : Dev) w => e.sendCfg w.1 gen w.2) d4

/-- Is instar n of handle h loading, or loaded and valid? -/
def Dev.shadowHolds (d : Dev) (p h n : Nat) : Bool :=
  d.rf (Reg.MOLT_STAT p) Fld.MOLT_STAT_SHADOW_INSTAR == n && d.rf (Reg.MOLT_STAT p) Fld.MOLT_STAT_SHADOW_HANDLE == h &&
    (!(d.molt p).unacked.isEmpty || d.rf (Reg.MOLT_STAT p) Fld.MOLT_STAT_SHADOW_VALID == 1)

/-- A preload: no effect when the instar is loading or loaded, else a fresh load (R157). Table 5-9 gives DRAINING, FLIPPING and ABORTING no exit by a preload, so in
them it has no effect (DEDUCED, log entry 88). -/
def Dev.preload (d : Dev) (p h n : Nat) : Dev :=
  if d.shadowHolds p h n || [mDraining, mFlipping, mAborting].contains (d.moltState p) then d else d.startLoad p h n

/-! ### Cells: CFG_WRITE and the checks of R38 -/

/-- Records in a CFG_WRITE payload, up to its padding. -/
def packetRecs : Nat → List Byte → List CfgRec
  | 0, _ => []
  | n + 1, bs =>
    if bs.length < 8 ∨ byteAt bs 0 = 0 then []
    else ⟨byteAt bs 0, byteAt bs 6, (bs.drop 8).take (leAt bs 2 2)⟩ :: packetRecs n (bs.drop (8 + leAt bs 2 2))

/-- The first failing check of R38: cause and detail. -/
def bankCheck (rs : List CfgRec) : Option (Nat × Nat) :=
  let plan := bankRec rs rSramPlan fun _ => true
  let qs := queueRecs rs
  let units := 9 * sramTb rs + 9 * qs.foldl (fun a r => a + r.b 1) 0 + sramStg rs
  let queues := max qs.length (match plan with | some r => r.b 1 | none => 0)
  let tcs := rs.filter fun r => r.typ == rTcSetup
  let pairs := tcs.flatMap fun a => (tcs.filter fun b => a.tc < b.tc).map fun b => (a, b)
  let overlap := fun (a b : CfgRec) => decide (a.b 2 < b.b 2 + b.b 3 ∧ b.b 2 < a.b 2 + a.b 3)
  if 384 < units then some (0x0101, min units 0xFFFF)
  else if 16 < queues then some (0x0102, queues)
  else
    match qs.find? (fun r => r.b 1 == 0 || 32 < r.b 1) with
    | some r => some (0x0102, r.b 1)
    | none =>
      match pairs.find? (fun q => q.1.b 4 % 4 &&& q.2.b 4 % 4 != 0) with
      | some (a, b) => some (0x0103, if bit (a.b 4) 0 && bit (b.b 4) 0 then 0 else 1)
      | none =>
        match tcs.find? (fun r => 32 < r.b 2 + r.b 3), pairs.find? (fun q => overlap q.1 q.2) with
        | some r, _ => some (0x0105, r.n 2 2)
        | none, some (_, b) => some (0x0105, b.n 2 2)
        | none, none =>
          match tcs.find? (fun r => 3 < r.tc) with
          | some r => some (0x0104, r.tc % 8)
          | none => none

/-- CFG_WRITE: only the active generation plus 1 is taken; the last packet of the cell's load brings the checks. -/
def opCfgWrite (p : Packet) (d : Dev) : Dev :=
  d.eject 0x10 p fun e =>
    let c := p.dst
    let x := e.cell c
    if p.gen != (x.gen.toNat + 1) % 256 then e.dbg c (Reg.DBG_CFG_DISCARD c) 1
    else
      let sh := (packetRecs 600 p.payload).foldl applyRec x.shadow
      let ack := mkPkt 0x11 x.gen.toNat p.src c p.tag 0 []
      let e1 := e.setCell c { x with shadow := sh }
      if p.tag != 0 then e1.inject c ack
      else
        match bankCheck sh with
        | none => (e1.modCell c fun z => { z with shadowValid := true }).inject c ack
        | some (cause, detail) =>
          ((e1.modCell c fun z => { z with shadowValid := false, shadowBad := true }).inject c ack).cellFault c cResource cause detail

/-- Every cell has acknowledged: the load ends (Table 5-9). A waiting molt request for the loaded instar goes on to DRAINING, and a wait of its drain for the load is
within MOLT_TIMES.DRAIN; one for another instar loads that one (R158). -/
def Dev.loadDone (d : Dev) (p : Nat) : Dev :=
  let h := d.rf (Reg.MOLT_STAT p) Fld.MOLT_STAT_SHADOW_HANDLE
  let n := d.rf (Reg.MOLT_STAT p) Fld.MOLT_STAT_SHADOW_INSTAR
  let m := d.molt p
  match d.img? p h with
  | some i =>
    let ok := (d.footCells i).all fun c => (d.cell c).shadowValid
    let d1 := d.upd [(Reg.MOLT_TIMES p, Fld.MOLT_TIMES_LOAD, t10ns (d.ps - m.loadStart)), (Reg.MOLT_STAT p, Fld.MOLT_STAT_SHADOW_VALID, b2n ok)]
    if d1.moltState p = mLoading then
      if m.draining ∧ m.target = some (h, n) then
        (if m.barrier then d1.wf (Reg.MOLT_TIMES p) Fld.MOLT_TIMES_DRAIN (t10ns (d.ps - m.drainStart)) else d1).setMoltState p mDraining
      else
        let d2 := d1.setMoltState p mLoaded
        match m.target with
        | some t => if m.requests.isEmpty ∨ t = (h, n) then d2 else d2.preload p t.1 t.2
        | none => d2
    else d1
  | none => d

/-- CFG_ACK: TAG 0 acknowledges a cell's last write. -/
def opCfgAck (p : Packet) (d : Dev) : Dev :=
  d.eject 0x11 p fun e =>
    match e.partOfComb (combOf p.dst) with
    | some q =>
      let m := e.molt q
      if p.tag = 0 ∧ m.unacked.contains p.src then
        let e1 := e.setMolt q { m with unacked := m.unacked.erase p.src }
        if (m.unacked.erase p.src).isEmpty then e1.loadDone q else e1
      else e
    | none => e

/-! ### The drain barrier (R158 to R161) -/

/-- The footprint combs of a handle that have a voter. -/
def Dev.voterCombs (d : Dev) (p h : Nat) : List Nat :=
  match d.img? p h with
  | some i => (d.footCombs i).filter fun k => (List.range 4).any fun s => match d.progAt (progKey (16 * p + h) k s) with | some g => g.voter | none => false
  | none => []

/-- The barrier starts: cells may send DRAIN. -/
def Dev.startDrain (d : Dev) (p : Nat) : Dev :=
  let d1 := d.setMolt p { d.molt p with draining := true, drained := [], barrier := false, drainStart := d.ps }
  if d1.moltState p = mLoading then d1 else d1.setMoltState p mDraining

/-- The voter of comb k requests a molt to instar n of the active image (R158, R161). Where the shadow load cannot start (R156) the step has aborted, and no molt is requested. -/
def Dev.moltRequest (d : Dev) (p k n : Nat) : Dev :=
  let fault := fun (cause detail : Nat) => d.stepFault p (d.curCtx p) { notice cConfig cause detail with comb := k }
  match d.activeHandle p with
  | none => d
  | some hh =>
    let h := hh % 16
    match d.img? p h with
    | none => d
    | some i =>
      if d.instarCount i ≤ n then fault 0x0913 (n % 65536)
      else
        match (d.molt p).requests.head? with
        | some (_, f) =>
          if f != n then fault 0x0912 (f * 65536 + n)
          else
            let d1 := d.setMolt p { d.molt p with requests := (d.molt p).requests ++ [(k, n)] }
            if (d.voterCombs p h).all fun q => (d1.molt p).requests.any fun r => r.1 == q then d1.startDrain p else d1
        | none =>
          let d0 := d.preload p h n
          if !d0.shadowHolds p h n then d0
          else
            let d1 := d0.setMolt p { d0.molt p with requests := [(k, n)], target := some (h, n) }
            if (d.voterCombs p h).all fun q => q == k then d1.startDrain p else d1

/-- The cell that a comb's DRAIN packets go to: the collector shares the port of the comb's cell (0, 0) (log entry 36). -/
def collectorCell (k : Nat) : Nat := combCell k 0 0

/-- Is a cell drained: contexts DONE or UNUSED, queues empty, writes acknowledged? -/
def cellDrained (x : Cell) : Bool :=
  (x.tcs.all fun q => q.2.st == .unused || q.2.st == .done) && (x.queues.all fun q => q.2.slots.isEmpty) && x.unacked == 0

/-- CELL_DRAIN_SEND. -/
def opCellDrainSend (c : Nat) (d : Dev) : Dev :=
  match d.partOfComb (combOf c) with
  | some p =>
    let x := d.cell c
    let inFoot : Bool := match d.activeImg p with | some i => (d.footCombs i).contains (combOf c) | none => false
    if (d.molt p).draining ∧ inFoot ∧ cellDrained x ∧ !x.drainSent then
      (d.modCell c fun z => { z with drainSent := true }).inject c (mkPkt 0x18 x.gen.toNat (collectorCell (combOf c)) c 0 0 [])
    else d
  | none => d

/-- DRAIN at the collector. -/
def opDrain (p : Packet) (d : Dev) : Dev :=
  d.eject 0x18 p fun e =>
    let k := combOf p.dst
    match e.partOfComb k with
    | some q =>
      if p.dst = collectorCell k then
        e.setMolt q { e.molt q with drained := sput (fun _ => 0) (e.molt q).drained k (sget (fun _ => 0) (e.molt q).drained k + 1) }
      else e
    | none => e

/-- DRAIN_BARRIER_COMPLETE: every comb of the footprint has its 512 DRAINs, and every forager has finished its STORE writes and spills. -/
def opDrainBarrier (p : Nat) (d : Dev) : Dev :=
  let m := d.molt p
  match d.activeImg p with
  | some i =>
    let ks := d.footCombs i
    let counted := ks.all fun k => sget (fun _ => 0) m.drained k == 512
    let stores := d.fab.issues.all fun j => !ks.contains j.comb || (j.spilled.isEmpty && (j.sd.kind != skStore || j.landed == j.sent))
    if m.draining ∧ !m.barrier ∧ counted ∧ stores then
      (d.setMolt p { m with barrier := true }).wf (Reg.MOLT_TIMES p) Fld.MOLT_TIMES_DRAIN (t10ns (d.ps - m.drainStart))
    else d
  | none => d

/-! ### The flip (R162, R164) -/

/-- Credits of an output at a flip: the producer's share of the queue it feeds (R43, R44). A REMOTE output takes the share of its target's queue, read from this
device's cell of the same footprint place, since participants run one image; an output to an edge engine has one credit, which the engine returns at once
(log entry 37). -/
def Dev.flipCredits (d : Dev) (i : Img) (c : Nat) (r : CfgRec) : Nat :=
  let share := fun (rs : List CfgRec) (q : Nat) =>
    match queueRec rs q with
    | some z => if z.b 2 ≤ 1 then z.b 1 else z.b (8 + r.b 5)
    | none => 0
  if r.b 7 = 0 then share (d.cell (outCell c r)).active (r.b 4)
  else
    match (producerRecs d i (d.cell c) r.tc).find? fun s => outputOf d i (d.cell c) r.tc (s.n 0 2) == some (r.b 0) with
    | some s =>
      match d.desc i (s.n 0 2) with
      | some sd =>
        if sd.kind = skRemote ∧ sd.base / 2 ^ 46 = 0 then
          share (d.cell (Dev.footCell i (sd.base / 2 ^ 33 % 128) (sd.base / 2 ^ 27 % 64))).active (sd.base / 2 ^ 21 % 16)
        else 1
      | none => 1
    | none => 1

/-- The task contexts of a cell at a flip: READY at the start of their program, HALTED under TC_HALT, with fresh credits. -/
def Dev.flipTcs (d : Dev) (i : Img) (c : Nat) : Store Tc :=
  let x := d.cell c
  let halt := d.rf (Reg.DBG_CTL c) Fld.DBG_CTL_TC_HALT
  (List.range 4).foldl (fun m t =>
    match tcSetup x.active t with
    | some _ =>
      let outs := (outsOf x t).foldl (fun o n =>
        match outRec x.active t n with
        | some r => sput (fun _ => OutPort.zero) o n ⟨d.flipCredits i c r, 0, false⟩
        | none => o) []
      sput (fun _ => Tc.zero) m t { Tc.zero with st := (if bit halt t then .halted else .ready), since := d.ps, outs := outs }
    | none => m) []

/-- A cell after its generation change: registers, banks, flags, queues cleared. The issue slot goes to the first READY context from TC 0 on, as if TC 3 had left it, and that first grant
counts in DBG_TC_SWITCH unless it goes to TC 3: R41 orders contexts only after one that left (DESIGN CHOICE, log entry 86). -/
def renewCell (x : Cell) (swap : Bool) : Cell :=
  { x with
    gen := x.gen + 1, bank := if swap then !x.bank else x.bank, active := if swap then x.shadow else x.active, shadow := if swap then x.active else x.shadow,
    shadowValid := false, shadowBad := false, tcs := [], queues := [], bufFresh := [], vregs := [], acc := [], unacked := 0, drainSent := false,
    last := 3, haltAt := none, forCredits := [] }

/-- Cells of the footprint of image i start: their task contexts are set up from the active banks and the first ready one runs. -/
def Dev.startCells (d : Dev) (i : Img) (cells : List Nat) : Dev :=
  cells.foldl (fun (e : Dev) c =>
    let y := { e.cell c with tcs := d.flipTcs i c, forCredits := forCreditsOf (e.cell c) }
    (e.setCell c (restartWatch y e.ps)).pick c) d

/-- Every cell of the footprint of image i renews itself; a flip swaps banks, a re-tag does not. -/
def Dev.renewCells (d : Dev) (i : Img) (swap : Bool) : Dev :=
  let cells := d.footCells i
  (cells.foldl (fun (e : Dev) c => e.modCell c fun x => renewCell x swap) d).startCells i cells

/-- The stall-watchdog limits of an instar (R61). -/
def Dev.setWdog (d : Dev) (i : Img) (n : Nat) : Dev :=
  match d.instarSection i n with
  | some s => (d.footCells i).foldl (fun (e : Dev) c => e.wf (Reg.DBG_WDOG c) Fld.DBG_WDOG_LIMIT (let w := d.imgNum i (s.off + 8) 2; if w = 0 then 10 else w)) d
  | none => d

/-- Has 1 µs passed since the last generation change (R164)? -/
def Dev.genRested (d : Dev) (p : Nat) : Bool := (d.molt p).genAt == 0 || (d.molt p).genAt + us ≤ d.ps

/-- Count a generation change. -/
def Dev.genChange (d : Dev) (p : Nat) : Dev :=
  ((d.wf (Reg.MOLT_STAT p) Fld.MOLT_STAT_GEN (d.rf (Reg.MOLT_STAT p) Fld.MOLT_STAT_GEN + 1)).bump (Reg.MOLT_FLIPS p) 1).setMolt p
    { d.molt p with genAt := d.ps }

/-- The flip to the instar that the shadow holds. A switch molt brings the other image's programs (R153). -/
def Dev.flip (d : Dev) (p : Nat) : Dev :=
  let n := d.rf (Reg.MOLT_STAT p) Fld.MOLT_STAT_SHADOW_INSTAR
  let h := d.rf (Reg.MOLT_STAT p) Fld.MOLT_STAT_SHADOW_HANDLE
  match d.img? p h with
  | some i =>
    let switch := d.activeHandle p != some (16 * p + h)
    let d1 := (d.renewCells i true).setWdog i n
    let d2 := d1.genChange p
    let d3 := d2.upd [(Reg.MOLT_STAT p, Fld.MOLT_STAT_ACTIVE_INSTAR, n), (Reg.MOLT_STAT p, Fld.MOLT_STAT_ACTIVE_HANDLE, h),
      (Reg.MOLT_STAT p, Fld.MOLT_STAT_ACTIVE_VALID, 1), (Reg.MOLT_STAT p, Fld.MOLT_STAT_SHADOW_VALID, 0), (Reg.MOLT_STAT p, Fld.MOLT_STAT_STATE, mFlipping)]
    let d4 := if switch then d3.startSeqs (16 * p + h) (d.partCombs p) true else d3
    d4.setMolt p { d4.molt p with flipStart := d.ps }
  | none => d

/-- FLIP_START. -/
def opFlipStart (p : Nat) (d : Dev) : Dev :=
  if d.moltState p = mDraining ∧ (d.molt p).barrier ∧ d.rf (Reg.MOLT_STAT p) Fld.MOLT_STAT_SHADOW_VALID = 1 ∧ d.genRested p then d.flip p else d

/-- SQ.MOLT returns with the new generation. -/
def Dev.endMoltWaits (d : Dev) (p : Nat) : Dev :=
  let gen := d.rf (Reg.MOLT_STAT p) Fld.MOLT_STAT_GEN
  (d.partCombs p).foldl (fun e k => (List.range 4).foldl (fun (e : Dev) i =>
    let s := e.seq k i
    match s.wait with
    | .molt rd _ => e.setSeq k i { s with wait := .none, pc := s.pc + 4, x := if rd = 0 then s.x else sput (fun _ => 0#64) s.x rd (BitVec.ofNat 64 gen) }
    | _ => e) e) d

/-- FLIP_END; an abort that waited acts now. -/
def opFlipEnd (p : Nat) (d : Dev) : Dev :=
  if d.moltState p = mFlipping then
    let m := d.molt p
    let d1 := (d.setMoltState p mIdle).wf (Reg.MOLT_TIMES p) Fld.MOLT_TIMES_FLIP (t10ns (d.ps - m.flipStart))
    let d2 := (d1.endMoltWaits p).setMolt p { m with requests := [], draining := false, drained := [], barrier := false, target := none, abortWaits := false, held := none }
    if m.abortWaits then d2.startAborting p else d2
  else d

/-- The re-tag of ABORTING: the active bank keeps its instar, the generation goes on, and the sequencers start at ENTRY. -/
def Dev.retag (d : Dev) (p : Nat) : Dev :=
  match d.activeHandle p, d.activeImg p with
  | some h, some i => ((d.renewCells i false).genChange p).startSeqs h (d.partCombs p) false
  | _, _ => d

def execCfgWrite (p : Packet) (s : State) : Host.Outcome State Fault Refusal := done s (opCfgWrite p s.dev)
def execCfgAck (p : Packet) (s : State) : Host.Outcome State Fault Refusal := done s (opCfgAck p s.dev)
def execCellDrainSend (c : CellIdx) (s : State) : Host.Outcome State Fault Refusal := done s (opCellDrainSend c s.dev)
def execDrain (p : Packet) (s : State) : Host.Outcome State Fault Refusal := done s (opDrain p s.dev)
def execDrainBarrierComplete (p : PartIdx) (s : State) : Host.Outcome State Fault Refusal := done s (opDrainBarrier p s.dev)
def execFlipStart (p : PartIdx) (s : State) : Host.Outcome State Fault Refusal := done s (opFlipStart p s.dev)
def execFlipEnd (p : PartIdx) (s : State) : Host.Outcome State Fault Refusal := done s (opFlipEnd p s.dev)

end Sys2Proof.Machine
end

