-- ==== Sys2Proof/Machine/Link.lean ====
section
/-!
DEFINITION. Brood links and fabric ports: link flits (R321, R322), port states (R323, R324), hellos (R325), the brood (R326 to R330), the
sending side of delivery (R335 to R339) and the loss of a node (R340, R261).
-/
namespace Sys2Proof.Machine

/-! ### Hellos -/

/-- The parts of a hello that do not depend on the port (Table 11-4): the brood flags seen, DIRECT and MEMBERS. -/
def isBroodPeer (d : Dev) (h : HelloInfo) : Bool :=
  bit h.node.toNat 63 && fget h.node Fld.GLB_NODE_ROLE != 0 &&
    fget h.node Fld.GLB_NODE_NODE_ID / 8 == d.node / 8 && fget h.node Fld.GLB_NODE_NODE_ID % 8 != d.pos

/-- Positions to which a used brood link is UP. -/
def Dev.directBits (d : Dev) : Nat :=
  (List.range 8).foldl (fun a q => a + (match d.usedLink q with | some l => if portState d l = 3 then 2 ^ q else 0 | none => 0)) 0

def Dev.fwDigest (d : Dev) : List Byte := (List.range 8).flatMap fun i => toLe 8 (d.rd (Reg.BOOT_DIGEST i)).toNat

/-- Hellos of the brood links that are in HELLO or UP. -/
def Dev.broodHellos (d : Dev) : List (Nat × HelloInfo) :=
  (List.range 7).filterMap fun l =>
    if portState d l = 2 ∨ portState d l = 3 then (d.port l).hello.map fun h => (l, h) else none

/-- Does a brood peer run other firmware (R327)? -/
def Dev.misSeen (d : Dev) : Bool :=
  d.broodHellos.any fun q => isBroodPeer d q.2 &&
    (q.2.fwMajor != d.rf Reg.BOOT_FW Fld.BOOT_FW_MAJOR || q.2.fwMinor != d.rf Reg.BOOT_FW Fld.BOOT_FW_MINOR || q.2.digest != d.fwDigest)

/-- Does a hello claim this device's place, or do two links report one valid node of this colony and tray with different sessions (R327)? -/
def Dev.dupSeen (d : Dev) : Bool :=
  d.broodHellos.any (fun q => bit q.2.node.toNat 63 && fget q.2.node Fld.GLB_NODE_NODE_ID == d.node) ||
    d.broodHellos.any (fun q => d.broodHellos.any fun r =>
      bit q.2.node.toNat 63 && bit r.2.node.toNat 63 && fget q.2.node Fld.GLB_NODE_NODE_ID / 8 == d.node / 8 &&
        fget q.2.node Fld.GLB_NODE_NODE_ID == fget r.2.node Fld.GLB_NODE_NODE_ID && q.2.session != r.2.session)

def Dev.formed (d : Dev) : Bool := d.rf Reg.LNK_BROOD_STAT Fld.LNK_BROOD_STAT_FORMED == 1

/-- The 128-byte hello payload (Table 11-4). -/
def Dev.helloBytes (d : Dev) (link kind : Nat) : List Byte :=
  toLe 8 (d.rd Reg.GLB_NODE).toNat ++ toLe 1 link ++ toLe 1 kind ++
    toLe 1 (d.rf Reg.BOOT_FW Fld.BOOT_FW_MINOR) ++ toLe 1 (d.rf Reg.BOOT_FW Fld.BOOT_FW_MAJOR) ++ toLe 2 d.lnk.session ++
    toLe 1 (b2n d.dupSeen + 2 * b2n d.misSeen + 4 * b2n d.formed) ++ toLe 1 d.directBits ++ toLe 1 d.members ++ zeros 47 ++ d.fwDigest

/-- Read a hello payload. -/
def helloOf (bs : List Byte) : HelloInfo :=
  ⟨BitVec.ofNat 64 (leAt bs 0 8), byteAt bs 8, byteAt bs 9, byteAt bs 10, byteAt bs 11, leAt bs 12 2, byteAt bs 14, byteAt bs 15,
    byteAt bs 16, (bs.drop 64).take 64⟩

/-- The LNK_BL_PEER word of a hello (Table 11-15); for KIND 2 bits 31 to 0 hold the switch identity. -/
def Dev.peerWord (d : Dev) (h : HelloInfo) : Word :=
  BitVec.ofNat 64 (2 ^ 63 + h.kind % 4 * 2 ^ 61 + h.link % 256 * 2 ^ 48 + h.fwMajor * 2 ^ 40 + h.fwMinor * 2 ^ 32 +
    (if h.kind = 2 then h.node.toNat % 2 ^ 32
     else b2n (h.digest == d.fwDigest) * 2 ^ 21 + b2n (bit h.node.toNat 63) * 2 ^ 20 + h.node.toNat % 2 ^ 20))

/-- A hello on a port; it is addressed to the node last heard there. -/
def Dev.sendHello (d : Dev) (l : Nat) : Dev :=
  let dst := match (d.port l).hello with | some h => fget h.node Fld.GLB_NODE_NODE_ID | none => 0
  let x : FrPkt := { frEmpty with
    dst := BitVec.ofNat 18 dst, src := BitVec.ofNat 18 d.node, session := BitVec.ofNat 16 d.lnk.session, plen := 2,
    payload := d.helloBytes (if l < 7 then l else l - 7) (if l < 7 then 0 else 1) }
  let y := { x with hcrc := BitVec.ofNat 32 (frCrc 0x01 x) }
  (d.setPort l { d.port l with lastHello := d.ps }).putPort l 0x01 y

def portLive (d : Dev) (l : Nat) : Bool := portState d l == 2 || portState d l == 3

/-! ### The brood (R326 to R330) -/

/-- USED and PEER_POS of every port: the lowest UP brood link to each brood peer; UP fabric ports to a switch (R326, R338). -/
def Dev.setUsed (d : Dev) : Dev :=
  let broodPos (e : Dev) (l : Nat) : Option Nat :=
    if portState e l = 3 then
      match (e.port l).hello with
      | some h => if isBroodPeer e h then some (fget h.node Fld.GLB_NODE_NODE_ID % 8) else none
      | none => none
    else none
  let d1 := (List.range 7).foldl (fun e l =>
    match broodPos d l with
    | some q =>
      let used := !((List.range l).any fun m => broodPos d m == some q)
      (e.wf (portStat l) Fld.LNK_BL_STAT_USED (b2n used)).wf (portStat l) Fld.LNK_BL_STAT_PEER_POS q
    | none => e.wf (portStat l) Fld.LNK_BL_STAT_USED 0) d
  let d2 := (List.range 12).foldl (fun e f =>
    let l := 7 + f
    let used := portState d l == 3 && (match (d.port l).hello with | some h => h.kind == 2 | none => false) &&
      d.rf (portCtl l) Fld.LNK_BL_CTL_DISABLE == 0
    e.wf (portStat l) Fld.LNK_BL_STAT_USED (b2n used)) d1
  d2.wf Reg.LNK_BROOD_STAT Fld.LNK_BROOD_STAT_DIRECT d2.directBits

/-- MISMATCH and DUPLICATE: set while a cause is present, with a fault at each entry; the time a cause ended is kept for BROOD_FLAG_CLEAR. -/
def Dev.setFlags (d : Dev) : Dev :=
  let peers := d.broodHellos.filter fun q => isBroodPeer d q.2
  let mis := d.misSeen || peers.any fun q => bit q.2.flags 1
  let dup := d.dupSeen || peers.any fun q => bit q.2.flags 0
  let newMis := mis && d.rf Reg.LNK_BROOD_STAT Fld.LNK_BROOD_STAT_MISMATCH == 0
  let newDup := dup && d.rf Reg.LNK_BROOD_STAT Fld.LNK_BROOD_STAT_DUPLICATE == 0
  let d1 := if mis then d.wf Reg.LNK_BROOD_STAT Fld.LNK_BROOD_STAT_MISMATCH 1 else d
  let d2 := if dup then d1.wf Reg.LNK_BROOD_STAT Fld.LNK_BROOD_STAT_DUPLICATE 1 else d1
  let d3 := { d2 with lnk := { d2.lnk with
    misEnd := if mis then none else some (d2.lnk.misEnd.getD d2.ps), dupEnd := if dup then none else some (d2.lnk.dupEnd.getD d2.ps) } }
  if newMis ∨ newDup then d3.raise (notice cConfig 0x0F31 (b2n newMis + 2 * b2n newDup)) else d3

/-- The candidate set (R328): own position, brood peers on used UP links, and the positions in their DIRECT; members lost by R340 are left out. -/
def Dev.candidates (d : Dev) : List Nat :=
  let near := (List.range 8).filterMap fun q => (d.usedLink q).map fun l => (q, l)
  let far := near.flatMap fun q => match (d.port q.2).hello with | some h => filterBelow 8 (bit h.direct) | none => []
  filterBelow 8 fun q => q == d.pos || ((near.any (·.1 == q) || far.contains q) && !(d.peer (d.posNode q)).withdrawn)

/-- Is a node a neighbour stage of context c (LNK_STAGE)? -/
def Dev.isStage (d : Dev) (c node : Nat) : Bool :=
  let st := d.rd (Reg.LNK_STAGE c)
  (fget st Fld.LNK_STAGE_NEXT_VALID == 1 && fget st Fld.LNK_STAGE_NEXT == node) ||
    (fget st Fld.LNK_STAGE_PREV_VALID == 1 && fget st Fld.LNK_STAGE_PREV == node)

/-- A loop that a node's loss stops: brood-scoped with that participant, or with it as a neighbour stage (R261). -/
def Dev.needsNode (d : Dev) (c node : Nat) : Bool :=
  (d.loopState c == lpRunning || d.loopState c == lpStopping) &&
    ((d.broodCtx c && node / 8 == d.node / 8 && (sget (fun _ => []) d.lnk.participants c).contains (node % 8)) ||
     (!d.memberCtx c && d.isStage c node))

/-- A loop that needs a lost node (R261): it records 0x0C03, its attempt aborts with LOST, or its next one where the decision has passed, and an idle loop is HALTED at once. A lead tells its
members, which then halt too. -/
def Dev.loseLoop (d : Dev) (p c node : Nat) : Dev :=
  let d1 := d.raise { notice cLinkDown 0x0C03 node with part := some p, sev := svHalt, epoch := (d.att c).epoch }
  let a : AbortInfo := ⟨0x43, 0x0C03, false, d.pos, cLinkDown⟩
  if d1.executing c ∨ d1.phase c = phCommit then d1.abortCtx p c a
  else (if d1.isLead then d1.spreadAbort c a else d1).halt p c cLinkDown 0x0C03 0x43

/-- A node is lost: every loop that needs it. -/
def Dev.loseNode (d : Dev) (node : Nat) : Dev :=
  (List.range 64).foldl (fun e c =>
    if e.needsNode c node then
      match e.partOfCtx c with
      | some p => e.loseLoop p c node
      | none => e
    else e) d

/-- MEMBERS of the brood peers that show a formed brood without this device. -/
def Dev.olderBrood (d : Dev) : List Nat :=
  let ms := (List.range 8).filterMap fun q => (d.usedLink q).bind fun l => (d.port l).hello.bind fun h =>
    if bit h.flags 2 && !bit h.members d.pos then some h.members else none
  filterBelow 8 fun q => ms.any fun m => bit m q

/-- The lead of a set (R329): the present lead while it stays a member; for a device that joins a brood formed without it, the lowest of the older members, since no hello names the lead
(DESIGN CHOICE, log entry 91); else the lowest position. -/
def nextLead (lead : Option Nat) (older set : List Nat) : Option Nat :=
  let first := ((set.filter fun q => older.contains q).head?).or set.head?
  match lead with
  | some q => if set.contains q then some q else set.head?
  | none => first

/-- Re-evaluate the brood (R328): the set, the lead, GLB_LEVEL and LNK_BROOD_STAT. A brood that stops being formed loses every other member. -/
def Dev.reform (d : Dev) : Dev :=
  let capable := d.nodeValid && d.role != 0
  let set := d.candidates
  let ok := capable && d.rf Reg.LNK_BROOD_STAT Fld.LNK_BROOD_STAT_MISMATCH == 0 &&
    d.rf Reg.LNK_BROOD_STAT Fld.LNK_BROOD_STAT_DUPLICATE == 0 && 2 ≤ set.length
  let old := filterBelow 8 (bit d.members)
  if ok then
    let lead := nextLead d.lnk.lead d.olderBrood set
    let bits := set.foldl (fun a q => a + 2 ^ q) 0
    let d1 := d.upd [(Reg.GLB_LEVEL, Fld.GLB_LEVEL_BROOD_MEMBERS, bits), (Reg.GLB_LEVEL, Fld.GLB_LEVEL_BROOD, 1),
      (Reg.LNK_BROOD_STAT, Fld.LNK_BROOD_STAT_MEMBERS, bits), (Reg.LNK_BROOD_STAT, Fld.LNK_BROOD_STAT_FORMED, 1),
      (Reg.LNK_BROOD_STAT, Fld.LNK_BROOD_STAT_LEAD, lead.getD 0)]
    let mine := lead == some d.pos && d.lnk.lead != some d.pos
    let d2 := { d1 with lnk := { d1.lnk with lead := lead },
                        fab := if mine then { d1.fab with wkc := d1.fab.wkc.filter fun q => q.1 < 4096 } else d1.fab }
    (set.filter fun q => !old.contains q && q != d.pos).foldl
      (fun e q => e.setPeer (e.posNode q) { e.peer (e.posNode q) with lastBeat := e.ps, unreachAt := none }) d2
  else
    let d1 := (old.filter (· != d.pos)).foldl (fun e q => e.loseNode (e.posNode q)) d
    let d2 := d1.upd [(Reg.GLB_LEVEL, Fld.GLB_LEVEL_BROOD_MEMBERS, 0), (Reg.GLB_LEVEL, Fld.GLB_LEVEL_BROOD, 0),
      (Reg.LNK_BROOD_STAT, Fld.LNK_BROOD_STAT_MEMBERS, 0), (Reg.LNK_BROOD_STAT, Fld.LNK_BROOD_STAT_FORMED, 0),
      (Reg.LNK_BROOD_STAT, Fld.LNK_BROOD_STAT_LEAD, 0)]
    { d2 with lnk := { d2.lnk with lead := none } }

/-- Re-evaluate used links, flags and the brood, and send a hello on every live port when a field of Table 11-4 differs from what it was before the change (R325). -/
def Dev.rebroodFrom (d : Dev) (before : List Byte) : Dev :=
  let d0 := d.setUsed.setFlags.reform
  let d1 := ((filterBelow 8 fun q => q != d0.pos && bit d0.members q).map d0.posNode).foldl (fun e n => e.markPath n) d0
  if d1.helloBytes 0 0 = before then d1
  else (filterBelow 19 (portLive d1)).foldl (fun e l => e.sendHello l) d1
def Dev.rebrood (d : Dev) : Dev := d.rebroodFrom (d.helloBytes 0 0)

/-! ### Port states (R323, R324) -/

def cseSilence : Nat := 1
def cseReplay : Nat := 2
def cseFec : Nat := 3
def cseLane : Nat := 4
def cseWithdraw : Nat := 5
def cseIdentity : Nat := 6
def cseDisabled : Nat := 7
def cseTrain : Nat := 8

/-- A port leaves for DOWN, or for DISABLED, with its cause; what its replay buffer holds is never sent on it again. `before` is the hello as it was. -/
def Dev.portDownFrom (d : Dev) (before : List Byte) (l cause state : Nat) : Dev :=
  let d1 := if portState d l = 3 then d.bump (portStat l + 0x30) 1 else d
  let d2 := (d1.wf (portStat l) Fld.LNK_BL_STAT_DOWN_CAUSE cause).wf (portStat l) Fld.LNK_BL_STAT_STATE state
  (d2.setPort l { Port.zero with since := d.ps, hello := (d.port l).hello }).rebroodFrom before
def Dev.portDown (d : Dev) (l cause state : Nat) : Dev := d.portDownFrom (d.helloBytes 0 0) l cause state

/-- Into TRAIN: no hello has arrived since (Table 11-15). -/
def Dev.portTrain (d : Dev) (l : Nat) : Dev := (d.setPortState l 1).wf (portPeer l) Fld.LNK_BL_PEER_VALID 0

/-- Lanes of a port (Table 11-1). -/
def fullLanes (l : Nat) : Nat := if l < 7 then 16 else 8

/-- Into HELLO: fresh link state, the peer's receive buffers as credits (Table 11-1), and a hello at once. -/
def Dev.portHello (d : Dev) (l : Nat) : Dev :=
  let x : Port := { Port.zero with
    since := d.ps, lastRx := d.ps, lastTx := d.ps, creditsCtrl := 32, creditsResp := (if l < 7 then 64 else 128),
    creditsData := (if l < 7 then 128 else 512) }
  (((d.setPort l x).wf (portStat l) Fld.LNK_BL_STAT_STATE 2).wf (portStat l) Fld.LNK_BL_STAT_LANES (fullLanes l)).sendHello l

/-- HELLO becomes UP, with every lane in lock (R320), once a hello was received and one of its own acknowledged. -/
def Dev.portTryUp (d : Dev) (l : Nat) : Dev :=
  if portState d l = 2 ∧ (d.port l).helloAcked ∧ (d.port l).hello.isSome ∧ d.rf (portStat l) Fld.LNK_BL_STAT_LANES = fullLanes l then
    (d.setPortState l 3).rebroodFrom (d.helloBytes 0 0)
  else d

def opPortTrainStart (l : Nat) (d : Dev) : Dev :=
  if portState d l = 0 ∧ (d.port l).since + 10 * ms ≤ d.ps then d.portTrain l else d

def opPortTrained (l : Nat) (d : Dev) : Dev :=
  if portState d l = 1 ∧ d.ps ≤ (d.port l).since + 25 * ms then (d.portHello l).openFabric else d

def opPortTrainTimeout (l : Nat) (d : Dev) : Dev :=
  if portState d l = 1 ∧ (d.port l).since + 25 * ms ≤ d.ps then (d.portDown l cseTrain 0).openFabric else d

def opPortHelloTimeout (l : Nat) (d : Dev) : Dev :=
  if portState d l = 2 ∧ (d.port l).since + ms ≤ d.ps then d.portDown l cseSilence 0 else d

def opPortSilence (l : Nat) (d : Dev) : Dev :=
  if portState d l = 3 ∧ (d.port l).lastRx + 2 * us ≤ d.ps then d.portDown l cseSilence 0 else d

/-- More than 16 uncorrectable codewords within 1 ms: 17 are counted. -/
def opPortFecLimit (l : Nat) (d : Dev) : Dev :=
  let d1 := d.bump (portStat l + 0x20) 17
  if portState d l = 3 then d1.portDown l cseFec 0 else d1

/-- Some lanes have lost lock; `lanes` are still in lock. -/
def opLaneLockLoss (l lanes : Nat) (d : Dev) : Dev :=
  let d1 := d.wf (portStat l) Fld.LNK_BL_STAT_LANES lanes
  if portState d l = 3 then d1.portDown l cseLane 0 else d1

def opPortRetrain (v l : Nat) (d : Dev) : Dev := if v = 0 ∧ portState d l = 0 then d.portTrain l else d

def opPortDisable (v l : Nat) (disable : Bool) (d : Dev) : Dev :=
  if v = 0 then
    let d1 := d.wf (portCtl l) Fld.LNK_BL_CTL_DISABLE (b2n disable)
    if disable then (if portState d l = 4 then d1 else d1.portDown l cseDisabled 4).openFabric
    else if portState d l = 4 ∧ d.rolePort l ∧ 8 ≤ d.stage then d1.setPortState l 0 else d1
  else d

/-! ### Link flits (R321, R322) -/

/-- Is LSEQ a covered by LACK b, modulo 65,536? -/
def seqCovered (a b : Nat) : Bool := (b + 65536 - a) % 65536 < 32768

/-- Resend every DATA flit of the replay buffer; one sent 8 times takes the port DOWN. -/
def Dev.replayAll (d : Dev) (l : Nat) : Dev :=
  let x := d.port l
  let r := x.replay.map fun (f : ReplayFlit) => { f with sends := f.sends + 1 }
  let d1 := (d.setPort l { x with replay := r }).bump (portStat l + 0x28) r.length
  let d2 := r.foldl (fun e f => e.sendFlit l 1 f.cls f.lseq f.start f.payload) d1
  if r.any (fun f => 8 ≤ f.sends) then d2.portDown l cseReplay 0 else d2

/-- A link flit arrives. A DATA flit that was received before leaves no gap; it delivers nothing again. -/
def opLinkFlit (l : Nat) (f : LinkFlit) (d : Dev) : Dev :=
  if portLive d l then
    let x := { d.port l with lastRx := d.ps }
    let bad := f.crc.toNat != flitCrc f
    let dup := f.typ == 1 && seqCovered f.lseq.toNat x.rxSeq
    let gap := f.typ == 1 && !dup && f.lseq.toNat != (x.rxSeq + 1) % 65536
    if bad || (gap && !x.skip) then (d.setPort l { x with skip := true }).sendFlit l 2 0 0 0xFF []
    else if gap then d.setPort l x
    else
      let left := x.replay.filter fun r => !seqCovered r.lseq f.lack.toNat
      let y := { x with
        replay := left, helloAcked := x.helloAcked || left.length < x.replay.length, creditsCtrl := x.creditsCtrl + f.crdCtrl.toNat,
        creditsResp := x.creditsResp + f.crdResp.toNat, creditsData := x.creditsData + f.crdData.toNat }
      let z := if f.typ = 1 ∧ !dup then
        { y with
          rxSeq := f.lseq.toNat, skip := false, freedCtrl := y.freedCtrl + b2n (f.cls == 0), freedResp := y.freedResp + b2n (f.cls == 1),
          freedData := y.freedData + b2n (f.cls == 2) } else y
      let d1 := d.setPort l z
      let d2 := if f.typ = 2 then d1.replayAll l else d1
      if portLive d2 l then (Dev.pumpPort l 600 d2).portTryUp l else d2
  else d

def opIdleFlit (l : Nat) (d : Dev) : Dev :=
  if portLive d l ∧ (d.port l).lastTx + 500 * ns ≤ d.ps then d.sendFlit l 0 0 0 0xFF [] else d

/-! ### Packets outside flows -/

/-- Does a packet of a kind pass R333? -/
def frOk (kind : Nat) (x : FrPkt) : Bool := x.hcrc.toNat == frCrc kind x && kindClass kind == some x.cls.toNat

/-- Count a bad packet. -/
def Dev.badPkt (d : Dev) : Dev := d.bump Reg.LNK_BADPKT 1

/-- A hello arrives on a port (R325): the peer is reported, an identity that changed takes the port down, and the brood is re-evaluated. -/
def opHello (l : Nat) (x : FrPkt) (d : Dev) : Dev :=
  if portLive d l then
    if frOk 0x01 x then
      let h := helloOf x.payload
      let changed := match (d.port l).hello with
        | some g => portState d l == 3 && (g.node != h.node || g.session != h.session)
        | none => false
      let node := fget h.node Fld.GLB_NODE_NODE_ID
      let d1 := (d.setPort l { d.port l with hello := some h }).wr (portPeer l) (d.peerWord h)
      let d2 := if h.kind = 0 then d1.setPeer node { d1.peer node with withdrawn := false, refused := [] } else d1
      if changed then d2.portDownFrom (d.helloBytes 0 0) l cseIdentity 0 else (d2.portTryUp l).rebroodFrom (d.helloBytes 0 0)
    else d.badPkt
  else d

def opHelloTimer (l : Nat) (d : Dev) : Dev :=
  if portLive d l ∧ (d.port l).lastHello + 100 * us ≤ d.ps then d.sendHello l else d

/-- MISMATCH and DUPLICATE clear 1 ms after their last cause ended (R327). -/
def opBroodFlagClear (d : Dev) : Dev :=
  let ended (t : Option Nat) : Bool := match t with | some e => e + ms ≤ d.ps | none => false
  let d1 := if ended d.lnk.misEnd then d.wf Reg.LNK_BROOD_STAT Fld.LNK_BROOD_STAT_MISMATCH 0 else d
  let d2 := if ended d.lnk.dupEnd then d1.wf Reg.LNK_BROOD_STAT Fld.LNK_BROOD_STAT_DUPLICATE 0 else d1
  d2.rebrood

/-! ### The sending side of delivery (R335 to R339) -/

/-- Is FSEQ a covered by CUM b, modulo 2^32? -/
def fseqCovered (a b : Nat) : Bool := (b + 2 ^ 32 - a) % 2 ^ 32 < 2 ^ 31

/-- Send a kept packet again, with RETX, on the present route; a fourth send without an acknowledgement makes its node unreachable. -/
def Dev.resend (d : Dev) (node cls : Nat) (s : SentPkt) : Dev :=
  let fl := d.flowTx node cls
  let x0 := { s.pkt with retx := s.sends != 0 }
  let x := { x0 with hcrc := BitVec.ofNat 32 (frCrc s.kind x0) }
  let route := d.route node cls fl.lastPort
  let s' : SentPkt := ⟨s.kind, x, d.ps, if route.isSome then s.sends + 1 else s.sends⟩
  let fl' := { fl with
    unacked := fl.unacked.map (fun (t : SentPkt) => if t.pkt.fseq = s.pkt.fseq then s' else t),
    lastPort := match route with | some l => if 7 ≤ l then l - 7 else fl.lastPort | none => fl.lastPort }
  let d1 := d.setFlowTx node cls fl'
  let d2 := if d1.noPath node ∨ 4 ≤ s'.sends then
    d1.setPeer node { d1.peer node with unreachAt := some ((d1.peer node).unreachAt.getD d1.ps) } else d1
  match route with
  | some l => (if s.sends = 0 then d2 else d2.bump Reg.LNK_RETX 1).putPort l s.kind x
  | none => d2

/-- Packets that waited for the window of 256 go out as room appears. -/
def Dev.openWindow (node cls : Nat) : Nat → Dev → Dev
  | 0, d => d
  | n + 1, d =>
    let fl := d.flowTx node cls
    match fl.waiting with
    | s :: rest =>
      if fl.unacked.length < 256 then
        Dev.openWindow node cls n ((d.setFlowTx node cls { fl with waiting := rest, unacked := fl.unacked ++ [s] }).resend node cls s)
      else d
    | [] => d

/-- A device-level packet for this device; one addressed to another node is the relay's (RELAY_FORWARD), and a bad one is counted (R333, R336). -/
def Dev.forMe (d : Dev) (kind : Nat) (x : FrPkt) (go : Dev → Dev) : Dev :=
  if !frOk kind x then d.badPkt else if x.dst.toNat ≠ d.node then d else go d

/-- An E2E_ACK: packets up to CUM and those in SACK are done, and the node is reachable again. -/
def opE2eAck (x : FrPkt) (d0 : Dev) : Dev :=
  d0.forMe 0x04 x fun d =>
    let node := x.src.toNat
    let cls := argN x 33 1
    let cum := argN x 36 4
    let fl := d.flowTx node cls
    let covered (f : Nat) : Bool :=
      fseqCovered f cum || ((f + 2 ^ 32 - cum - 1) % 2 ^ 32 < 64 && bit (argN x 40 8) ((f + 2 ^ 32 - cum - 1) % 2 ^ 32))
    let d1 := d.setFlowTx node cls { fl with unacked := fl.unacked.filter fun s => !covered s.pkt.fseq.toNat }
    Dev.openWindow node cls 256 (d1.setPeer node { d1.peer node with unreachAt := none, refused := [] })

/-- Send an E2E_ACK for a flow: CUM and SACK over the packets held beyond it. -/
def Dev.sendAck (d : Dev) (node cls : Nat) : Dev :=
  let r := d.flowRx node cls
  let sack := r.held.foldl (fun a q =>
    let i := (q.2.fseq.toNat + 2 ^ 32 - r.next) % 2 ^ 32
    if i < 64 ∧ !bit a i then a + 2 ^ i else a) 0
  (d.setFlowRx node cls { r with toAck := 0 }).send 0x04 node
    { frEmpty with arg := mkArg [(33, 1, cls), (36, 4, (r.next + 2 ^ 32 - 1) % 2 ^ 32), (40, 8, sack)] }

def opE2eAckTimer (node cls : Nat) (d : Dev) : Dev :=
  let r := d.flowRx node cls
  if 0 < r.toAck ∧ (16 ≤ r.toAck ∨ r.since + 2 * us ≤ d.ps) then d.sendAck node cls else d

/-- 10 µs after its last send, or 1 ms while its node is unreachable, a kept packet goes out again. -/
def opPacketRetransmit (node cls fseq : Nat) (d : Dev) : Dev :=
  match (d.flowTx node cls).unacked.find? (fun s => s.pkt.fseq.toNat == fseq) with
  | some s =>
    if s.at_ + (if (d.peer node).unreachAt.isSome then ms else 10 * us) ≤ d.ps then d.resend node cls s else d
  | none => d

/-- A relay refused: the sender tries the next position (R336). -/
def opNackUnreach (x : FrPkt) (d0 : Dev) : Dev :=
  d0.forMe 0x05 x fun d =>
    let node := argN x 40 4 % 2 ^ 18
    let pr := d.peer node
    let d1 := d.setPeer node { pr with refused := if pr.refused.contains (x.src.toNat % 8) then pr.refused else pr.refused ++ [x.src.toNat % 8] }
    (List.range 3).foldl (fun e cls =>
      match (e.flowTx node cls).unacked.find? (fun s => s.pkt.fseq.toNat == argN x 36 4) with
      | some s => e.resend node cls s
      | none => e) d1

/-- This device relays a packet on its own link to the destination, or answers NACK_UNREACH (R336). It came on the link to its source. -/
def opRelayForward (kind : Nat) (x : FrPkt) (d0 : Dev) : Dev :=
  let d := match d0.usedLink (x.src.toNat % 8) with | some l => if frOk kind x then d0.xptBytes kind l true x.payload.length else d0 | none => d0
  if frOk kind x then
    if d.isMember x.dst.toNat then
      match d.usedLink (x.dst.toNat % 8) with
      | some l =>
        if portState d l = 3 then
          let y0 := { x with relayed := true }
          (d.bump Reg.LNK_RELAY 1).putPort l kind { y0 with hcrc := BitVec.ofNat 32 (frCrc kind y0) }
        else d.send 0x05 x.src.toNat { frEmpty with arg := mkArg [(36, 4, x.fseq.toNat), (40, 4, x.dst.toNat)] }
      | none => d.send 0x05 x.src.toNat { frEmpty with arg := mkArg [(36, 4, x.fseq.toNat), (40, 4, x.dst.toNat)] }
    else d
  else d.badPkt

/-- After a brood link has left UP, every unacknowledged packet to its peer goes out again in FSEQ order (R337). -/
def opLinkLossResend (l : Nat) (d : Dev) : Dev :=
  if portState d l = 3 then d
  else
    let node := d.posNode (d.rf (portStat l) Fld.LNK_BL_STAT_PEER_POS)
    (List.range 3).foldl (fun e cls => (d.flowTx node cls).unacked.foldl (fun e s => e.resend node cls s) e) d

/-! ### Heartbeats and loss (R340) -/

def opHeartbeat (x : FrPkt) (d0 : Dev) : Dev := d0.forMe 0x02 x fun d => d.setPeer x.src.toNat { d.peer x.src.toNat with lastBeat := d.ps }

/-- Is a node a neighbour stage of a stage-linked context whose loop runs, and this device its stage's lead? -/
def Dev.stageNeighbour (d : Dev) (node : Nat) : Bool :=
  (List.range 64).any fun c =>
    !d.memberCtx c && (d.loopState c == lpRunning || d.loopState c == lpStopping) && d.isStage c node

def opHeartbeatTimer (node : Nat) (d : Dev) : Dev :=
  let pr := d.peer node
  if (d.formed ∧ d.isMember node ∧ pr.beatSentAt + 20 * us ≤ d.ps) ∨ (d.stageNeighbour node ∧ pr.beatSentAt + 100 * us ≤ d.ps) then
    (d.setPeer node { pr with beatSentAt := d.ps }).send 0x02 node frEmpty
  else d

/-- A node is lost: it leaves the brood until it says hello again, and its loops stop. -/
def Dev.dropNode (d : Dev) (node : Nat) : Dev :=
  let d1 := (d.setPeer node { d.peer node with withdrawn := true }).loseNode node
  d1.rebrood

/-- 1 ms without a heartbeat, or of continuous unreachability. -/
def opMemberLoss (node : Nat) (d : Dev) : Dev :=
  let pr := d.peer node
  let cut : Bool := match pr.unreachAt with | some t => t + ms ≤ d.ps | none => false
  if (d.isMember node ∨ (List.range 64).any (fun c => d.needsNode c node)) ∧ !pr.withdrawn ∧ (pr.lastBeat + ms ≤ d.ps ∨ cut) then d.dropNode node
  else d

/-- Is the sender of a packet the device at the other end of port l, and not one that it hears through a switch? -/
def Dev.fromPeer (d : Dev) (l : Nat) (x : FrPkt) : Bool :=
  match (d.port l).hello with
  | some h => h.kind != 2 && fget h.node Fld.GLB_NODE_NODE_ID == x.src.toNat
  | none => false

/-- A WITHDRAW from the port's peer takes the port down; its sender is lost at once. -/
def opWithdraw (l : Nat) (x : FrPkt) (d : Dev) : Dev :=
  if portLive d l then
    if frOk 0x03 x then
      let d1 := if portState d l = 3 ∧ d.fromPeer l x then d.portDown l cseWithdraw 0 else d
      d1.dropNode x.src.toNat
    else d.badPkt
  else d

/-! ### The commands -/

def execLinkFlit (l : PortIdx) (f : LinkFlit) (s : State) : Host.Outcome State Fault Refusal := done s (opLinkFlit l f s.dev)
def execIdleFlitTimer (l : PortIdx) (s : State) : Host.Outcome State Fault Refusal := done s (opIdleFlit l s.dev)
def execPortTrainStart (l : PortIdx) (s : State) : Host.Outcome State Fault Refusal := done s (opPortTrainStart l s.dev)
def execPortTrained (l : PortIdx) (s : State) : Host.Outcome State Fault Refusal := done s (opPortTrained l s.dev)
def execPortTrainTimeout (l : PortIdx) (s : State) : Host.Outcome State Fault Refusal := done s (opPortTrainTimeout l s.dev)
def execPortHelloTimeout (l : PortIdx) (s : State) : Host.Outcome State Fault Refusal := done s (opPortHelloTimeout l s.dev)
def execPortSilence (l : PortIdx) (s : State) : Host.Outcome State Fault Refusal := done s (opPortSilence l s.dev)
def execPortFecLimit (l : PortIdx) (s : State) : Host.Outcome State Fault Refusal := done s (opPortFecLimit l s.dev)
def execLaneLockLoss (l : PortIdx) (lanes : BitVec 8) (s : State) : Host.Outcome State Fault Refusal := done s (opLaneLockLoss l lanes.toNat s.dev)
def execPortRetrain (v : View) (l : PortIdx) (s : State) : Host.Outcome State Fault Refusal := hostDone s (portCtl l) (opPortRetrain v l)
def execPortDisable (v : View) (l : PortIdx) (b : Bool) (s : State) : Host.Outcome State Fault Refusal := hostDone s (portCtl l) (opPortDisable v l b)
def execHello (l : PortIdx) (x : FrPkt) (s : State) : Host.Outcome State Fault Refusal := done s (opHello l x s.dev)
def execHelloTimer (l : PortIdx) (s : State) : Host.Outcome State Fault Refusal := done s (opHelloTimer l s.dev)
def execBroodFlagClear (s : State) : Host.Outcome State Fault Refusal := done s (opBroodFlagClear s.dev)
def execE2eAck (x : FrPkt) (s : State) : Host.Outcome State Fault Refusal := done s (opE2eAck x s.dev)
def execE2eAckTimer (src : BitVec 18) (cls : BitVec 2) (s : State) : Host.Outcome State Fault Refusal :=
  done s (opE2eAckTimer src.toNat cls.toNat s.dev)
def execPacketRetransmit (dst : BitVec 18) (cls : BitVec 2) (fseq : BitVec 32) (s : State) : Host.Outcome State Fault Refusal :=
  done s (opPacketRetransmit dst.toNat cls.toNat fseq.toNat s.dev)
def execNackUnreach (x : FrPkt) (s : State) : Host.Outcome State Fault Refusal := done s (opNackUnreach x s.dev)
def execRelayForward (kind : Byte) (x : FrPkt) (s : State) : Host.Outcome State Fault Refusal := done s (opRelayForward kind.toNat x s.dev)
def execLinkLossResend (l : Fin 7) (s : State) : Host.Outcome State Fault Refusal := done s (opLinkLossResend l s.dev)
def execHeartbeat (x : FrPkt) (s : State) : Host.Outcome State Fault Refusal := done s (opHeartbeat x s.dev)
def execHeartbeatTimer (node : BitVec 18) (s : State) : Host.Outcome State Fault Refusal := done s (opHeartbeatTimer node.toNat s.dev)
def execMemberLossTimeout (node : BitVec 18) (s : State) : Host.Outcome State Fault Refusal := done s (opMemberLoss node.toNat s.dev)
def execWithdraw (l : PortIdx) (x : FrPkt) (s : State) : Host.Outcome State Fault Refusal := done s (opWithdraw l x s.dev)

end Sys2Proof.Machine
end

