-- ==== Sys2Proof/Machine/Ring.lean ====
section
/-!
DEFINITION. The colony ring and the by-pass (R354 to R377): frames, hop supervision, insertion and removal, control messages and
weight broadcast.
-/
namespace Sys2Proof.Machine

def RingPort.zero : RingPort := ⟨0, 0, [], [], 65535, 0, 0, 0, 0, 0, 0, 0, none, false, none⟩
def Bcast.zero : Bcast := ⟨[], [], 0, 0, [], 0, 0⟩
def Dev.rp (d : Dev) (a : Nat) : RingPort := sget (fun _ => RingPort.zero) d.ring.ports a
def Dev.setRp (d : Dev) (a : Nat) (x : RingPort) : Dev :=
  { d with ring := { d.ring with ports := sput (fun _ => RingPort.zero) d.ring.ports a x } }

/-- Ring port states (Table 12-3). -/
def rDark : Nat := 0
def rTrain : Nat := 1
def rHello : Nat := 2
def rUp : Nat := 3
def rFaulty : Nat := 4
def ringFld (a : Nat) : Fld := if a = 0 then Fld.LNK_RING_STAT_A_STATE else Fld.LNK_RING_STAT_B_STATE
def ringCauseFld (a : Nat) : Fld := if a = 0 then Fld.LNK_RING_STAT_A_CAUSE else Fld.LNK_RING_STAT_B_CAUSE
def Dev.ringState (d : Dev) (a : Nat) : Nat := d.rf Reg.LNK_RING_STAT (ringFld a)
def Dev.setRingState (d : Dev) (a n : Nat) : Dev := (d.wf Reg.LNK_RING_STAT (ringFld a) n).setRp a { d.rp a with since := d.ps }

/-- Own colony index (R22). -/
def Dev.colony (d : Dev) : Nat := d.node % 128
/-- Ring order of a node: 16·position + tray (R355). -/
def ringOrder (node : Nat) : Nat := 16 * (node % 8) + node / 8 % 16
def Dev.inserted (d : Dev) : Bool := d.rf Reg.GLB_LEVEL Fld.GLB_LEVEL_RING_IN == 1

/-! ### Frames (Table 12-1) -/

/-- Bytes 4 to 63 of a frame. -/
def ringHeader (kind : Nat) (x : RingFrame) : List Byte :=
  toLe 1 kind ++ toLe 1 (b2n x.repair * 8 + x.turns.toNat * 2 + b2n x.up) ++ toLe 1 x.hops.toNat ++ toLe 1 x.plen.toNat ++
  toLe 1 x.src.toNat ++ toLe 1 x.dst.toNat ++ toLe 2 x.hseq.toNat ++ toLe 2 x.fwdAck.toNat ++ toLe 2 x.domain.toNat ++
  toLe 2 x.stream.toNat ++ toLe 1 x.shard.toNat ++ zeros 1 ++ toLe 4 x.seq.toNat ++ toLe 8 x.offset.toNat ++ toLe 4 x.pcrc.toNat ++
  toLe 28 x.arg.toNat

def ringCrc (kind : Nat) (x : RingFrame) : Nat := crc32c (ringHeader kind x)
/-- PCRC over the payload; 0 when there is none. -/
def ringPcrc (payload : List Byte) : Nat := if payload.isEmpty then 0 else crc32c payload

def rArg (x : RingFrame) (off len : Nat) : Nat := x.arg.toNat / 2 ^ (8 * (off - 36)) % 2 ^ (8 * len)
def mkRArg (fs : List (Nat × Nat × Nat)) : BitVec 224 :=
  BitVec.ofNat 224 (fs.foldl (fun a f => a + f.2.2 % 2 ^ (8 * f.2.1) * 2 ^ (8 * (f.1 - 36))) 0)

/-- A frame of this device: SRC, PLEN and PCRC filled in, DIR DOWN. -/
def Dev.ringFrame (d : Dev) (dst : Nat) (payload : List Byte) : RingFrame :=
  ⟨0, false, 0, false, 0, BitVec.ofNat 8 ((payload.length + 63) / 64), BitVec.ofNat 7 d.colony, BitVec.ofNat 8 dst, 0, 0, 0, 0, 0, 0, 0,
    BitVec.ofNat 32 (ringPcrc payload), 0, payload⟩

/-- Send a frame on a port: HSEQ, FWD_ACK and HCRC are new at every hop, and the send time is recorded (R361). -/
def Dev.ringSend (d : Dev) (a kind : Nat) (x : RingFrame) : Dev :=
  let p := d.rp a
  let y0 := { x with hseq := BitVec.ofNat 16 p.txSeq, fwdAck := BitVec.ofNat 16 p.fwdAck }
  let y := { y0 with hcrc := BitVec.ofNat 32 (ringCrc kind y0) }
  (d.setRp a { p with txSeq := (p.txSeq + 1) % 65536, sent := p.sent ++ [(p.txSeq, d.ps, false)], lastTx := d.ps }).emit (.ring a kind y)

/-- A frame leaves the device in its direction, or turns where that port is not UP (R363). -/
def Dev.ringOut (d : Dev) (kind : Nat) (x : RingFrame) : Dev :=
  let a := if x.up then 0 else 1
  if d.ringState a = rUp then d.ringSend a kind x
  else if d.ringState (1 - a) = rUp then
    if x.turns.toNat < 2 then d.ringSend (1 - a) kind { x with up := !x.up, turns := x.turns + 1 }
    else d.bump Reg.LNK_RING_TURN_DROP 1
  else d

/-- RHELLO on a port: the hello payload with KIND 3, SYSTIME now, and the SYSTIME of the neighbour's last RHELLO. -/
def Dev.sendRhello (d : Dev) (a : Nat) : Dev :=
  let x := { d.ringFrame 0xFF (d.helloBytes a 3) with
    up := a == 0, arg := mkRArg [(36, 8, d.sysTime.toNat), (44, 8, (d.rp a).sysRx)] }
  (d.setRp a { d.rp a with helloTx := d.ps }).ringSend a 0x01 x

/-! ### Port states (Table 12-3) -/

/-- A port becomes FAULTY; a cause other than 0 is recorded. -/
def Dev.ringFaulty (d : Dev) (a cause : Nat) : Dev :=
  let d1 := if cause = 0 then d else d.wf Reg.LNK_RING_STAT (ringCauseFld a) cause
  (d1.setRingState a rFaulty).bump Reg.LNK_RING_WRAPS 1

/-- Both ports DARK: the by-pass is engaged or moving. -/
def Dev.ringDark (d : Dev) : Dev :=
  let dark (e : Dev) (a : Nat) : Dev := (e.wf Reg.LNK_RING_STAT (ringFld a) rDark).setRp a { RingPort.zero with since := e.ps, lost := (e.rp a).lost, lostTold := (e.rp a).lostTold }
  dark (dark d 0) 1

/-- The switch loses its drive (R369). -/
def Dev.dropDrive (d : Dev) : Dev :=
  let d1 := if d.rf Reg.LNK_RING_STAT Fld.LNK_RING_STAT_SWITCH = 0 then d else d.wf Reg.LNK_RING_STAT Fld.LNK_RING_STAT_SWITCH 1
  { d1.ringDark with ring := { d1.ringDark.ring with drive := false, leaveAt := none } }

/-- RLEAVE on every UP port, INSERT cleared, and the drive to be removed 10 µs later (R368). -/
def Dev.ringRemove (d : Dev) : Dev :=
  let d1 := [0, 1].foldl (fun e a => if e.ringState a = rUp then e.ringSend a 0x03 { e.ringFrame 0xFF [] with up := a == 0 } else e) d
  let d2 := d1.wf Reg.LNK_RING_CTL Fld.LNK_RING_CTL_INSERT 0
  { d2 with ring := { d2.ring with leaveAt := if d2.ring.drive then some (d2.ps + 10 * us) else none } }

/-- A hop is declared faulty (R362): 0x1001, EXPEL three times 1 µs apart, nothing else on the port. -/
def Dev.hopFaulty (d : Dev) (a code : Nat) : Dev :=
  let node := match (d.rp a).hello with | some h => fget h.node Fld.GLB_NODE_NODE_ID | none => 0
  let d1 := (d.ringFaulty a (if code = 1 then 2 else 1)).raise
    { notice cLinkDown 0x1001 (node + (if code = 1 then 2 ^ 32 else 0)) with port := 32 + a }
  let d2 := d1.ringSend a 0x04 { d1.ringFrame 0xFF [] with up := a == 0, arg := mkRArg [(36, 1, code)] }
  d2.setRp a { d2.rp a with expelLeft := 2, expelCode := code, expelAt := d.ps, lost := some (node, d.ps), lostTold := false }

/-! ### Receiving (R358, R359) -/

/-- The checks on every frame: the port is in HELLO or UP, HCRC, HOPS, the acknowledgements it carries, PCRC; none when it is dropped. The second
part is the device when it is dropped. -/
def Dev.ringTake (d : Dev) (a kind : Nat) (x : RingFrame) : Bool × Dev :=
  if d.ringState a = rUp ∨ (d.ringState a = rHello ∧ kind = 0x01) then
    let p := { d.rp a with lastRx := d.ps }
    if x.hcrc.toNat != ringCrc kind x || x.hops == 255 then (false, (d.setRp a p).bump Reg.LNK_RING_HDROP 1)
    else
      let p1 := { p with sent := p.sent.filter fun q => !seqCovered q.1 x.fwdAck.toNat }
      if kind != 0x20 && !x.payload.isEmpty && x.pcrc.toNat != ringPcrc x.payload then (false, d.setRp a p1)
      else (true, d.setRp a { p1 with fwdAck := x.hseq.toNat })
  else (false, d)

/-- Has the frame come back to its origin (R358)? -/
def Dev.ringMine (d : Dev) (x : RingFrame) : Bool :=
  x.src.toNat == d.colony &&
    (x.turns.toNat % 2 == 0 || (x.turns.toNat == 1 && d.ringState (if x.up then 0 else 1) != rUp))

/-- Forward with HOPS + 1. -/
def Dev.ringForward (d : Dev) (kind : Nat) (x : RingFrame) : Dev := d.ringOut kind { x with hops := x.hops + 1 }

/-- A kind that may be forwarded: what its origin does when it returns, what a device that consumes it does, and whether a broadcast is consumed
as well as forwarded. -/
def Dev.ringRx (d : Dev) (a kind : Nat) (x : RingFrame) (back take : Dev → Dev) (both : Bool) : Dev :=
  let r := d.ringTake a kind x
  if r.1 then
    if r.2.ringMine x then back r.2
    else if x.dst.toNat = r.2.colony then take r.2
    else if both && x.dst == 0xFF then (take r.2).ringForward kind x
    else r.2.ringForward kind x
  else r.2

/-- RHELLO: in HELLO it is answered at once until both have heard, Thop is half the round trip; in UP a changed identity makes the port FAULTY. -/
def opRhello (a : Nat) (x : RingFrame) (d : Dev) : Dev :=
  let r := d.ringTake a 0x01 x
  if r.1 then
    let d := r.2
    let h := helloOf x.payload
    let p := d.rp a
    let changed := match p.hello with | some g => g.node != h.node || g.session != h.session | none => false
    let node := fget h.node Fld.GLB_NODE_NODE_ID
    let unlose (q : RingPort) : RingPort :=
      { q with lost := match q.lost with | some n => if n.1 = node then none else q.lost | none => none }
    let d1 := (d.setRp a { p with hello := some h, sysRx := rArg x 36 8 }).wr (Reg.LNK_RING_PEER a) (d.peerWord h)
    let d2 := (d1.setRp 0 (unlose (d1.rp 0))).setRp 1 (unlose (d1.rp 1))
    if d2.ringState a = rUp then (if changed then d2.ringFaulty a 4 else d2)
    else
      let d3 := d2.sendRhello a
      if rArg x 44 8 = 0 then d3
      else (d3.wf Reg.LNK_RING_THOP (if a = 0 then Fld.LNK_RING_THOP_A else Fld.LNK_RING_THOP_B)
        (min 65535 ((d.sysTime.toNat - rArg x 44 8) * 2 / 5))).setRingState a rUp
  else r.2

def opRkeep (a : Nat) (x : RingFrame) (d : Dev) : Dev := (d.ringTake a 0x02 x).2

def opRleave (a : Nat) (x : RingFrame) (d : Dev) : Dev :=
  let r := d.ringTake a 0x03 x
  if r.1 then r.2.ringFaulty a 3 else r.2

/-- EXPEL (R364): RLEAVE on the other port, INSERT cleared, 0x1002, and the by-pass engages as R368 removes a device. -/
def opExpel (a : Nat) (x : RingFrame) (d : Dev) : Dev :=
  let r := d.ringTake a 0x04 x
  if r.1 then
    let d := r.2
    let node := match (d.rp a).hello with | some h => fget h.node Fld.GLB_NODE_NODE_ID | none => 0
    let d1 := if d.ringState (1 - a) = rUp then d.ringSend (1 - a) 0x03 { d.ringFrame 0xFF [] with up := a == 1 } else d
    let d2 := (d1.wf Reg.LNK_RING_CTL Fld.LNK_RING_CTL_INSERT 0).wf Reg.LNK_RING_STAT Fld.LNK_RING_STAT_EXPELLED 1
    { d2 with ring := { d2.ring with leaveAt := some (d2.ps + 10 * us) } }.raise { notice cLinkDown 0x1002 node with port := 32 + a }
  else r.2

/-- LOOP (R366). -/
def opLoopFrame (a : Nat) (x : RingFrame) (d : Dev) : Dev :=
  d.ringRx a 0x05 x
    (fun e => { e.upd [(Reg.LNK_RING_STAT, Fld.LNK_RING_STAT_LOOP_HOPS, x.hops.toNat), (Reg.LNK_RING_STAT, Fld.LNK_RING_STAT_LOOP_TURNS, x.turns.toNat),
      (Reg.LNK_RING_STAT, Fld.LNK_RING_STAT_LOOP_VALID, 1)] with ring := { e.ring with loopBack := e.ps } })
    id false

/-- CTRL_MSG (R372): kept once by (SRC, MSEQ) and handed to its user; a unicast message is acknowledged; the origin's copy of a message to every
device completes it. -/
def opCtrlMsg (a : Nat) (x : RingFrame) (d : Dev) : Dev :=
  let key := (x.src.toNat, x.seq.toNat)
  d.ringRx a 0x10 x
    (fun e => { e with ring := { e.ring with ctrl := e.ring.ctrl.filter fun m => m.mseq != x.seq.toNat || m.dst != 0xFF } })
    (fun e =>
      let e1 := if e.ring.kept.contains key then e
        else { e with ring := { e.ring with kept := key :: e.ring.kept } }.note "CTRL_MSG" (key.1 :: key.2 :: x.payload.map (fun (b : Byte) => b.toNat))
      if x.dst == 0xFF then e1 else e1.ringOut 0x11 { e1.ringFrame x.src.toNat [] with seq := x.seq })
    true

def opCtrlAck (a : Nat) (x : RingFrame) (d : Dev) : Dev :=
  d.ringRx a 0x11 x id
    (fun e => { e with ring := { e.ring with ctrl := e.ring.ctrl.filter fun m => m.mseq != x.seq.toNat || m.dst != x.src.toNat } }) false

/-- 1 ms after its last send a control message goes out again; after 8 sends it fails to its user. -/
def opCtrlResend (mseq : Nat) (d : Dev) : Dev :=
  match d.ring.ctrl.find? (fun m => m.mseq == mseq) with
  | some m =>
    if m.at_ + ms ≤ d.ps then
      if 8 ≤ m.sends then
        { d with ring := { d.ring with ctrl := d.ring.ctrl.erase m } }.bump Reg.LNK_RING_CTRL_FAIL 1
      else
        let d1 := { d with ring := { d.ring with ctrl := d.ring.ctrl.map fun (q : CtrlMsg) => if q.mseq = mseq then { m with at_ := d.ps, sends := m.sends + 1 } else q } }
        (d1.bump Reg.LNK_RING_CTRL_RESEND 1).ringOut 0x10 { d1.ringFrame m.dst m.payload with seq := BitVec.ofNat 32 mseq }
    else d
  | none => d

/-! ### Weight broadcast: the origin (R373, R374, R377) -/

def Dev.bc (d : Dev) (k : Nat) : Bcast := sget (fun _ => Bcast.zero) d.ring.bc k
def Dev.setBc (d : Dev) (k : Nat) (b : Bcast) : Dev := { d with ring := { d.ring with bc := sput (fun _ => Bcast.zero) d.ring.bc k b } }
def Dev.bcState (d : Dev) (k : Nat) : Nat := d.rf (Reg.LNK_RB_STAT k) Fld.LNK_RB_STAT_STATE

/-- START: the three checks in order. -/
def opBcStart (v k : Nat) (d : Dev) : Dev :=
  if v = 0 then
    let p := d.rf (Reg.LNK_RB_CFG k) Fld.LNK_RB_CFG_PART
    let src := (d.rd (Reg.LNK_RB_SRC k)).toNat
    let ranges := (List.range 9).map fun s => (d.num (src + 16 * s) 8, d.num (src + 16 * s + 8) 8)
    if d.bcState k ≠ 0 ∨ !d.inserted then d.raise (notice cConfig 0x1022 (k + 1 * 16))
    else if !d.partUsable p ∨ (d.rd (Reg.LNK_DOMAIN p)).toNat = 0 then d.raise (notice cConfig 0x1022 (k + 2 * 16))
    else if !(d.t1Owned p src 144 && ranges.all fun r => r.2 == 0 || d.owned p r.1 r.2) then d.raise (notice cSecurity 0x1031 k)
    else ((d.setBc k ⟨ranges, ranges.map fun _ => 0, 0, 0, [], d.ps, d.ps⟩).wr (Reg.LNK_RB_STAT k) 0).wf (Reg.LNK_RB_STAT k) Fld.LNK_RB_STAT_STATE 1
  else d

def opBcClose (v k : Nat) (d : Dev) : Dev :=
  if v = 0 ∧ d.bcState k ≠ 0 then (d.setBc k Bcast.zero).wf (Reg.LNK_RB_STAT k) Fld.LNK_RB_STAT_STATE 0 else d

/-- A broadcast frame of slot k with its stream and domain. -/
def Dev.bcFrame (d : Dev) (k shard off : Nat) (payload : List Byte) : RingFrame :=
  { d.ringFrame 0xFF payload with
    stream := BitVec.ofNat 16 (d.rf (Reg.LNK_RB_CFG k) Fld.LNK_RB_CFG_STREAM),
    domain := BitVec.ofNat 16 (d.rd (Reg.LNK_DOMAIN (d.rf (Reg.LNK_RB_CFG k) Fld.LNK_RB_CFG_PART))).toNat,
    shard := BitVec.ofNat 8 shard, offset := BitVec.ofNat 64 off }

/-- BC_END of every shard with bytes. -/
def Dev.bcEnds (d : Dev) (k : Nat) : Dev :=
  let b := d.bc k
  let d1 := (List.range 9).foldl (fun e s =>
    if (b.ranges.getD s (0, 0)).2 = 0 then e else e.ringOut 0x21 (e.bcFrame k s (b.ranges.getD s (0, 0)).2 [])) d
  d1.setBc k { b with endAt := d.ps }

/-- The next frame within RATE: a repair first, else the next shard of the round; after the last frame, the BC_ENDs. -/
def opBcFrameSend (k : Nat) (d : Dev) : Dev :=
  let b := d.bc k
  let rate := max 1 (d.rf (Reg.LNK_RB_CFG k) Fld.LNK_RB_CFG_RATE)
  if d.bcState k = 0 ∨ d.ps < b.nextAt then d
  else
    match b.repairs with
    | (s, off, len) :: rest =>
      let r := b.ranges.getD s (0, 0)
      let o := off / 4096 * 4096
      let n := min 4096 (r.2 - o)
      let more := if o + n < off + len ∧ o + n < r.2 then (s, o + n, off + len - (o + n)) :: rest else rest
      let x := { d.bcFrame k s o (d.bytes (r.1 + o) n) with repair := true, seq := BitVec.ofNat 32 b.seq }
      ((d.setBc k { b with repairs := more, seq := b.seq + 1, nextAt := d.ps + n * 1000 / rate }).addf (Reg.LNK_RB_STAT k) Fld.LNK_RB_STAT_FRAMES 1).ringOut 0x20 x
    | [] =>
      if d.bcState k = 1 then
        let left (s : Nat) : Nat := (b.ranges.getD s (0, 0)).2 - b.done.getD s 0
        match ((List.range 9).map fun i => (b.turn + i) % 9).find? (fun s => 0 < left s) with
        | some s =>
          let o := b.done.getD s 0
          let n := min 4096 (left s)
          let x := { d.bcFrame k s o (d.bytes ((b.ranges.getD s (0, 0)).1 + o) n) with seq := BitVec.ofNat 32 b.seq }
          let b1 := { b with turn := (s + 1) % 9, done := b.done.set s (o + n), seq := b.seq + 1, nextAt := d.ps + n * 1000 / rate }
          let d1 := ((d.setBc k b1).addf (Reg.LNK_RB_STAT k) Fld.LNK_RB_STAT_FRAMES 1).ringOut 0x20 x
          if (List.range 9).all fun t => b1.done.getD t 0 = (b1.ranges.getD t (0, 0)).2 then
            (d1.bcEnds k).wf (Reg.LNK_RB_STAT k) Fld.LNK_RB_STAT_STATE 2
          else d1
        | none => (d.bcEnds k).wf (Reg.LNK_RB_STAT k) Fld.LNK_RB_STAT_STATE 2
      else d

def opBcEndRepeat (k : Nat) (d : Dev) : Dev :=
  if d.bcState k = 2 ∧ (d.bc k).endAt + 2 * ms ≤ d.ps then d.bcEnds k else d

/-- BC_NAK at the origin (R376): the slot with that stream repairs the range, as far as its shard has it. -/
def opBcNak (a : Nat) (x : RingFrame) (d : Dev) : Dev :=
  d.ringRx a 0x22 x id
    (fun e => (List.range 4).foldl (fun e k =>
      if e.bcState k ≠ 0 ∧ e.rf (Reg.LNK_RB_CFG k) Fld.LNK_RB_CFG_STREAM = x.stream.toNat ∧
         (e.rd (Reg.LNK_DOMAIN (e.rf (Reg.LNK_RB_CFG k) Fld.LNK_RB_CFG_PART))).toNat = x.domain.toNat then
        let b := e.bc k
        if (b.ranges.getD (rArg x 36 1) (0, 0)).2 ≤ rArg x 40 8 ∨ rArg x 48 8 = 0 then e
        else (e.setBc k { b with repairs := b.repairs ++ [(rArg x 36 1, rArg x 40 8, rArg x 48 8)] }).addf (Reg.LNK_RB_STAT k) Fld.LNK_RB_STAT_NAKS 1
      else e) e) false

/-! ### Weight broadcast: keepers (R375, R376) -/

/-- Fields of a job record (Table 6-3). -/
def Job.op (j : Job) : Nat := byteAt j.record 0
def Job.kind (j : Job) : Nat := byteAt j.record 1
def Job.qp (j : Job) : Nat := leAt j.record 4 2
def Job.srcAddr (j : Job) : Nat := leAt j.record 8 8
/-- Bytes of the source range: SRC_LEN, or NROWS·NCOLS·z for TRANSFORM. -/
def Job.srcLen (j : Job) : Nat :=
  if j.op = 2 then leAt j.record 32 4 * leAt j.record 36 4 * (if byteAt j.record 2 = 1 then 4 else 2) else leAt j.record 40 8

/-- The shard that a broadcast-fed job takes: 8 with SRC_ADDR bit 63 set, else the device's position. -/
def Dev.jobShard (d : Dev) (j : Job) : Nat := if bit j.srcAddr 63 then 8 else d.pos

/-- Take a range out of a list of missing ranges (offset, length). -/
def subtractRange (lo hi : Nat) (rs : List (Nat × Nat)) : List (Nat × Nat) :=
  rs.flatMap fun r =>
    let e := r.1 + r.2
    (if r.1 < lo then [(r.1, min e lo - r.1)] else []) ++ (if hi < e then [(max r.1 hi, e - max r.1 hi)] else [])

/-- Is a missing range a hole: bytes after it have come? -/
def Job.hasHole (j : Job) : Bool := match j.holes.head? with | some r => r.1 + r.2 < j.srcLen | none => false

/-- The running broadcast-fed job that a frame is for. -/
def Dev.bcJob (d : Dev) (x : RingFrame) : Option Job :=
  match d.partOfDomain x.domain.toNat with
  | some p => d.ldr.jobs.find? fun j => j.part == p && j.kind == 3 && j.status == 1 && j.qp == x.stream.toNat && d.jobShard j == x.shard.toNat
  | none => none

def Dev.setJob (d : Dev) (j : Job) : Dev :=
  { d with ldr := { d.ldr with jobs := d.ldr.jobs.map fun q => if q.part = j.part ∧ q.index = j.index then j else q } }

/-- Land the bytes of a frame that the job lacks; a byte that it has stays (R375). -/
def landBytes (j : Job) (off : Nat) (payload : List Byte) (now : Nat) : Job :=
  let base := j.srcAddr % 2 ^ 63
  let lo := max off base
  let hi := min (off + payload.length) (base + j.srcLen)
  if lo < hi then
    let src := (List.range (hi - lo)).foldl (fun m i =>
      if j.holes.any fun r => r.1 ≤ lo - base + i && lo - base + i < r.1 + r.2 then sput (fun _ => 0#8) m (lo - base + i) (payload.getD (lo - off + i) 0#8) else m) j.src
    let holes := subtractRange (lo - base) (hi - base) j.holes
    let j1 := { j with src := src, holes := holes, lastAt := now, got := j.srcLen - (holes.foldl (fun (a : Nat) (r : Nat × Nat) => a + r.2) 0) }
    { j1 with holeAt := if j1.hasHole then (if j.hasHole then j.holeAt else now) else 0 }
  else j

/-- BC_NAK for the lowest missing range, at most 64 MiB. -/
def Dev.sendBcNak (d : Dev) (j : Job) : Dev :=
  match j.holes.head?, j.origin with
  | some r, some o =>
    let base := j.srcAddr % 2 ^ 63
    let d1 := { d with ring := { d.ring with naks := sput (fun _ => 0) d.ring.naks j.part d.ps } }
    d1.ringOut 0x22 { d1.ringFrame o [] with
      stream := BitVec.ofNat 16 j.qp, domain := BitVec.ofNat 16 (d.rd (Reg.LNK_DOMAIN j.part)).toNat,
      arg := mkRArg [(36, 1, d.jobShard j), (40, 8, base + r.1), (48, 8, min r.2 0x4000000)] }
  | _, _ => d

def opBcData (a : Nat) (x : RingFrame) (d : Dev) : Dev :=
  d.ringRx a 0x20 x id
    (fun e => match e.bcJob x with
      | some j =>
        if x.pcrc.toNat = ringPcrc x.payload then e.setJob { landBytes j x.offset.toNat x.payload e.ps with origin := some x.src.toNat }
        else e.setJob { j with origin := some x.src.toNat }
      | none => e) true

def opBcEnd (a : Nat) (x : RingFrame) (d : Dev) : Dev :=
  d.ringRx a 0x21 x id
    (fun e => match e.bcJob x with
      | some j =>
        let j1 := { j with origin := some x.src.toNat }
        if j.holes.isEmpty then e else (e.setJob j1).sendBcNak j1
      | none => e) true

/-- 2 ms with a hole, or since the last BC_NAK. -/
def opBcNakTimer (p : Nat) (d : Dev) : Dev :=
  match d.ldr.jobs.find? (fun j => j.part == p && j.kind == 3 && j.status == 1) with
  | some j =>
    if j.hasHole ∧ j.holeAt + 2 * ms ≤ d.ps ∧ (sget (fun _ => 0) d.ring.naks p) + 2 * ms ≤ d.ps then d.sendBcNak j else d
  | none => d

/-! ### Hop supervision, insertion and removal (R360 to R370) -/

def opHopMiss (a hseq : Nat) (d : Dev) : Dev :=
  let p := d.rp a
  let thop := d.rf Reg.LNK_RING_THOP (if a = 0 then Fld.LNK_RING_THOP_A else Fld.LNK_RING_THOP_B)
  match p.sent.find? (fun q => q.1 == hseq && !q.2.2 && q.2.1 + 2100 * ns + 2 * thop * ns ≤ d.ps) with
  | some q =>
    if d.ringState a = rUp then
      let ms' := d.ps :: p.misses.filter fun t => d.ps < t + 100 * us
      let d1 := (d.setRp a { p with sent := p.sent.map fun (r : Nat × Nat × Bool) => if r = q then (q.1, q.2.1, true) else r, misses := ms' }).bump Reg.LNK_RING_MISSES 1
      if 3 ≤ ms'.length then d1.hopFaulty a 1 else d1
    else d
  | none => d

def opHopSilence (a : Nat) (d : Dev) : Dev :=
  if d.ringState a = rUp ∧ (d.rp a).lastRx + 4 * us ≤ d.ps then d.hopFaulty a 2 else d

def opExpelRepeat (a : Nat) (d : Dev) : Dev :=
  let p := d.rp a
  if 0 < p.expelLeft ∧ d.ringState a = rFaulty ∧ p.expelAt + us ≤ d.ps then
    (d.setRp a { p with expelLeft := p.expelLeft - 1, expelAt := d.ps }).ringSend a 0x04
      { d.ringFrame 0xFF [] with up := a == 0, arg := mkRArg [(36, 1, p.expelCode)] }
  else d

def opHopLoss (a : Nat) (d : Dev) : Dev :=
  let p := d.rp a
  match p.lost with
  | some (node, t) =>
    if !p.lostTold ∧ t + 10 * ms ≤ d.ps then
      let d1 := d.setRp a { p with lostTold := true }
      if d1.isMember node then d1.dropNode node else d1.loseNode node
    else d
  | none => d

def opLoopTimer (d : Dev) : Dev :=
  if d.inserted ∧ d.ring.loopAt + ms ≤ d.ps then
    { d with ring := { d.ring with loopAt := d.ps } }.ringOut 0x05 (d.ringFrame 0xFF [])
  else d

def opRkeepTimer (a : Nat) (d : Dev) : Dev :=
  if d.ringState a = rUp ∧ (d.rp a).lastTx + 500 * ns ≤ d.ps then d.ringSend a 0x02 { d.ringFrame 0xFF [] with up := a == 0 } else d

def opRhelloTimer (a : Nat) (d : Dev) : Dev :=
  if d.ringState a = rUp ∧ (d.rp a).helloTx + 100 * us ≤ d.ps then d.sendRhello a else d

/-- A write of 1 to INSERT (R367, R370). -/
def opRingInsert (v : Nat) (d : Dev) : Dev :=
  if v = 0 then
    let why := b2n (!d.ready) + 2 * b2n (!d.nodeValid) + 4 * b2n (d.role < 2) + 8 * b2n d.ring.bypassLow
    if why ≠ 0 then d.raise (notice cConfig 0x1021 why)
    else if d.rf Reg.LNK_RING_CTL Fld.LNK_RING_CTL_INSERT = 1 then d
    else
      let d1 := d.upd [(Reg.LNK_RING_CTL, Fld.LNK_RING_CTL_INSERT, 1), (Reg.LNK_RING_STAT, Fld.LNK_RING_STAT_EXPELLED, 0),
        (Reg.LNK_RING_STAT, Fld.LNK_RING_STAT_SWITCH, if d.rf Reg.LNK_RING_STAT Fld.LNK_RING_STAT_SWITCH = 2 then 2 else 1)]
      { d1 with ring := { d1.ring with drive := true, leaveAt := none } }
  else d

def opRingRemove (v : Nat) (d : Dev) : Dev :=
  if v = 0 ∧ d.rf Reg.LNK_RING_CTL Fld.LNK_RING_CTL_INSERT = 1 then d.ringRemove else d

def opDriveRemoval (d : Dev) : Dev :=
  match d.ring.leaveAt with
  | some t => if t ≤ d.ps then d.dropDrive else d
  | none => d

/-- Into TRAIN: no hello has arrived since (Table 11-15). -/
def Dev.ringTrain (d : Dev) (a : Nat) : Dev := (d.setRingState a rTrain).wf (Reg.LNK_RING_PEER a) Fld.LNK_BL_PEER_VALID 0

def opSwitchInserted (d : Dev) : Dev :=
  if d.ring.drive ∧ d.rf Reg.LNK_RING_STAT Fld.LNK_RING_STAT_SWITCH = 1 then
    ((d.wf Reg.LNK_RING_STAT Fld.LNK_RING_STAT_SWITCH 2).ringTrain 0).ringTrain 1
  else d

def opSwitchBypassed (d : Dev) : Dev :=
  if !d.ring.drive ∧ d.rf Reg.LNK_RING_STAT Fld.LNK_RING_STAT_SWITCH = 1 then d.wf Reg.LNK_RING_STAT Fld.LNK_RING_STAT_SWITCH 0 else d

/-- BYPASS_N low (R370): RLEAVE where a port is UP, then the drive goes at once and INSERT reads 0. -/
def opBypassLow (d : Dev) : Dev :=
  let d1 := d.ringRemove.dropDrive.wf Reg.LNK_RING_STAT Fld.LNK_RING_STAT_BYPASS_N 1
  { d1 with ring := { d1.ring with bypassLow := true } }

def opBypassHigh (d : Dev) : Dev :=
  let d1 := d.wf Reg.LNK_RING_STAT Fld.LNK_RING_STAT_BYPASS_N 0
  { d1 with ring := { d1.ring with bypassLow := false } }

/-- Every lane locks within 2 ms: the port enters HELLO and sends RHELLO. -/
def opRingTrained (a : Nat) (d : Dev) : Dev :=
  if d.ringState a = rTrain ∧ d.ps ≤ (d.rp a).since + 2 * ms then
    let keep := d.rp a
    ((d.setRp a { RingPort.zero with lastRx := d.ps, lost := keep.lost, lostTold := keep.lostTold }).setRingState a rHello).sendRhello a
  else d

def opRingTrainTimeout (a : Nat) (d : Dev) : Dev :=
  if d.ringState a = rTrain ∧ (d.rp a).since + 2 * ms ≤ d.ps then d.ringFaulty a 5 else d

def opRingHelloTimeout (a : Nat) (d : Dev) : Dev :=
  if d.ringState a = rHello ∧ (d.rp a).since + 100 * us ≤ d.ps then d.ringFaulty a 0 else d

def opLightReturn (a : Nat) (d : Dev) : Dev := if d.ringState a = rFaulty then d.ringTrain a else d

def opRingRetrain (v a : Nat) (d : Dev) : Dev := if v = 0 ∧ d.ringState a = rFaulty then d.ringTrain a else d

/-! ### The commands -/

def execRhello (a : RingIdx) (x : RingFrame) (s : State) : Host.Outcome State Fault Refusal := done s (opRhello a x s.dev)
def execRkeep (a : RingIdx) (x : RingFrame) (s : State) : Host.Outcome State Fault Refusal := done s (opRkeep a x s.dev)
def execRleave (a : RingIdx) (x : RingFrame) (s : State) : Host.Outcome State Fault Refusal := done s (opRleave a x s.dev)
def execExpel (a : RingIdx) (x : RingFrame) (s : State) : Host.Outcome State Fault Refusal := done s (opExpel a x s.dev)
def execLoopFrame (a : RingIdx) (x : RingFrame) (s : State) : Host.Outcome State Fault Refusal := done s (opLoopFrame a x s.dev)
def execCtrlMsg (a : RingIdx) (x : RingFrame) (s : State) : Host.Outcome State Fault Refusal := done s (opCtrlMsg a x s.dev)
def execCtrlAck (a : RingIdx) (x : RingFrame) (s : State) : Host.Outcome State Fault Refusal := done s (opCtrlAck a x s.dev)
def execBcData (a : RingIdx) (x : RingFrame) (s : State) : Host.Outcome State Fault Refusal := done s (opBcData a x s.dev)
def execBcEnd (a : RingIdx) (x : RingFrame) (s : State) : Host.Outcome State Fault Refusal := done s (opBcEnd a x s.dev)
def execBcNak (a : RingIdx) (x : RingFrame) (s : State) : Host.Outcome State Fault Refusal := done s (opBcNak a x s.dev)
def execHopMiss (a : RingIdx) (h : BitVec 16) (s : State) : Host.Outcome State Fault Refusal := done s (opHopMiss a h.toNat s.dev)
def execHopSilence (a : RingIdx) (s : State) : Host.Outcome State Fault Refusal := done s (opHopSilence a s.dev)
def execExpelRepeat (a : RingIdx) (s : State) : Host.Outcome State Fault Refusal := done s (opExpelRepeat a s.dev)
def execHopLossTimeout (a : RingIdx) (s : State) : Host.Outcome State Fault Refusal := done s (opHopLoss a s.dev)
def execLoopTimer (s : State) : Host.Outcome State Fault Refusal := done s (opLoopTimer s.dev)
def execRkeepTimer (a : RingIdx) (s : State) : Host.Outcome State Fault Refusal := done s (opRkeepTimer a s.dev)
def execRhelloTimer (a : RingIdx) (s : State) : Host.Outcome State Fault Refusal := done s (opRhelloTimer a s.dev)
def execRingInsert (v : View) (s : State) : Host.Outcome State Fault Refusal := hostDone s Reg.LNK_RING_CTL (opRingInsert v)
def execRingRemove (v : View) (s : State) : Host.Outcome State Fault Refusal := hostDone s Reg.LNK_RING_CTL (opRingRemove v)
def execDriveRemoval (s : State) : Host.Outcome State Fault Refusal := done s (opDriveRemoval s.dev)
def execSwitchInserted (s : State) : Host.Outcome State Fault Refusal := done s (opSwitchInserted s.dev)
def execSwitchBypassed (s : State) : Host.Outcome State Fault Refusal := done s (opSwitchBypassed s.dev)
def execBypassNLow (s : State) : Host.Outcome State Fault Refusal := done s (opBypassLow s.dev)
def execBypassNHigh (s : State) : Host.Outcome State Fault Refusal := done s (opBypassHigh s.dev)
def execRingPortTrained (a : RingIdx) (s : State) : Host.Outcome State Fault Refusal := done s (opRingTrained a s.dev)
def execRingTrainTimeout (a : RingIdx) (s : State) : Host.Outcome State Fault Refusal := done s (opRingTrainTimeout a s.dev)
def execRingHelloTimeout (a : RingIdx) (s : State) : Host.Outcome State Fault Refusal := done s (opRingHelloTimeout a s.dev)
def execLightReturn (a : RingIdx) (s : State) : Host.Outcome State Fault Refusal := done s (opLightReturn a s.dev)
def execRingRetrain (v : View) (a : RingIdx) (s : State) : Host.Outcome State Fault Refusal := hostDone s Reg.LNK_RING_CTL (opRingRetrain v a)
def execCtrlMsgResend (m : BitVec 32) (s : State) : Host.Outcome State Fault Refusal := done s (opCtrlResend m.toNat s.dev)
def execBcStart (v : View) (k : Fin 4) (s : State) : Host.Outcome State Fault Refusal := hostDone s (Reg.LNK_RB_CFG k) (opBcStart v k)
def execBcClose (v : View) (k : Fin 4) (s : State) : Host.Outcome State Fault Refusal := hostDone s (Reg.LNK_RB_CFG k) (opBcClose v k)
def execBcFrameSend (k : Fin 4) (s : State) : Host.Outcome State Fault Refusal := done s (opBcFrameSend k s.dev)
def execBcEndRepeat (k : Fin 4) (s : State) : Host.Outcome State Fault Refusal := done s (opBcEndRepeat k s.dev)
def execBcNakTimer (p : PartIdx) (s : State) : Host.Outcome State Fault Refusal := done s (opBcNakTimer p s.dev)

end Sys2Proof.Machine
end

