-- ==== Sys2Proof/Machine/Loader.lean ====
section
/-!
DEFINITION. The loader (R188 to R196), the model store (R176, R177, R197 to R199), the tile patrol and repair (R200, R201).
-/
namespace Sys2Proof.Machine

/-! ### The model store (R176, R197) -/

/-- Device address of entry e of the directory, and its fields (Table 6-7). -/
def msAddr (e : Nat) : Nat := t2Base + 4096 * e
def Dev.msState (d : Dev) (e : Nat) : Nat := d.num (msAddr e) 1
def Dev.msPart (d : Dev) (e : Nat) : Nat := d.num (msAddr e + 1) 1
def Dev.msRegions (d : Dev) (e : Nat) : Nat := d.num (msAddr e + 2) 2
def Dev.msRecord (d : Dev) (e i : Nat) : List Byte := d.bytes (msAddr e + 256 + 48 * i) 48
def msFree : Nat := 0
def msLoading : Nat := 1
def msResident : Nat := 2
def msDamaged : Nat := 3
def Dev.t2Here (d : Dev) : Bool := d.rf Reg.MEM_CFG Fld.MEM_CFG_T2_GRANULES != 0
def Dev.msOwned (d : Dev) (p e : Nat) : Bool := d.msState e != msFree && d.msPart e == p

/-- Tile slots of region i of entry e. -/
def Dev.msSlots (d : Dev) (e i : Nat) : Nat := sget (fun _ => 0) d.ldr.sizes (64 * e + i)
/-- Destination of the job record that wrote region i of entry e. -/
def Dev.msDst (d : Dev) (e i : Nat) : Nat := d.num (msAddr e + 256 + 48 * i + 24) 8

def overlap (a n b m : Nat) : Bool := a < b + m && b < a + n

/-- Does image i place a region of a tier over a range? -/
def Dev.placesOver (d : Dev) (i : Img) (tier a n : Nat) : Bool :=
  (List.range (d.regionCount i)).any fun r => (d.region i r).1 == tier && overlap a n (i.place.getD r 0) (d.region i r).2.2

/-- References to a range of T2 (R177): registered handles with a region over it, running jobs and broadcast slots that read it (R373), frozen blocks that
rest there. -/
def Dev.t2Refs (d : Dev) (a n : Nat) : Nat :=
  (d.img.imgs.filter fun (q : Nat × Option Img) =>
    match q.2 with | some i => d.handleState q.1 == 2 && d.placesOver i 2 a n | none => false).length +
  (d.ldr.jobs.filter fun j => j.kind == 1 && overlap a n j.srcAddr j.srcLen).length +
  (filterBelow 4 fun k => d.bcState k != 0 && (d.bc k).ranges.any fun r => r.2 != 0 && overlap a n r.1 r.2).length +
  d.srv.handles.foldl (fun s (q : Nat × Handle) => s + (q.2.copies.filter fun b => overlap a n b.2 blockBytes).length) 0

/-- REFS of an entry: the references to its regions. -/
def Dev.msRefs (d : Dev) (e : Nat) : Nat :=
  (List.range (d.msRegions e)).foldl (fun s i => s + d.t2Refs (d.msDst e i) (max 1 (d.msSlots e i * tileBytes))) 0

/-- Is a T1 range in a region of an image of p that is active or held in a shadow bank? -/
def Dev.liveRegion (d : Dev) (p a n : Nat) : Bool :=
  let uses := fun (h : Nat) => match d.imgAt (16 * p + h) with | some i => d.placesOver i 1 a n | none => false
  (d.rf (Reg.MOLT_STAT p) Fld.MOLT_STAT_ACTIVE_VALID == 1 && uses (d.rf (Reg.MOLT_STAT p) Fld.MOLT_STAT_ACTIVE_HANDLE)) ||
    ((d.moltState p == mLoading || d.rf (Reg.MOLT_STAT p) Fld.MOLT_STAT_SHADOW_VALID == 1 || !(d.molt p).unacked.isEmpty) &&
      uses (d.rf (Reg.MOLT_STAT p) Fld.MOLT_STAT_SHADOW_HANDLE))

/-! ### Job records -/

def Job.srcFmt (j : Job) : Nat := byteAt j.record 2
def Job.dstFmt (j : Job) : Nat := byteAt j.record 3
def Job.kaxis (j : Job) : Nat := byteAt j.record 6 % 2
def Job.notify (j : Job) : Bool := bit (byteAt j.record 6) 1
def Job.rkey (j : Job) : Nat := leAt j.record 16 4
def Job.entry (j : Job) : Nat := leAt j.record 20 2
def Job.dst (j : Job) : Nat := leAt j.record 24 8
def Job.rows (j : Job) : Nat := leAt j.record 32 4
def Job.cols (j : Job) : Nat := leAt j.record 36 4
def Job.tag (j : Job) : Nat := leAt j.record 48 8

/-- Source bytes of a job: device memory, or what has come from the host or the ring. -/
def Dev.jobByte (d : Dev) (j : Job) (off : Nat) : Byte := if j.kind ≤ 1 then d.byte (j.srcAddr + off) else sget (fun _ => 0#8) j.src off
def Dev.jobBytes (d : Dev) (j : Job) (off n : Nat) : List Byte := (List.range n).map fun i => d.jobByte j (off + i)
def Dev.jobNum (d : Dev) (j : Job) (off n : Nat) : Nat := leNat (d.jobBytes j off n)

/-- Can the job read its source: mapped, and in granules of its partition (R170, R311)? Host and ring sources bring their bytes. -/
def Dev.srcReadable (d : Dev) (j : Job) : Bool :=
  if j.kind = 0 then j.srcLen == 0 || d.t1Owned j.part j.srcAddr j.srcLen
  else if j.kind = 1 then j.srcLen == 0 || d.t2Owned j.part j.srcAddr j.srcLen
  else true
/-- The ends of the granules of the source's tier, the last first, as source lengths. -/
def Job.granuleEnds (j : Job) : List Nat :=
  let size := if j.kind = 0 then 2 ^ 34 else 2 ^ 36
  let base := if j.kind = 0 then t1Base else t2Base
  (((List.range 32).map fun g => base + size * (g + 1)).reverse.filter fun x => j.srcAddr < x ∧ x < j.srcAddr + j.srcLen).map (· - j.srcAddr)
/-- The source bytes, from the first on, that a job could read before its source failed: those in granules of its partition, or those that have come. -/
def Dev.goodSource (d : Dev) (j : Job) : Nat :=
  if j.kind ≤ 1 then ((j.srcLen :: j.granuleEnds).find? fun n => if j.kind = 0 then d.t1Owned j.part j.srcAddr n else d.t2Owned j.part j.srcAddr n).getD 0
  else (j.holes.map (·.1)).foldl min j.srcLen

/-- Rows and columns of a tile of the destination format, and tiles along both axes of a TRANSFORM (R192). The shape is that of Table 4-3, also for 32-bit
formats, whose other axis is 32 long. -/
def Job.shape (j : Job) : Nat × Nat := tileShape j.dstFmt j.kaxis
def Job.tilesDown (j : Job) : Nat := ceilDiv j.rows j.shape.1
def Job.tilesAcross (j : Job) : Nat := ceilDiv j.cols j.shape.2

/-- A good stream header of format `fmt` (R193): a bad one, or another FORMAT, is a decode error (R196). -/
def jxpHeadOk (fmt : Nat) (h : List Byte) : Bool :=
  h.length == 16 && h.take 4 == [0x4A#8, 0x58#8, 0x50#8, 0x4B#8] && byteAt h 4 == 1 && byteAt h 5 == fmt && byteAt h 7 == 0 && leAt h 12 4 == 0
/-- TILE_COUNT of a JXP stream: none until its header has come, and of a bad header. -/
def Dev.jxpCount (d : Dev) (j : Job) : Nat :=
  if 16 ≤ j.srcLen ∧ jxpHeadOk j.dstFmt (d.jobBytes j 0 16) then d.jobNum j 8 4 else 0

/-- Bytes that a job writes. -/
def Dev.dstLen (d : Dev) (j : Job) : Nat :=
  if j.op = 1 then j.srcLen else if j.op = 2 then j.tilesDown * j.tilesAcross * tileBytes else max 1 (d.jxpCount j) * tileBytes
/-- Tile slots that a job writes. -/
def Dev.dstSlots (d : Dev) (j : Job) : Nat := d.dstLen j / tileBytes

/-- Check 1 of R190: operation, source kind and formats (Table 6-4). -/
def Job.formatOk (j : Job) : Bool :=
  if j.op = 1 then j.kind ≤ 3 && j.srcFmt == 0 && j.dstFmt == 0 && j.srcLen % 512 == 0 && j.dst % 512 == 0
  else if j.op = 2 then
    (j.kind == 0 || j.kind == 2 || j.kind == 3) && 1 ≤ j.srcFmt && j.srcFmt ≤ 3 && (fmtShape j.dstFmt).isSome && j.dst % 512 == 0
  else if j.op = 3 then (j.kind == 0 || j.kind == 2 || j.kind == 3) && j.srcFmt == 0 && (fmtShape j.dstFmt).isSome && j.dst % 512 == 0
  else false

/-- Checks 2 and 3 on a destination range: the STATUS, and the fault. -/
def Dev.dstCheck (d : Dev) (p a n : Nat) : Option (Nat × Nat × Nat) :=
  if !d.owned p a (max 1 n) then some (6, cSecurity, 0x0A12)
  else if (t2Base ≤ a ∧ d.t2Refs a (max 1 n) != 0) ∨ (a < t2Base ∧ d.liveRegion p a (max 1 n)) then some (5, cRo, 0x0A11)
  else none

/-- Check 4: the entry that a job names. -/
def Dev.entryOk (d : Dev) (j : Job) : Bool :=
  j.entry == 0xFFFF || (j.entry < 512 && d.t2Here && d.msOwned j.part j.entry && d.msState j.entry == msLoading && d.msRegions j.entry < 64)

/-! ### The job ring (R188) -/

def Dev.ldBase (d : Dev) (p : Nat) : Nat := d.rf (Reg.MEM_LD_BASE p) Fld.MEM_LD_BASE_BASE
def Dev.ldLog (d : Dev) (p : Nat) : Nat := d.rf (Reg.MEM_LD_BASE p) Fld.MEM_LD_BASE_LOG2N
def Dev.ldHead (d : Dev) (p : Nat) : Nat := (d.rd (Reg.MEM_LD_HEAD p)).toNat % 2 ^ 32
def Dev.ldTail (d : Dev) (p : Nat) : Nat := (d.rd (Reg.MEM_LD_TAIL p)).toNat % 2 ^ 32
def Dev.jobAddr (d : Dev) (p i : Nat) : Nat := d.ldBase p + 64 * (i % 2 ^ d.ldLog p)

/-- Does the ring of p serve: a length of 2^4 to 2^12 records, in T1 granules of p? -/
def Dev.ringServes (d : Dev) (p : Nat) : Bool := 4 ≤ d.ldLog p && d.ldLog p ≤ 12 && d.t1Owned p (d.ldBase p) (64 * 2 ^ d.ldLog p)

/-- Jobs of p that have started and that HEAD has not passed. -/
def Dev.ldStarted (d : Dev) (p : Nat) : Nat := (d.ldr.jobs.filter fun j => j.part == p).length + (d.ldr.ended.filter fun q => q.1 == p).length
/-- The index of the next job of p. -/
def Dev.nextJob (d : Dev) (p : Nat) : Option Nat :=
  if d.partUsable p && d.ringServes p && d.ldStarted p < (d.ldTail p + 2 ^ 32 - d.ldHead p) % 2 ^ 32 then some ((d.ldHead p + d.ldStarted p) % 2 ^ 32) else none

/-- The partition whose job is started next: round-robin. -/
def Dev.nextLoad (d : Dev) : Option Nat := ((List.range 16).map fun i => (d.ldr.turn + i) % 16).find? fun p => (d.nextJob p).isSome

def passHead (p : Nat) : Nat → Dev → Dev
  | 0, d => d
  | n + 1, d =>
    if d.ldr.ended.contains (p, d.ldHead p) then
      let d1 : Dev := { d with ldr := { d.ldr with ended := d.ldr.ended.erase (p, d.ldHead p) } }
      passHead p n (d1.wr (Reg.MEM_LD_HEAD p) (BitVec.ofNat 64 ((d.ldHead p + 1) % 2 ^ 32)))
    else d

/-- A job ends: STATUS and DONE are written, HEAD passes the jobs that have ended, LOADER_DONE follows under NOTIFY. -/
def Dev.endJob (d : Dev) (j : Job) (status done : Nat) : Dev :=
  let a := d.jobAddr j.part j.index
  let d1 := (d.setNum (a + 56) 4 status).setNum (a + 60) 4 done
  let d2 : Dev := { d1 with ldr := { d1.ldr with
    jobs := d1.ldr.jobs.filter (fun q => !(q.part == j.part && q.index == j.index)), ended := d1.ldr.ended ++ [(j.part, j.index)] } }
  let d3 := passHead j.part 4096 d2
  if j.notify then d3.event j.part 0x07 0xFF j.index 0 j.tag else d3

/-- RDMA READs for a host source, a gibibyte at a time. -/
def Dev.readSource (d : Dev) (j : Job) (index : Nat) : Dev :=
  (List.range (ceilDiv j.srcLen (2 ^ 30))).foldl (fun (e : Dev) k =>
    e.rdmaRead (j.qp % 4096) (j.srcAddr + k * 2 ^ 30) j.rkey (min (2 ^ 30) (j.srcLen - k * 2 ^ 30)) (.loader j.part index (k * 2 ^ 30))) d

/-- A region record of a starting job whose destination is T2 (R198). -/
def Dev.addRegion (d : Dev) (j : Job) : Dev :=
  if j.entry != 0xFFFF && t2Base ≤ j.dst then
    let n := d.msRegions j.entry
    let a := msAddr j.entry
    let d1 := (d.setBytes (a + 256 + 48 * n) (j.record.take 48)).setNum (a + 2) 2 (n + 1)
    let d2 := d1.setNum (a + 8) 8 (d1.num (a + 8) 8 + d.dstLen j)
    { d2 with ldr := { d2.ldr with sizes := sput (fun _ => 0) d2.ldr.sizes (64 * j.entry + n) (d.dstSlots j) } }
  else d

/-- Start the next job of p with operation op: the checks of R190 in order. A JXP stream that is not in T1 tells its length only when it comes; until then
its first slot is checked. An undefined OP ends under LOADER_COPY. -/
def opLoaderStart (op p : Nat) (d : Dev) : Dev :=
  match d.nextJob p with
  | some idx =>
    let rec_ := d.bytes (d.jobAddr p idx) 64
    let o := byteAt rec_ 0
    if d.nextLoad = some p ∧ d.ldr.jobs.length < 8 ∧ (o = op ∨ (op = 1 ∧ o != 2 ∧ o != 3)) then
      let j0 : Job := ⟨p, idx, rec_, [], 0, 1, [], 0, none, d.ps⟩
      let j : Job := if j0.kind ≤ 1 ∨ j0.srcLen = 0 then j0 else { j0 with holes := [(0, j0.srcLen)] }
      let d1 : Dev := { d with ldr := { d.ldr with turn := (p + 1) % 16 } }
      if !j.formatOk then d1.endJob j 7 0
      else
        match d1.dstCheck p j.dst (d1.dstLen j) with
        | some (st, cls, cause) => (d1.raise { notice cls cause (j.dst % 2 ^ 48) with part := some p }).endJob j st 0
        | none =>
          if !d1.entryOk j then d1.endJob j 6 0
          else
            let a := d1.jobAddr p idx
            let d2 := ((d1.setNum (a + 56) 4 1).setNum (a + 60) 4 0).addRegion j
            let d3 : Dev := { d2 with ldr := { d2.ldr with jobs := d2.ldr.jobs ++ [j] } }
            if j.kind = 2 then d3.readSource j idx else d3
    else d
  | none => d

/-! ### What a job writes -/

/-- The header of a tile that the loader makes (R192). -/
def loaderHdr (fmt kaxis seq : Nat) : Hdr :=
  { crc := 0, format := fmt, kaxis := kaxis, kext := 0, rows := 0, cols := 0, speculative := false, empty := false, eos := false, streamId := 0, gen := 0,
    steer := 0, pred := 0, slot := 0xFFFF, seq := seq, epoch := 0, slotGen := 0 }

/-- Source element (r, k) of a TRANSFORM: as an FP32 code, or, when source and target are one format, as it stands, a NaN canonical (R69). -/
def Dev.transformCode (d : Dev) (j : Job) (r k : Nat) : Nat :=
  let z := if j.srcFmt = 1 then 4 else 2
  let raw := d.jobNum j ((r * j.cols + k) * z) z
  let x := (codeValue j.srcFmt 0 raw).getD .nan
  if j.srcFmt = j.dstFmt then (match x with | .nan => canonNaN (if j.srcFmt = 1 then fmtFP32 else if j.srcFmt = 2 then fmtBF16 else fmtFP16) | _ => raw) else if j.srcFmt = 1 then raw else fpRound fmtFP32 x

/-- Tile (a, b) of a TRANSFORM. -/
def Dev.transformTile (d : Dev) (j : Job) (a b : Nat) : List Byte :=
  let r0 := a * j.shape.1
  let k0 := b * j.shape.2
  let rows := min j.shape.1 (j.rows - r0)
  let cols := min j.shape.2 (j.cols - k0)
  let src : CvtSrc := ⟨0x01, rows, cols, j.kaxis, fun r k => d.transformCode j (r0 + r) (k0 + k), fun _ _ => 0⟩
  let el := fun (r k : Nat) => if j.srcFmt = j.dstFmt then (src.code r k, 0) else cvtElem src j.dstFmt r k
  cvtTile (loaderHdr j.dstFmt j.kaxis (a * j.tilesAcross + b)) j.dstFmt j.kaxis rows cols el

/-! ### JXP (R193 to R196) -/

/-- Decode the runs of one coded plane of n bytes: the plane and the bytes left. -/
def jxpRuns : Nat → Nat → List Byte → Option (List Byte × List Byte)
  | 0, n, bs => if n = 0 then some ([], bs) else none
  | fuel + 1, n, bs =>
    if n = 0 then some ([], bs)
    else
      match bs with
      | [] => none
      | c :: rest =>
        let k := c.toNat % 128 + 1
        if n < k then none
        else if c.toNat < 128 then
          (if rest.length < k then none else (jxpRuns fuel (n - k) (rest.drop k)).map fun q => (rest.take k ++ q.1, q.2))
        else
          match rest with
          | [] => none
          | v :: rest2 => (jxpRuns fuel (n - k) rest2).map fun q => (List.replicate k v ++ q.1, q.2)

/-- Planes j to w − 1. -/
def jxpPlanes (mask len : Nat) : List Nat → List Byte → Option (List (List Byte) × List Byte)
  | [], bs => some ([], bs)
  | j :: js, bs =>
    let one := if bit mask j then jxpRuns len len bs else if bs.length < len then none else some (bs.take len, bs.drop len)
    match one with
    | some (pl, rest) => (jxpPlanes mask len js rest).map fun q => (pl :: q.1, q.2)
    | none => none

/-- Elements N of a format (R194). -/
def jxpElems (fmt : Nat) : Nat := match fmtShape fmt with | some (_, kt, o) => kt * o | none => 0

/-- One block: the tile and the bytes left, none for a decode error. -/
def jxpBlock (fmt kaxis seq : Nat) (bs : List Byte) : Option (List Byte × List Byte) :=
  match fmtShape fmt with
  | none => none
  | some (w, kt, _) =>
    let h := leAt bs 0 8
    let plen := h % 2 ^ 17
    let mask := h / 2 ^ 32
    let zero := bit h 18
    let hdr : Hdr := { loaderHdr fmt kaxis seq with rows := h / 2 ^ 26 % 64, cols := h / 2 ^ 20 % 64, kext := h / 2 ^ 19 % 2 }
    if bs.length < 8 + plen ∨ plen % 8 != 0 ∨ mask / 2 ^ w != 0 ∨ !hdrValid hdr then none
    else
      let pay := (bs.drop 8).take plen
      let mx := (mxFmt fmt).isSome
      let scales := if mx then pay.take 256 else []
      let body := if mx then pay.drop 256 else pay
      let n := jxpElems fmt
      let planes := if zero then some ([], body) else jxpPlanes mask (n / 8) (List.range w) body
      match planes with
      | none => none
      | some (ps, rest) =>
        let used := plen - rest.length
        if (mx ∧ pay.length < 256) ∨ (used + 7) / 8 * 8 != plen then none
        else
          let code := fun (e : Nat) => (ps.zipIdx.foldl (fun a (q : List Byte × Nat) => a + b2n (bit (byteAt q.1 (e / 8)) (e % 8)) * 2 ^ q.2) 0)
          let s := tileShape fmt kaxis
          let codes := (List.range n).map code
          let inside := fun (r k : Nat) => decide (r < hdrRows hdr ∧ k < hdrCols hdr)
          let strayElem := (cells2 s.1 s.2).any fun q => !inside q.1 q.2 && codes.getD (q.1 * s.2 + q.2) 0 != 0
          let lines := if kaxis = 0 then s.1 else s.2
          let strayScale := mx && (List.range 256).any fun i =>
            let line := i / (kt / 32)
            let red := 32 * (i % (kt / 32))
            let (r, k) := if kaxis = 0 then (line, red) else (red, line)
            !(decide (line < lines) && inside r k) && byteAt scales i != 0
          if strayElem || strayScale then none else some (mkTile hdr scales (packElems w codes), bs.drop (8 + plen))

/-- Blocks in order: the tiles decoded, and whether all went well and nothing is left. -/
def jxpBlocks (fmt kaxis : Nat) : Nat → Nat → List Byte → List (List Byte) × Bool
  | 0, _, bs => ([], bs.isEmpty)
  | n + 1, seq, bs =>
    match jxpBlock fmt kaxis seq bs with
    | some (t, rest) => let r := jxpBlocks fmt kaxis n (seq + 1) rest; (t :: r.1, r.2)
    | none => ([], false)

/-- A JXP stream for a job: a bad header, or a FORMAT other than DST_FMT, decodes nothing. -/
def jxpStream (fmt : Nat) (bs : List Byte) : List (List Byte) × Bool :=
  if !jxpHeadOk fmt (bs.take 16) then ([], false) else jxpBlocks fmt (byteAt bs 6 % 2) (leAt bs 8 4) 0 (bs.drop 16)

/-- The pieces that a job writes one after the other from its destination, and whether its source decoded: 512-byte units for COPY, tile slots else. -/
def Dev.jobOutput (d : Dev) (j : Job) : List (List Byte) × Bool :=
  if j.op = 1 then ((List.range (j.srcLen / 512)).map fun i => d.jobBytes j (512 * i) 512, true)
  else if j.op = 2 then
    ((List.range j.tilesDown).flatMap fun a => (List.range j.tilesAcross).map fun b => slotBytes (d.transformTile j a b), true)
  else
    let r := jxpStream j.dstFmt (d.jobBytes j 0 j.srcLen)
    (r.1.map slotBytes, r.2)

/-- Source bytes that a TRANSFORM must have read for tile (a, b). -/
def Job.tileNeeds (j : Job) (a b : Nat) : Nat :=
  let z := if j.srcFmt = 1 then 4 else 2
  ((min ((a + 1) * j.shape.1) j.rows - 1) * j.cols + min ((b + 1) * j.shape.2) j.cols) * z
/-- The pieces that a job has written when its source fails after n good bytes: those made of these bytes alone, in order (R190). -/
def Dev.partOutput (d : Dev) (j : Job) (n : Nat) : List (List Byte) :=
  if j.op = 1 then (List.range (n / 512)).map fun i => d.jobBytes j (512 * i) 512
  else if j.op = 2 then
    (((List.range j.tilesDown).flatMap fun a => (List.range j.tilesAcross).map fun b => (a, b)).takeWhile fun q => j.tileNeeds q.1 q.2 ≤ n).map fun q =>
      slotBytes (d.transformTile j q.1 q.2)
  else (jxpStream j.dstFmt (d.jobBytes j 0 n)).1.map slotBytes

/-! ### The end of a job (R190) -/

/-- Land bytes of a host source in a running job, or in a repair (index 2^32 + 64·entry + region). -/
def Dev.loaderBytes (d : Dev) (p index off : Nat) (data : List Byte) : Dev :=
  let put := fun (m : Store Byte) => data.zipIdx.foldl (fun a (q : Byte × Nat) => sput (fun _ => 0#8) a (off + q.2) q.1) m
  if 2 ^ 32 ≤ index then
    { d with ldr := { d.ldr with repairs := d.ldr.repairs.map fun (r : Repair) =>
      if 64 * r.entry + r.region = index - 2 ^ 32 then { r with src := put r.src, holes := subtractRange off (off + data.length) r.holes } else r } }
  else
    { d with ldr := { d.ldr with jobs := d.ldr.jobs.map fun (j : Job) =>
      if j.part = p ∧ j.index = index ∧ j.kind = 2 then
        { j with src := put j.src, holes := subtractRange off (off + data.length) j.holes, got := j.got + data.length, lastAt := d.ps }
      else j } }

/-- The job of p that LOADER_JOB_END ends: the oldest, and with a good source the oldest whose bytes have all come. -/
def Dev.endingJob (d : Dev) (p : Nat) (srcOk : Bool) : Option Job := d.ldr.jobs.find? fun j => j.part == p && j.status == 1 && (!srcOk || j.holes.isEmpty)

/-- The bytes that a job moved, charged to the partition record (R313). -/
def Dev.chargeOf (d : Dev) (j : Job) (read written : Nat) : Dev :=
  let t1 := (if j.kind = 0 then read else 0) + (if j.dst < t2Base then written else 0)
  let t2 := (if j.kind = 1 then read else 0) + (if t2Base ≤ j.dst then written else 0)
  d.chargeJob j.part t1 t2 (if j.kind = 2 then read else 0)

/-- What forbids the writes of a running job: a JXP stream's destination is known only now, and a range of T2 may have come under reference (R177). -/
def Dev.landCheck (d : Dev) (j : Job) : Option (Nat × Nat × Nat) :=
  if j.op = 3 then d.dstCheck j.part j.dst (d.dstLen j)
  else if t2Base ≤ j.dst ∧ d.t2Refs j.dst (max 1 (d.dstLen j)) != 0 then some (5, cRo, 0x0A11) else none

/-- The region that a JXP stream filled takes its true size when TILE_COUNT is known (R197). -/
def Dev.sizeRegion (d : Dev) (j : Job) : Dev :=
  if j.entry != 0xFFFF ∧ t2Base ≤ j.dst ∧ j.op = 3 then
    match (List.range (d.msRegions j.entry)).find? fun i => d.msRecord j.entry i == j.record.take 48 with
    | some i =>
      let old := d.msSlots j.entry i
      let d1 := d.setNum (msAddr j.entry + 8) 8 (d.num (msAddr j.entry + 8) 8 + d.dstLen j - old * tileBytes)
      { d1 with ldr := { d1.ldr with sizes := sput (fun _ => 0) d1.ldr.sizes (64 * j.entry + i) (d.dstSlots j) } }
    | none => d
  else d

/-- The pieces of a job land in its destination, in order, and the job ends with the STATUS given: DONE counts them. -/
def Dev.landJob (d : Dev) (j : Job) (out : List (List Byte)) (read status : Nat) : Dev :=
  match (if out.isEmpty then none else d.landCheck j) with
  | some (st, cls, cause) => (d.raise { notice cls cause (j.dst % 2 ^ 48) with part := some j.part }).endJob j st 0
  | none =>
    let d1 := (d.setBytes j.dst out.flatten).sizeRegion j
    (d1.chargeOf j read out.flatten.length).endJob j status out.length

/-- A job whose source fails: what it made of the bytes before the failure stays written (R190; log entry 41); an unmapped source address is counted and
recorded (R170). -/
def Dev.failSource (d : Dev) (j : Job) : Dev :=
  let n := d.goodSource j
  let d1 := match (if j.kind ≤ 1 then d.firstUnmapped j.srcAddr j.srcLen else none) with
    | some a => (d.bump Reg.MEM_UNMAPPED 1).raise { notice cConfig 0x0A01 (a % 2 ^ 48) with part := some j.part }
    | none => d
  d1.landJob j (d.partOutput j n) n 3

def opLoaderJobEnd (p : Nat) (srcOk : Bool) (d : Dev) : Dev :=
  match d.endingJob p srcOk with
  | some j =>
    let d0 := if j.kind ≤ 1 then d.meetErrors j.srcAddr j.srcLen else d
    if !srcOk ∨ !d.srcReadable j then d0.failSource j
    else
      let out := d0.jobOutput j
      d0.landJob j out.1 j.srcLen (if out.2 then 2 else 4)
  | none => d

/-- BROADCAST_JOB_TIMEOUT (R376): 100 ms without a byte. -/
def opBroadcastJobTimeout (p : Nat) (d : Dev) : Dev :=
  match d.ldr.jobs.find? fun j => j.part == p && j.kind == 3 && j.status == 1 && j.lastAt + 100 * ms ≤ d.ps && !j.holes.isEmpty with
  | some j => d.failSource j
  | none => d

/-! ### Ring registers (R188, R203) -/

/-- LD_TAIL_WRITE: no effect when the ring would hold more than its length. -/
def opLdTail (v p val : Nat) (d : Dev) : Dev :=
  if d.mayPart v p then
    if (val % 2 ^ 32 + 2 ^ 32 - d.ldHead p) % 2 ^ 32 ≤ 2 ^ d.ldLog p then d.wr (Reg.MEM_LD_TAIL p) (BitVec.ofNat 64 (val % 2 ^ 32)) else d
  else d

/-- LD_BASE_WRITE: a BASE that is no multiple of 64 in T1 has no effect (log entry 42). -/
def opLdBase (v p : Nat) (val : Word) (d : Dev) : Dev :=
  let base := fget val Fld.MEM_LD_BASE_BASE
  if d.sealed p then d.lockRec v p (Reg.MEM_LD_BASE p)
  else if (v = 0 ∨ v = p + 1) ∧ !(d.ldr.jobs.any fun j => j.part == p) ∧ base % 64 = 0 ∧ (base = 0 ∨ (t1Base ≤ base ∧ base < t1End)) then
    let w := fset (fset 0 Fld.MEM_LD_BASE_BASE base) Fld.MEM_LD_BASE_LOG2N (fget val Fld.MEM_LD_BASE_LOG2N)
    let d1 := ((d.wr (Reg.MEM_LD_BASE p) w).wr (Reg.MEM_LD_TAIL p) 0).wr (Reg.MEM_LD_HEAD p) 0
    { d1 with ldr := { d1.ldr with ended := d1.ldr.ended.filter fun q => q.1 != p } }
  else d

/-! ### Model-store commands (R198) -/

def Dev.msResult (d : Dev) (p e h r : Nat) : Dev :=
  d.upd [(Reg.MEM_MS_CMD p, Fld.MEM_MS_CMD_ENTRY, e), (Reg.MEM_MS_CMD p, Fld.MEM_MS_CMD_HANDLE, h), (Reg.MEM_MS_CMD p, Fld.MEM_MS_CMD_RESULT, r),
    (Reg.MEM_MS_CMD p, Fld.MEM_MS_CMD_OP, 0)]
/-- The HANDLE that the last write of MEM_MS_CMD[p] stored: CREATE and DELETE name none. -/
def Dev.msHandle (d : Dev) (p : Nat) : Nat := d.rf (Reg.MEM_MS_CMD p) Fld.MEM_MS_CMD_HANDLE
def msDone : Nat := 2
def msRefused : Nat := 3

def opMsCreate (v p e : Nat) (d : Dev) : Dev :=
  if !d.mayPart v p then d
  else if d.t2Here ∧ d.partUsable p ∧ d.msState e = msFree then
    ((((d.setBytes (msAddr e) (zeros 4096)).setNum (msAddr e) 1 msLoading).setNum (msAddr e + 1) 1 p)).msResult p e (d.msHandle p) msDone
  else d.msResult p e (d.msHandle p) msRefused

def opMsSeal (v p e h : Nat) (d : Dev) : Dev :=
  if !d.mayPart v p then d
  else
    match d.img? p h with
    | some i =>
      if d.t2Here ∧ d.msOwned p e ∧ d.msState e = msLoading then
        let dig := d.bytes (i.addr + 64) 64
        (((d.setBytes (msAddr e + 64) dig).setNum (msAddr e) 1 msResident).wr (Reg.MEM_MS_DIG e) (BitVec.ofNat 64 (leAt dig 0 8))).msResult p e h msDone
      else d.msResult p e h msRefused
    | none => d.msResult p e h msRefused

/-- The entry becomes FREE; its T2 bytes stay. -/
def Dev.freeEntry (d : Dev) (e : Nat) : Dev :=
  let d1 := (d.setBytes (msAddr e) (zeros 4096)).wr (Reg.MEM_MS_DIG e) 0
  { d1 with ldr := { d1.ldr with sizes := d1.ldr.sizes.filter (fun q => q.1 / 64 != e), repairs := d1.ldr.repairs.filter (fun r => r.entry != e) } }

def opMsDelete (v p e : Nat) (d : Dev) : Dev :=
  if !d.mayPart v p then d
  else if d.t2Here ∧ d.msOwned p e ∧ d.msRefs e = 0 then (d.freeEntry e).msResult p e (d.msHandle p) msDone
  else d.msResult p e (d.msHandle p) msRefused

/-! ### Patrol (R200) -/

/-- One slot of the patrol's walk: its place, its address, its partition, and the region, none for a block. -/
structure PatrolSlot where
  key : PatrolKey
  addr : Nat
  part : Nat
  region : Option (Nat × Nat)
  deriving DecidableEq, Repr

/-- Does place x come before place y in the walk? -/
def PatrolKey.before (x y : PatrolKey) : Bool :=
  x.kind < y.kind || (x.kind == y.kind && (x.owner < y.owner || (x.owner == y.owner && (x.pos < y.pos || (x.pos == y.pos && x.slot < y.slot)))))

/-- Does the block at a place of a handle's chain rest in T2: its demotion has ended, and its promotion has not? -/
def Dev.restsT2 (d : Dev) (i : Nat) (h : Handle) (pos : Nat) : Bool :=
  match h.st with
  | .demoting | .demoted => true
  | .promoting => h.blocks.length ≤ pos || d.srv.copies.any fun x => x.handle == i && x.pos == pos
  | _ => false

/-- The walk: the regions of RESIDENT and DAMAGED entries, then the frozen blocks that rest in T2. -/
def Dev.patrolWalk (d : Dev) : List PatrolSlot :=
  (((List.range 512).filter fun e => d.t2Here && (d.msState e == msResident || d.msState e == msDamaged)).flatMap fun e =>
    (List.range (d.msRegions e)).flatMap fun i => (List.range (d.msSlots e i)).map fun k =>
      ⟨⟨0, 64 * e + i, 0, k⟩, d.msDst e i + tileBytes * k, d.msPart e, some (e, i)⟩) ++
  d.srv.handles.flatMap fun (q : Nat × Handle) =>
    (q.2.copies.filter fun b => d.restsT2 q.1 q.2 b.1).flatMap fun b =>
      (List.range 8).map fun k => ⟨⟨1, q.1, b.1, k⟩, b.2 + tileBytes * k, q.2.part, none⟩

/-- The slot of the walk that the patrol checks next: the first one from its place on. A slot that joins or leaves the walk elsewhere moves no other. -/
def Dev.patrolNext (d : Dev) : Option PatrolSlot :=
  (d.patrolWalk.filter fun s => !s.key.before d.ldr.patrolAt).foldl (fun b s => match b with | some t => if s.key.before t.key then some s else b | none => some s) none
/-- Does the walk end with a slot? -/
def Dev.patrolLast (d : Dev) (s : PatrolSlot) : Bool := !d.patrolWalk.any fun t => s.key.before t.key
/-- A pass ends. -/
def Dev.endPass (d : Dev) : Dev :=
  let d1 := (d.wf Reg.MEM_PATROL_STAT Fld.MEM_PATROL_STAT_TILES 0).addf Reg.MEM_PATROL_STAT Fld.MEM_PATROL_STAT_PASSES 1
  { d1 with ldr := { d1.ldr with patrolAt := ⟨0, 0, 0, 0⟩ } }

/-- Steps 1 and 2 of R103 on a stored slot. -/
def Dev.slotOk (d : Dev) (a : Nat) : Bool := let t := d.bytes a tileWire; tileCrcOk t && hdrValid (hdrOf t)

/-- Ask for the repair of a region; one that waits already is not asked for twice. -/
def Dev.requestRepair (d : Dev) (e i a : Nat) : Dev :=
  if d.ldr.repairs.any fun r => r.entry == e && r.region == i then d
  else
    let j : Job := ⟨d.msPart e, 2 ^ 32 + 64 * e + i, d.msRecord e i ++ zeros 16, [], 0, 1, [], 0, none, d.ps⟩
    let host := j.kind == 2 && j.srcLen != 0
    let d1 : Dev := { d with ldr := { d.ldr with repairs := d.ldr.repairs ++ [⟨e, i, a, [], if host then [(0, j.srcLen)] else []⟩] } }
    if host then d1.readSource j (2 ^ 32 + 64 * e + i) else d1

/-- PATROL_SLOT_CHECK. A pass whose last slots have left the walk ends without one. -/
def opPatrolSlot (d : Dev) : Dev :=
  if d.rf Reg.MEM_PATROL_CTL Fld.MEM_PATROL_CTL_ENABLE = 1 then
    match d.patrolNext with
    | some s =>
      let d1 : Dev := { d with ldr := { d.ldr with patrolAt := { s.key with slot := s.key.slot + 1 } } }
      let d2 := (if d.patrolLast s then d1.endPass else d1.addf Reg.MEM_PATROL_STAT Fld.MEM_PATROL_STAT_TILES 1).meetErrors s.addr tileBytes
      if d.slotOk s.addr then d2
      else
        let d3 := (d2.raise { notice cTileCheck 0x0A03 s.addr with part := some s.part }).addf Reg.MEM_PATROL_LAST Fld.MEM_PATROL_LAST_FAILS 1
        let d4 := d3.wf Reg.MEM_PATROL_LAST Fld.MEM_PATROL_LAST_ADDR s.addr
        match s.region with
        | some (e, i) => d4.requestRepair e i s.addr
        | none => d4
    | none => if d.ldr.patrolAt = ⟨0, 0, 0, 0⟩ then d else d.endPass
  else d

/-! ### Repair (R201) -/

/-- Compare the re-derived slots with the stored ones, from address a on: rewrite those that fail their check; stop at one that passes and differs. The
answer is the device and, when it stopped, the address. -/
def repairSlots : Nat → List (List Byte) → Dev → Dev × Option Nat
  | _, [], d => (d, none)
  | a, t :: ts, d =>
    if d.slotOk a then (if d.bytes a tileBytes = t then repairSlots (a + tileBytes) ts d else (d, some a))
    else repairSlots (a + tileBytes) ts (d.setBytes a t)

/-- Cut bytes into whole tile slots. -/
def cutSlots (bs : List Byte) : List (List Byte) := (List.range (bs.length / tileBytes)).map fun k => (bs.drop (tileBytes * k)).take tileBytes

/-- A loop that waited in HELD goes on, or is HALTED (R255). -/
def Dev.endHold (d : Dev) (h : Hold) (lost : Bool) : Dev :=
  (List.range 64).foldl (fun (e : Dev) c =>
    if e.phase c = phHeld ∧ (e.att c).hold = some h then
      let e1 := (e.modAtt c fun a => { a with hold := none }).setPhase c phIdle
      match e.partOfCtx c with
      | some p =>
        if lost then
          let code := e.rf (Reg.STEP_ABORT c) Fld.STEP_ABORT_CAUSE
          e1.halt p c code (e.rf (Reg.STEP_ABORT c) Fld.STEP_ABORT_FCAUSE) code
        else e1
      | none => e1
    else e) d

def opRepairEnd (srcOk : Bool) (d : Dev) : Dev :=
  match d.ldr.repairs with
  | r :: rest =>
    if srcOk ∧ !r.holes.isEmpty then d
    else
      let j : Job := ⟨d.msPart r.entry, 0, d.msRecord r.entry r.region ++ zeros 16, r.src, 0, 1, [], 0, none, d.ps⟩
      let d1 : Dev := { d with ldr := { d.ldr with repairs := rest } }
      let res : Dev × Option Nat :=
        if !srcOk ∨ j.kind = 3 ∨ !d.srcReadable j then (d1, some r.addr)
        else
          let out := d.jobOutput j
          let z := repairSlots j.dst (cutSlots out.1.flatten) d1
          if out.2 then z else (z.1, some (z.2.getD r.addr))
      match res.2 with
      | none => res.1.endHold (.repair r.entry r.region) false
      | some a =>
        let d2 := (res.1.setNum (msAddr r.entry) 1 msDamaged).raise { notice cTileCheck 0x0A04 (r.entry * 2 ^ 48 + a) with part := some j.part }
        d2.endHold (.repair r.entry r.region) true
  | [] => d

/-! ### The commands -/

def execLoaderCopy (p : PartIdx) (s : State) : Host.Outcome State Fault Refusal := done s (opLoaderStart 1 p s.dev)
def execLoaderTransform (p : PartIdx) (s : State) : Host.Outcome State Fault Refusal := done s (opLoaderStart 2 p s.dev)
def execLoaderJxp (p : PartIdx) (s : State) : Host.Outcome State Fault Refusal := done s (opLoaderStart 3 p s.dev)
def execLoaderJobEnd (p : PartIdx) (srcOk : Bool) (s : State) : Host.Outcome State Fault Refusal := done s (opLoaderJobEnd p srcOk s.dev)
def execBroadcastJobTimeout (p : PartIdx) (s : State) : Host.Outcome State Fault Refusal := done s (opBroadcastJobTimeout p s.dev)
def execLdTailWrite (v : View) (p : PartIdx) (val : Word) (s : State) : Host.Outcome State Fault Refusal := hostDone s (Reg.MEM_LD_TAIL p) (opLdTail v p val.toNat)
def execLdBaseWrite (v : View) (p : PartIdx) (val : Word) (s : State) : Host.Outcome State Fault Refusal := hostDone s (Reg.MEM_LD_BASE p) (opLdBase v p val)
def execMsCreate (v : View) (p : PartIdx) (e : Fin 512) (s : State) : Host.Outcome State Fault Refusal := hostDone s (Reg.MEM_MS_CMD p) (opMsCreate v p e)
def execMsSeal (v : View) (p : PartIdx) (e : Fin 512) (h : Fin 16) (s : State) : Host.Outcome State Fault Refusal := hostDone s (Reg.MEM_MS_CMD p) (opMsSeal v p e h)
def execMsDelete (v : View) (p : PartIdx) (e : Fin 512) (s : State) : Host.Outcome State Fault Refusal := hostDone s (Reg.MEM_MS_CMD p) (opMsDelete v p e)
def execPatrolSlotCheck (s : State) : Host.Outcome State Fault Refusal := done s (opPatrolSlot s.dev)

end Sys2Proof.Machine
end

