-- ==== Sys2Proof/Machine/Time.lean ====
section
/-!
DEFINITION. System time (R405, R406) and Firefly (R407 to R414).
-/
namespace Sys2Proof.Machine

/-- SYSTIME with its fraction, in units of 2^-16 tick. -/
def Dev.time16 (d : Dev) : Nat := d.sysTime.toNat * 65536 + d.tim.frac / 2 ^ 24

/-! ### FIREFLY payloads (Table 13-5) -/

/-- The payload fields that an exchange uses. -/
structure Firefly where
  typ : Nat
  scope : Nat
  seq : Nat
  t1 : Nat
  t2 : Nat
  t3 : Nat
  hops : Nat
  flags : Nat
  colonyU : Nat
  swarmU : Nat
  master : Nat
  trim : Nat
  deriving DecidableEq, Repr

/-- Read a payload; times come back in units of 2^-16 tick. -/
def fireflyOf (b : List Byte) : Firefly :=
  ⟨byteAt b 0, byteAt b 1, leAt b 2 2, leAt b 8 8 * 65536 + leAt b 32 2, leAt b 16 8 * 65536 + leAt b 34 2,
    leAt b 24 8 * 65536 + leAt b 36 2, byteAt b 38, byteAt b 39, leAt b 40 4, leAt b 44 4, leAt b 48 4, leAt b 52 4⟩

/-- The node ID that this device names as its colony master: its own when it is the master, else its parent's. -/
def Dev.masterNode (d : Dev) : Nat :=
  if d.colonyMaster then d.node
  else
    match sget (fun _ => none) d.tim.replies (d.rf Reg.TIME_STAT Fld.TIME_STAT_PARENT - 1) with
    | some r => r.master
    | none => d.node

/-- A payload of this device. -/
def Dev.fireflyBytes (d : Dev) (typ scope seq t1 t2 t3 : Nat) : List Byte :=
  toLe 1 typ ++ toLe 1 scope ++ toLe 2 seq ++ zeros 4 ++ toLe 8 (t1 / 65536) ++ toLe 8 (t2 / 65536) ++ toLe 8 (t3 / 65536) ++
  toLe 2 t1 ++ toLe 2 t2 ++ toLe 2 t3 ++ toLe 1 (d.rf Reg.TIME_STAT Fld.TIME_STAT_HOPS) ++
  toLe 1 (b2n d.colonyMaster + 2 * b2n d.swarmMaster + 4 * b2n d.unsure + 8 * b2n (d.timeState == 2)) ++
  toLe 4 (min d.colonyU 0xFFFFFFFF) ++ toLe 4 (min d.swarmU 0xFFFFFFFF) ++ toLe 4 d.masterNode ++
  toLe 4 (d.rd Reg.TIME_TRIM).toNat ++ zeros 8

/-! ### Sending -/

/-- The swarm master's node ID, where the persistent word names one (R410). -/
def Dev.swarmNode (d : Dev) : Option Nat :=
  if fget (d.effWord 9) Fld.PSR_FIREFLY_VALID = 1 then some (fget (d.effWord 9) Fld.PSR_FIREFLY_MASTER) else none

/-- Send a REQUEST on a path: 0 RING_A, 1 RING_B, 2 brood link, 3 fabric. T1 is remembered until the reply. -/
def Dev.sendRequest (d : Dev) (path scope : Nat) : Dev :=
  let seq := d.tim.nextSeq % 65536
  let t := d.time16
  let b := d.fireflyBytes 1 scope seq t 0 0
  let d1 : Dev := { d with tim := { d.tim with
    nextSeq := d.tim.nextSeq + 1, sent := ⟨path, seq, t / 65536, t % 65536⟩ :: d.tim.sent.filter (fun s => s.path != path) } }
  let d2 := if d1.timeState = 0 then d1.wf Reg.TIME_STAT Fld.TIME_STAT_STATE 1 else d1
  if path < 2 then d2.ringSend path 0x30 { d2.ringFrame 0xFF b with up := path == 0 }
  else if path = 2 then
    match d.lnk.lead with
    | some q => d2.send 0x61 (d.posNode q) { frEmpty with payload := b }
    | none => d
  else
    match d.swarmNode with
    | some n => d2.send 0x61 n { frEmpty with payload := b }
    | none => d

/-! ### Masters and parents (R408, R409) -/

/-- Replies of ring neighbours on UP ports within the last 3 ms, with their port. A ring has at most 128 devices, so a reply that names a master farther away
names one that has left (log entry 61). -/
def Dev.freshReplies (d : Dev) : List (Nat × FfReply) :=
  [0, 1].filterMap fun a =>
    match sget (fun _ => none) d.tim.replies a with
    | some r => if d.ringState a = rUp ∧ d.ps ≤ r.at_ + 3 * ms ∧ r.hops < 128 then some (a, r) else none
    | none => none

/-- The COLONY_U that a neighbour would give. -/
def Dev.gives (d : Dev) (r : FfReply) : Nat := r.colonyU + d.rf Reg.TIME_CFG Fld.TIME_CFG_HOP_U

/-- Is one reply a better parent than another: lower COLONY_U, then fewer HOPS, then RING_A? -/
def betterReply (x y : Nat × FfReply) : Bool :=
  x.2.colonyU < y.2.colonyU || (x.2.colonyU == y.2.colonyU && (x.2.hops < y.2.hops || (x.2.hops == y.2.hops && x.1 < y.1)))

/-- The best of a list of replies. -/
def bestReply : List (Nat × FfReply) → Option (Nat × FfReply)
  | [] => none
  | x :: xs =>
    match bestReply xs with
    | some y => if betterReply y x then some y else some x
    | none => some x

/-- The lowest ring order named as master by this device and its neighbours. -/
def Dev.bestOrder (d : Dev) : Nat := d.freshReplies.foldl (fun m r => min m (ringOrder r.2.master)) (ringOrder d.node)

/-- Has the present parent become more than 1 ns worse than what the device had of it: since when, with the COLONY_U it had before? -/
def Dev.noteWorse (d : Dev) : Dev :=
  match d.freshReplies.find? (fun q => q.1 + 1 == d.rf Reg.TIME_STAT Fld.TIME_STAT_PARENT) with
  | some q =>
    let had := match d.tim.badSince with | some _ => d.tim.goodU | none => d.colonyU
    if had + 1000 < d.gives q.2 then { d with tim := { d.tim with badSince := some (d.tim.badSince.getD d.ps), goodU := had } }
    else { d with tim := { d.tim with badSince := none } }
  | none => { d with tim := { d.tim with badSince := none } }

/-- Choose mastership and the parent; the master keeps its time and SWARM_U, has no parent and COLONY_U 0; the swarm master takes no parent (R406). A device that leaves mastership does not
step at its next result (R409). A parent that has become more than 1 ns worse is left only 3 ms later (R408). Without a reply of any neighbour a device holds what it has. -/
def Dev.chooseParent (d : Dev) : Dev :=
  let best := d.bestOrder
  let swarm := d.role == 3 && d.swarmNode == some d.node
  if d.freshReplies.isEmpty && ringOrder d.node != 0 then d
  else if d.inserted && best == ringOrder d.node then
    let e := (d.upd [(Reg.TIME_STAT, Fld.TIME_STAT_COLONY_MASTER, 1), (Reg.TIME_STAT, Fld.TIME_STAT_SWARM_MASTER, b2n swarm),
      (Reg.TIME_STAT, Fld.TIME_STAT_PARENT, if d.role == 3 && !swarm then 3 else 0), (Reg.TIME_STAT, Fld.TIME_STAT_HOPS, 0)])
    if d.colonyMaster then e
    else { e with tim := { e.tim with colonyBase := 0, colonyAt := d.ps, swarmBase := d.swarmU, swarmAt := d.ps, swarmHeard := d.ps, swarmEx := [] } }
  else
    let d0 : Dev := if d.colonyMaster then { d with tim := { d.tim with accepted := true } } else d
    if swarm then
      d0.upd [(Reg.TIME_STAT, Fld.TIME_STAT_COLONY_MASTER, 0), (Reg.TIME_STAT, Fld.TIME_STAT_SWARM_MASTER, 1), (Reg.TIME_STAT, Fld.TIME_STAT_PARENT, 0)]
    else
      let d1 := (d0.upd [(Reg.TIME_STAT, Fld.TIME_STAT_COLONY_MASTER, 0), (Reg.TIME_STAT, Fld.TIME_STAT_SWARM_MASTER, 0)]).noteWorse
      match bestReply (d1.freshReplies.filter fun r => ringOrder r.2.master == best) with
      | some (a, r) =>
        let held : Bool := match d1.tim.badSince with | some t => decide (d1.ps < t + 3 * ms) | none => false
        if d1.rf Reg.TIME_STAT Fld.TIME_STAT_PARENT ≠ a + 1 ∧ held then d1
        else
          let moved := d1.rf Reg.TIME_STAT Fld.TIME_STAT_PARENT != a + 1
          let d2 := d1.upd [(Reg.TIME_STAT, Fld.TIME_STAT_PARENT, a + 1), (Reg.TIME_STAT, Fld.TIME_STAT_HOPS, min 255 (r.hops + 1))]
          if moved then { d2 with tim := { d2.tim with badSince := none } } else d2
      | none => d1

/-- Periods: colony 1 ms, brood 100 µs, swarm 10 ms. Each round of the colony also takes stock of the replies. -/
def opFireflySend (scope : Nat) (d : Dev) : Dev :=
  let last := sget (fun _ => 0) d.tim.reqAt scope
  let due (n : Nat) : Bool := last + n ≤ d.ps
  let mark (e : Dev) : Dev := { e with tim := { e.tim with reqAt := sput (fun _ => 0) e.tim.reqAt scope d.ps } }
  if scope = 1 then
    if d.inserted && due ms then
      let e := (mark ([0, 1].foldl (fun e a => if e.ringState a = rUp then e.sendRequest a 1 else e) d)).chooseParent
      if e.colonyMaster then { e with tim := { e.tim with colonyBase := 0, colonyAt := d.ps } } else e
    else d
  else if scope = 0 then
    if d.formed && !d.isLead && due (100 * us) then mark (d.sendRequest 2 0) else d
  else
    if d.role = 3 && d.colonyMaster && !d.swarmMaster && due (10 * ms) then mark (d.sendRequest 3 2) else d

/-! ### Accepted results (R406) -/

/-- May the step that RESYNC asks for be made now: no slot ARMED, READY or HELD, no attempt executing? -/
def Dev.mayStep (d : Dev) : Bool :=
  !((List.range 32).any fun n =>
    let s := d.rf (Reg.TIME_LAUNCH_STAT n) Fld.TIME_LAUNCH_STAT_STATE
    s == 1 || s == 2 || s == 3) &&
  !((List.range 64).any fun c => d.executing c || d.phase c == phCommit)

/-- A result from the device's parent: the first since reset, and one that RESYNC waits for, step SYSTIME; any other is slewed. The offset is in units
of 2^-17 tick, to be added to SYSTIME. -/
def Dev.acceptResult (d : Dev) (off : Int) : Dev :=
  let resync := (d.rd Reg.TIME_CTL).toNat % 2 == 1 && d.mayStep
  let d1 := d.wf Reg.TIME_STAT Fld.TIME_STAT_STATE 2
  if !d.tim.accepted || resync then
    let t : Int := (d.time16 : Int) * 2 + off
    let t' := t.toNat
    let d2 := d1.wr Reg.TIME_SYSTIME (BitVec.ofNat 64 (t' / 2 ^ 17))
    let d3 : Dev := { d2 with tim := { d2.tim with accepted := true, slew := 0, frac := t' % 2 ^ 17 * 2 ^ 23, adj := d2.tim.adj + off * 2 ^ 23 } }
    if resync then d3.wr Reg.TIME_CTL 0 else d3
  else { d1 with tim := { d1.tim with slew := off * 2 ^ 23 } }

/-- A signed 64-bit value of an integer. -/
def word64 (i : Int) : Word := BitVec.ofInt 64 i

/-- The correction of PSR_FF_CAL for a ring port, from ps to 2^-17 tick. -/
def Dev.ringCal (d : Dev) (a : Nat) : Int :=
  let raw := fget (d.effWord 10) (if a = 0 then Fld.PSR_FF_CAL_RING_A else Fld.PSR_FF_CAL_RING_B)
  (BitVec.ofNat 16 raw).toInt * 2 ^ 17 / 800

/-- A colony REPLY on ring port a. -/
def Dev.colonyReply (d : Dev) (a : Nat) (f : Firefly) (off : Int) : Dev :=
  let r : FfReply := ⟨d.ps, f.hops, f.flags, f.colonyU, f.swarmU, f.master, f.trim, off⟩
  let d1 : Dev := { d with tim := { d.tim with replies := sput (fun _ => none) d.tim.replies a (some r) } }
  let d2 := d1.chooseParent
  if d2.colonyMaster ∨ d2.swarmMaster then
    if d2.role = 3 ∧ !d2.swarmMaster then d2 else d2.wf Reg.TIME_STAT Fld.TIME_STAT_STATE 2
  else if d2.rf Reg.TIME_STAT Fld.TIME_STAT_PARENT = a + 1 then
    let d3 : Dev := { d2 with tim := { d2.tim with
      colonyBase := d2.gives r, colonyAt := d2.ps, swarmBase := f.swarmU + (d2.gives r - f.colonyU), parentUnsure := bit f.flags 2 } }
    (d3.acceptResult off).wf Reg.TIME_TRIM ⟨0, 32⟩ f.trim
  else d2

/-- A swarm REPLY at a colony master (R410). The offset of an earlier exchange is less what SYSTIME has been corrected since. -/
def Dev.swarmReply (d : Dev) (rtt : Nat) (off : Int) : Dev :=
  let this := (rtt, off * 2 ^ 23 + d.tim.adj, d.ps)
  let ex := (this :: d.tim.swarmEx).take 8
  let sel := ex.foldl (fun (b : Nat × Int × Nat) e => if e.1 < b.1 then e else b) this
  let rmin := min rtt (d.tim.rttMin.getD rtt)
  let base := (sel.1 - rmin) * 800 / 2 ^ 17 + d.rf Reg.TIME_CFG Fld.TIME_CFG_FAB_ASYM * 1000
  let d1 : Dev := { d with tim := { d.tim with swarmEx := ex, rttMin := some rmin, swarmBase := base, swarmAt := sel.2.2, swarmHeard := d.ps } }
  let trend : Int := match ex.getLast? with
    | some old => if ex.length = 8 ∧ old.2.2 < d.ps then (this.2.1 - old.2.1) * 800 / ((d.ps - old.2.2 : Nat) : Int) else 0
    | none => 0
  let trim := (BitVec.ofNat 32 (d.rd Reg.TIME_TRIM).toNat).toInt + trend
  (d1.acceptResult ((sel.2.1 - d.tim.adj) / 2 ^ 23)).wf Reg.TIME_TRIM ⟨0, 32⟩ (BitVec.ofInt 32 trim).toNat

/-- A brood REPLY (R411): TIME_BROOD_OFS is own time minus the lead's; with role BROOD SYSTIME follows the lead. -/
def Dev.broodReply (d : Dev) (off : Int) : Dev :=
  let d1 := d.wr Reg.TIME_BROOD_OFS (word64 (-(off * 800 / 2 ^ 17)))
  if d.role = 1 then ({ d1 with tim := { d1.tim with colonyAt := d.ps } }.acceptResult off).wf Reg.TIME_STAT Fld.TIME_STAT_PARENT 3 else d1

/-! ### Receiving -/

/-- A REQUEST is answered on the path it came by, with T2, T3 and this device's state. -/
def Dev.answerRequest (d : Dev) (m : FireflyMsg) : Dev :=
  match m with
  | .ring a x =>
    let f := fireflyOf x.payload
    let b := d.fireflyBytes 2 f.scope f.seq f.t1 d.time16 d.time16
    d.ringSend a 0x30 { d.ringFrame 0xFF b with up := a.val == 0 }
  | .frarax x =>
    let f := fireflyOf x.payload
    d.send 0x61 x.src.toNat { frEmpty with payload := d.fireflyBytes 2 f.scope f.seq f.t1 d.time16 d.time16 }

/-- A REPLY completes the exchange that it answers. -/
def Dev.takeReply (d : Dev) (path : Nat) (b : List Byte) : Dev :=
  let f := fireflyOf b
  match d.tim.sent.find? (fun s => s.path == path && s.seq == f.seq && s.t1 * 65536 + s.t1f == f.t1) with
  | some s =>
    let t4 := d.time16
    let off : Int := ((f.t2 : Int) - f.t1) - ((t4 : Int) - f.t3)
    let rtt := (t4 - f.t1) - (f.t3 - f.t2)
    let d1 : Dev := { d with tim := { d.tim with sent := d.tim.sent.erase s } }
    if path < 2 then d1.colonyReply path f (off + d.ringCal path)
    else if path = 2 then d1.broodReply off
    else if d1.role = 3 ∧ d1.colonyMaster ∧ !d1.swarmMaster then d1.swarmReply rtt off else d1
  | none => d

def opFireflyRequest (m : FireflyMsg) (d : Dev) : Dev :=
  match m with
  | .ring a x => let r := d.ringTake a 0x30 x; if r.1 then r.2.answerRequest m else r.2
  | .frarax x => if frOk 0x61 x then d.answerRequest m else d.badPkt

def opFireflyReply (m : FireflyMsg) (d : Dev) : Dev :=
  match m with
  | .ring a x => let r := d.ringTake a 0x30 x; if r.1 then r.2.takeReply a x.payload else r.2
  | .frarax x => if frOk 0x61 x then d.takeReply (if byteAt x.payload 1 = 0 then 2 else 3) x.payload else d.badPkt

/-- No parent reply for 3 ms, or no swarm reply for 30 ms at a master: HOLDOVER (R412). -/
def opParentTimeout (d : Dev) : Dev :=
  if d.timeState = 2 then
    let late :=
      if d.colonyMaster then d.role == 3 && !d.swarmMaster && d.tim.swarmHeard + 30 * ms ≤ d.ps
      else if 1 ≤ d.role then d.tim.colonyAt + 3 * ms ≤ d.ps
      else false
    if late then d.chooseParent.wf Reg.TIME_STAT Fld.TIME_STAT_STATE 3 else d
  else d

/-- Does the device take no parent, so that RESYNC has nothing to wait for (R406)? -/
def Dev.noParent (d : Dev) : Bool :=
  d.role == 0 || (d.role == 1 && (!d.formed || d.isLead)) || (d.role == 2 && d.colonyMaster) || d.swarmMaster

def opResync (v : Nat) (d : Dev) : Dev := if v = 0 ∧ !d.noParent then d.wr Reg.TIME_CTL 1 else d

/-- An IEEE 1588 result on a MGMT port: the time of day now, in ns (R414). -/
def opPtp (e : Nat) (tod : Word) (d : Dev) : Dev :=
  if bit (d.hpRoles e) 2 ∧ d.hpState e = 3 then d.wr Reg.TIME_TOD_OFS (tod - BitVec.ofNat 64 (d.sysTime.toNat * 4 / 5)) else d

/-! ### One tick of 0.8 ns -/

/-- The largest slew of one tick: 200 ppm in units of 2^-40 tick. -/
def slewMax : Int := 219902325

/-- SYSTIME advances by one tick, adjusted by TRIM and slew (R405, R406); it never decreases. -/
def Dev.advanceTime (d : Dev) : Dev :=
  let s := max (-slewMax) (min slewMax d.tim.slew)
  let trim := (BitVec.ofNat 32 (d.rd Reg.TIME_TRIM).toNat).toInt
  let f := ((d.tim.frac : Int) + 2 ^ 40 + trim + s).toNat
  let d1 := d.wr Reg.TIME_SYSTIME (d.sysTime + BitVec.ofNat 64 (f / 2 ^ 40))
  { d1 with tim := { d1.tim with frac := f % 2 ^ 40, slew := d.tim.slew - s, adj := d.tim.adj + s } }

/-! ### The commands -/

def execFireflySendTimer (scope : Fin 3) (s : State) : Host.Outcome State Fault Refusal := done s (opFireflySend scope s.dev)
def execFireflyRequest (m : FireflyMsg) (s : State) : Host.Outcome State Fault Refusal := done s (opFireflyRequest m s.dev)
def execFireflyReply (m : FireflyMsg) (s : State) : Host.Outcome State Fault Refusal := done s (opFireflyReply m s.dev)
def execParentTimeout (s : State) : Host.Outcome State Fault Refusal := done s (opParentTimeout s.dev)
def execResync (v : View) (s : State) : Host.Outcome State Fault Refusal := hostDone s Reg.TIME_CTL (opResync v)
def execPtpMessage (e : HostPort) (tod : Word) (s : State) : Host.Outcome State Fault Refusal := done s (opPtp e tod s.dev)

end Sys2Proof.Machine
end

