-- ==== Sys2Proof/Machine/Reset.lean ====
section
/-!
DEFINITION. Resets (R443, R444, R456), the loss of the main rails (R445), and what leaves the device when it goes: WITHDRAW (Table 11-6) and the
end of every attempt.
-/
namespace Sys2Proof.Machine

/-- A WITHDRAW on every UP brood link and fabric port: 1 chrysalis state, 2 thermal trip, 3 reset. -/
def Dev.withdrawAll (d : Dev) (why : Nat) : Dev :=
  (List.range 19).foldl (fun e l =>
    if portState e l = 3 then
      let dst := match (e.port l).hello with | some h => fget h.node Fld.GLB_NODE_NODE_ID | none => 0
      let x : FrPkt := { frEmpty with
        dst := BitVec.ofNat 18 dst, src := BitVec.ofNat 18 e.node, session := BitVec.ofNat 16 e.lnk.session, arg := mkArg [(33, 1, why)] }
      e.putPort l 0x03 { x with hcrc := BitVec.ofNat 32 (frCrc 0x03 x) }
    else e) d

/-- Every executing attempt of the device aborts with one cause. -/
def Dev.abortAll (d : Dev) (a : AbortInfo) : Dev :=
  (List.range 64).foldl (fun e c =>
    match e.partOfCtx c with
    | some p => if e.executing c then e.abortCtx p c a else e
    | none => e) d

/-- Does any attempt execute? -/
def Dev.anyExecuting (d : Dev) : Bool := (List.range 64).any fun c => d.executing c

/-- The levels of the inputs show again after the registers are reset: the by-pass rests or moves to rest, BYPASS_N, THROT_IN_N. -/
def Dev.senseInputs (d new : Dev) : Dev :=
  let n1 := new.upd [(Reg.LNK_RING_STAT, Fld.LNK_RING_STAT_SWITCH, if d.rf Reg.LNK_RING_STAT Fld.LNK_RING_STAT_SWITCH = 0 then 0 else 1),
    (Reg.LNK_RING_STAT, Fld.LNK_RING_STAT_BYPASS_N, b2n d.ring.bypassLow)]
  { n1 with ring := { n1.ring with bypassLow := d.ring.bypassLow } }

/-- The main rails go: every die but MG loses all it holds, every attempt ends without a commit, and the switch drive is gone. -/
def Dev.powerDown (d : Dev) : Dev :=
  let z := Dev.powerOn
  let d1 : Dev := { d with
    regs := d.regs.filter (fun q => !mainHomed q.1), mem := [], fab := z.fab, routers := [], turns := [], img := z.img, ldr := z.ldr, srv := z.srv, xpt := z.xpt, sch := z.sch,
    lnk := { z.lnk with session := d.lnk.session }, ring := z.ring, hp := [], qps := [],
    clk := { z.clk with lost := d.clk.lost } }
  let d2 := (List.range 16).foldl (fun e k => e.wr (Reg.CLK_COMB_PS k) 0) d1
  d.senseInputs (d2.upd [(Reg.GLB_LEVEL, Fld.GLB_LEVEL_BROOD, 0), (Reg.GLB_LEVEL, Fld.GLB_LEVEL_BROOD_MEMBERS, 0)])

/-- A reset with a cause of Table 15-1: every register that does not persist takes its reset value; BOOT_FAIL and the fault log are kept except by
POWER_ON and PORST_N; persistent words, wear, firmware slots and the levels of the inputs stay, but a slot whose write was in progress has no header. Without
CLKIN the device stays held in reset (R393). The attempt number follows R456. A tripped device
leaves only by POWER_ON or PORST_N (R437), the chrysalis state only by power, PORST_N or BOOT_CMD RESET (R481). -/
def Dev.restart (d : Dev) (cause : Nat) : Dev :=
  if d.pwr.trip ∧ 2 ≤ cause then d
  else if d.chrysalis ∧ 4 ≤ cause then d
  else
    let d0 := if cause = 3 ∨ (5 ≤ cause ∧ cause ≤ 7) then (d.withdrawAll 3).ringRemove else d
    let keep := 2 ≤ cause
    let half (i : Nat) : Bool := match d.boot.fwWrite with | some w => decide (w.slot * 2 ^ 24 ≤ i ∧ i < w.slot * 2 ^ 24 + 256) | none => false
    let attempt := if cause ≤ 3 ∨ d.ready then 1 else min 65535 (d.rf Reg.BOOT_STAT Fld.BOOT_STAT_ATTEMPT + 1)
    let new : Dev := { Dev.powerOn with
      regs := if keep then d.regs.filter (fun q => (0x2000000 ≤ q.1 && q.1 < 0x3000000) || q.1 == Reg.BOOT_FAIL) else []
      lnk := { Links.zero with session := sessionOf d.fresh }
      boot := { BootSt.zero with
        pgAon := d.boot.pgAon, pgMain := d.boot.pgMain, porstLow := d.boot.porstLow, held := d.clk.lost, stageAt := d.ps, resetAt := d.ps,
        failWrote := if cause = 0 then none else d.boot.failWrote, slots := d.boot.slots.filter (fun q => !half q.1), slotWrites := d.boot.slotWrites, eff := d.psr.words }
      clk := { ClkSt.zero with lost := d.clk.lost }
      psr := { d.psr with ops := [], told := [] }
      fltq := if keep then d.fltq else []
      out := d0.out
      fresh := d.fresh + 1
      ps := d.ps }
    let n1 := new.upd [(Reg.BOOT_STAT, Fld.BOOT_STAT_CAUSE, cause), (Reg.BOOT_STAT, Fld.BOOT_STAT_ATTEMPT, attempt),
      (Reg.PWR_STAT, Fld.PWR_STAT_EXT_IN, d.rf Reg.PWR_STAT Fld.PWR_STAT_EXT_IN),
      (Reg.CLK_IN_STAT, Fld.CLK_IN_STAT_INTOSC, b2n d.clk.lost), (Reg.CLK_IN_STAT, Fld.CLK_IN_STAT_PRESENT, b2n !d.clk.lost),
      (Reg.CLK_IN_STAT, Fld.CLK_IN_STAT_LOSSES, if cause = 4 then d.rf Reg.CLK_IN_STAT Fld.CLK_IN_STAT_LOSSES else 0)]
    d.senseInputs (n1.wr (Reg.LNK_VIEW_KEY 0) (n1.effWord 20))

end Sys2Proof.Machine
end

