-- ==== Sys2Proof/Machine/Power.lean ====
section
/-!
DEFINITION. The power governor (R422 to R441): estimates, calibration, ceilings, droop, the external throttle, heartbeats, the emergency hold,
temperatures and the trip, and announcements.
-/
namespace Sys2Proof.Machine

/-! ### Announcements (R440) -/

/-- A FAULT event in the ring of every ACTIVE or SEALED partition. -/
def Dev.faultEvents (d : Dev) (cls cause : Nat) : Dev :=
  (List.range 16).foldl (fun e p => if e.partUsable p then e.event p 0x09 0xFF 0 0 (cls * 2 ^ 56 + cause * 2 ^ 40) else e) d

def Dev.announce (d : Dev) (cls cause detail : Nat) : Dev := (d.raise (notice cls cause detail)).faultEvents cls cause

/-- Detail of a thermal fault: the hottest sensor and its temperature in 1/16 °C. -/
def Dev.heatDetail (d : Dev) : Nat :=
  let h := d.rf Reg.PWR_TEMP Fld.PWR_TEMP_HOT
  h % 64 + (sget (fun _ => 0) d.pwr.temps h) % 65536 * 256

/-- Does reason i limit a comb so that it is announced: by its ceiling, or as PEAK by droop stretching that has lasted 100 ms? -/
def Dev.limitsLong (d : Dev) (i : Nat) : Bool :=
  (List.range 16).any fun k => (d.ceilLimits k).contains i ||
    (i == 2 && (d.governed k).isSome && d.pwr.droop.any fun q => q.1 == k && decide (q.2 + 100 * ms ≤ d.ps))

/-- Reason i (PEAK, THERM, EXT or SAFE) begins or ends. Droop stretching that lasts under 100 ms announces nothing. -/
def opReasonAnnounce (i : Nat) (d : Dev) : Dev :=
  if 2 ≤ i ∧ i ≤ 5 then
    let now := bit d.limiting i
    if now ∧ !d.pwr.announced.contains i then
      if !d.limitsLong i then d else
      let d1 : Dev := { d with pwr := { d.pwr with announced := i :: d.pwr.announced, lastLimit := sput (fun _ => none) d.pwr.lastLimit i (some d.ps) } }
      if i = 3 then d1.announce cThermal 0x1211 d.heatDetail else d1.announce cPower 0x1203 i
    else if !now ∧ d.pwr.announced.contains i then
      match sget (fun _ => none) d.pwr.lastLimit i with
      | some t =>
        if t + 100 * ms ≤ d.ps then
          let d1 : Dev := { d with pwr := { d.pwr with announced := d.pwr.announced.erase i } }
          if i = 3 then d1.announce cThermal 0x1212 d.heatDetail else d1.announce cPower 0x1204 i
        else d
      | none => d
    else d
  else d

/-! ### Estimates (R422, R424) -/

def scaleOf (d : Dev) (r n : Nat) : Nat := d.rf (Reg.PWR_RAIL r) Fld.PWR_RAIL_SCALE * n / 32768
def nthNat {w : Nat} (l : List (BitVec w)) (i : Nat) : Nat := (l.getD i 0).toNat
def sumNat {w : Nat} (l : List (BitVec w)) (n : Nat) : Nat := (List.range n).foldl (fun a i => a + nthNat l i) 0
/-- A share of n in proportion to one of 16 byte counts. -/
def shareOf (n : Nat) (l : List (BitVec 32)) (p : Nat) : Nat := let t := sumNat l 16; if t = 0 then 0 else n * nthNat l p / t

/-- Raw sums by rail of a sample (rail 7 from the sum of the others). -/
def railRaw (e : PwrSample) (r : Nat) : Nat :=
  if r = 0 then sumNat e.cd 16 else if r = 1 then sumNat e.bd 16 else if r = 2 then sumNat e.t1 32 else if r = 3 then e.lp6.toNat
  else if r = 4 then e.vio.toNat + e.vioIdle.toNat else if r = 5 then e.vpe.toNat + e.vpeIdle.toNat else if r = 6 then e.mg.toNat
  else (sumNat e.cd 16 + sumNat e.bd 16 + sumNat e.t1 32 + e.lp6.toNat + e.vio.toNat + e.vioIdle.toNat + e.vpe.toNat + e.vpeIdle.toNat +
    e.mg.toNat) * Config.auxPpm / 1000000

/-- The package estimate in mW. -/
def Dev.pkgEstimate (d : Dev) (e : PwrSample) : Nat := (List.range 8).foldl (fun a r => a + scaleOf d r (railRaw e r)) 0

/-- The estimate of partition p in mW (R424); LP6, rail 4 and rail 5 traffic is shared by LP6, link and host bytes. -/
def Dev.partEstimate (d : Dev) (e : PwrSample) (p : Nat) : Nat :=
  let ks := filterBelow 16 fun k => bit (d.rd (Reg.PART_COMBS p)).toNat k
  let combs := ks.foldl (fun a k => a + scaleOf d 0 (nthNat e.cd k) + scaleOf d 1 (nthNat e.bd k)) 0
  let t1 := (filterBelow 32 fun g => bit (d.rd (Reg.PART_T1 p)).toNat g).foldl (fun a g => a + scaleOf d 2 (nthNat e.t1 g)) 0
  let idle := scaleOf d 4 e.vioIdle.toNat + scaleOf d 5 e.vpeIdle.toNat + scaleOf d 6 e.mg.toNat + scaleOf d 7 (railRaw e 7)
  if d.partState p = 0 then 0
  else combs + t1 + shareOf (scaleOf d 3 e.lp6.toNat) e.lp6Bytes p + shareOf (scaleOf d 4 e.vio.toNat) e.linkBytes p +
    shareOf (scaleOf d 5 e.vpe.toNat) e.hostBytes p + idle * ks.length / 16

/-- Add energy in nJ to an account: 0 to 15 the partitions, 16 the device. -/
def Dev.addEnergy (d : Dev) (i nj : Nat) : Dev :=
  let t := (sget (fun _ => 0) d.pwr.energy i) + nj
  let d1 : Dev := { d with pwr := { d.pwr with energy := sput (fun _ => 0) d.pwr.energy i (t % 1000) } }
  d1.addf (if i < 16 then Reg.PWR_PART_ENERGY i else Reg.PWR_ENERGY_DEV) cnt64 (t / 1000)

/-! ### The control law (R426) -/

/-- One comparison of an estimate with a limit, both in mW. -/
def Ceil.law (c : Ceil) (est limit now : Nat) (mayRise : Bool) : Ceil :=
  if limit < est then { c with step := c.step - 1, below := none }
  else if est * 100 < limit * 98 then
    let b := c.below.getD now
    if mayRise ∧ b + 110 * us ≤ now ∧ c.raisedAt + 10 * us ≤ now ∧ c.step < 80 then { step := c.step + 1, below := some b, raisedAt := now }
    else { c with below := some b }
  else { c with below := none }

/-- A reason without a limit: its ceiling rises at the same rate. -/
def Ceil.free (c : Ceil) (now : Nat) : Ceil := c.law 0 1 now true

def Dev.lawAt (d : Dev) (i v est : Nat) (limit : Option Nat) (mayRise : Bool) : Dev :=
  let c := d.ceil i v
  d.setCeil i v (match limit with | some l => c.law est l d.ps mayRise | none => c.free d.ps)

/-- THERM (R436) and EXT (R431) follow their own rates. -/
def Dev.thermLaw (d : Dev) : Dev :=
  let c := d.ceil 3 0
  if d.pwr.hot then d.setCeil 3 0 { c with step := c.step - 1 }
  else
    match d.pwr.coolAt with
    | some t =>
      if t + ms + 100 * us ≤ d.ps ∧ c.raisedAt + 100 * us ≤ d.ps ∧ c.step < 80 then d.setCeil 3 0 { c with step := c.step + 1, raisedAt := d.ps } else d
    | none => d

def Dev.extLaw (d : Dev) : Dev :=
  let c := d.ceil 4 0
  match d.pwr.extHigh with
  | some t =>
    if t + 10 * us ≤ d.ps ∧ c.raisedAt + 10 * us ≤ d.ps ∧ c.step < 80 then d.setCeil 4 0 { c with step := c.step + 1, raisedAt := d.ps } else d
  | none => d

/-- A comb PLL in MHz at a step, and the step of a frequency shown in whole MHz. -/
def stepMhz (n : Nat) : Nat := (800 + 25 * n) / 2
def mhzStep (m : Nat) : Nat := (2 * (m - 400) + 24) / 25

/-- The frequency of a comb PLL in kHz: a step of 12.5 MHz that the register shows in whole MHz (R395). -/
def pllKhz (m : Nat) : Nat := if 400 ≤ m ∧ stepMhz (mhzStep m) = m then 400000 + 12500 * mhzStep m else 1000 * m
/-- The clock of comb k in kHz: one PLL edge in two passes under droop stretching, one in four under EXT (R429, R430). -/
def Dev.combKhz (d : Dev) (k : Nat) : Nat :=
  pllKhz (d.rf (Reg.CLK_PLL_STAT k) Fld.CLK_PLL_STAT_CUR_MHZ) / (if d.pwr.extStretch.contains k then 4 else if d.pwr.droop.any (fun q => q.1 == k) then 2 else 1)

/-- One step of PLL slew toward the target (R395). -/
def Dev.slewPll (d : Dev) (k : Nat) : Dev :=
  match d.ownerOf k with
  | some p =>
    if d.rf (Reg.CLK_PLL_STAT k) Fld.CLK_PLL_STAT_ON = 1 ∧ 2 ≤ d.combPs k then
      let t := d.target p
      let cur := mhzStep (d.rf (Reg.CLK_PLL_STAT k) Fld.CLK_PLL_STAT_CUR_MHZ)
      let nxt := if cur < t then cur + 1 else if t < cur then cur - 1 else cur
      d.upd [(Reg.CLK_PLL_STAT k, Fld.CLK_PLL_STAT_TARGET_MHZ, stepMhz t), (Reg.CLK_PLL_STAT k, Fld.CLK_PLL_STAT_CUR_MHZ, stepMhz nxt)]
    else d
  | none => d

/-- Microseconds of throttling (R428). -/
def Dev.countThrottle (d : Dev) : Dev :=
  let d1 := (List.range 7).foldl (fun e i => if bit d.limiting i then e.addf (Reg.PWR_THR_US i) cnt64 1 else e) d
  (List.range 16).foldl (fun e p =>
    let rs := (d.partCombs p).flatMap d.limitsOf
    (List.range 7).foldl (fun e i => if rs.contains i then e.addf (Reg.PWR_PART_THR_US p i) cnt64 1 else e) e) d1

/-- One microsecond of the governor. -/
def opGovernorTick (s : PwrSample) (d : Dev) : Dev :=
  if d.mainOn then
    let est := d.pkgEstimate s
    let parts := (List.range 16).map fun p => d.partEstimate s p
    let cap := d.effCap * 1000
    let w := d.pwr
    let d1 : Dev := { d with pwr := { w with
      est := est, sumEst := w.sumEst + est, ticks := w.ticks + 1,
      partEst := (List.range 16).foldl (fun m p => sput (fun _ => 0) m p (parts.getD p 0)) w.partEst,
      sumPart := (List.range 16).foldl (fun m p => sput (fun _ => 0) m p (sget (fun _ => 0) m p + parts.getD p 0)) w.sumPart,
      sumRail := (List.range 8).foldl (fun m r => sput (fun _ => 0) m r (sget (fun _ => 0) m r + railRaw s r)) w.sumRail } }
    let d2 := (List.range 16).foldl (fun e p => (e.addEnergy p (parts.getD p 0)).charge p aEnergy (parts.getD p 0)) d1
    let d3 := d2.addEnergy 16 (est - parts.foldl (· + ·) 0)
    let d4 := ((d3.lawAt 0 0 est (some cap) true).lawAt 2 0 est (some (cap * 108 / 100)) true).lawAt 5 0 est
      (if d.safeOn then some (d.pwr.safeCap * 1000) else none) true
    let d5 := (List.range 16).foldl (fun e p =>
      let pc := d.partCap p * 1000
      let e1 := e.lawAt 1 (1 + p) (parts.getD p 0) (if pc = 0 then none else some pc) true
      let sl := sget (fun _ => none) d.pwr.sliceLimit p
      e1.lawAt 6 (1 + p) (parts.getD p 0) sl sl.isNone) d4
    let d6 := d5.thermLaw.extLaw
    let d7 := ((List.range 16).foldl (fun e k => e.slewPll k) d6).countThrottle
    let overAt := cap * 110 / 100 < est && (d7.ceil 2 0).step == 0
    let lim := d7.limiting
    { d7 with pwr := { d7.pwr with
      overAt := if overAt then some (d7.pwr.overAt.getD d7.ps) else none,
      underAt := if est < cap then some (d7.pwr.underAt.getD d7.ps) else none,
      lastLimit := (List.range 7).foldl (fun m i => if bit lim i then sput (fun _ => none) m i (some d7.ps) else m) d7.pwr.lastLimit } }
  else d

/-! ### Calibration (R423) -/

/-- Calibrate one rail: mw is the measured average of the last millisecond. -/
def Dev.calibrate (d : Dev) (r mw : Nat) : Dev :=
  let d0 := d.wf (Reg.PWR_RAIL r) Fld.PWR_RAIL_MW mw
  let raw := sget (fun _ => 0) d.pwr.sumRail r / max 1 d.pwr.ticks
  if raw = 0 then d0
  else
    let ratio := mw * 32768 / raw
    if mw * 10 < raw * 8 ∨ raw * 125 < mw * 100 then
      (d0.wf Reg.PWR_CAL Fld.PWR_CAL_CLAMPED (d0.rf Reg.PWR_CAL Fld.PWR_CAL_CLAMPED + 2 ^ r)).raise
        (notice cPower 0x1201 (r + min 65535 ratio * 65536))
    else d0.wf (Reg.PWR_RAIL r) Fld.PWR_RAIL_SCALE ratio

def opCalibration (mw : List (BitVec 32)) (pkg : Nat) (d : Dev) : Dev :=
  if d.mainOn then
    let n := max 1 d.pwr.ticks
    let est := d.pwr.sumEst / n
    let d1 := (List.range 8).foldl (fun e r => e.calibrate r (nthNat mw r)) (d.wf Reg.PWR_CAL Fld.PWR_CAL_CLAMPED 0)
    let dev : Int := if pkg = 0 then 0 else ((est : Int) - pkg) * 10000 / pkg
    let d2 := (d1.addf Reg.PWR_CAL Fld.PWR_CAL_CALS 1).upd [(Reg.PWR_CAL, Fld.PWR_CAL_DEV, (BitVec.ofInt 16 dev).toNat)]
    let d3 := d2.wr Reg.PWR_EST (BitVec.ofNat 64 (est * 2 ^ 32 + pkg))
    let d4 := (List.range 16).foldl (fun e p => e.wr (Reg.PWR_PART_EST p) (BitVec.ofNat 64 (sget (fun _ => 0) d.pwr.sumPart p / n % 2 ^ 32))) d3
    { d4 with pwr := { d4.pwr with
      sumEst := 0, sumPart := [], sumRail := [], ticks := 0, avgEst := est,
      avgPart := (List.range 16).foldl (fun m p => sput (fun _ => 0) m p (sget (fun _ => 0) d.pwr.sumPart p / n)) d.pwr.avgPart } }
  else d

/-- Power headroom of at least 60 W over the last full millisecond, for the package and for partition p where it has a cap (R427). -/
def Dev.headroom (d : Dev) (p : Option Nat) : Bool :=
  d.pwr.avgEst + 60000 ≤ d.effCap * 1000 &&
    (match p with
     | some p => d.partCap p == 0 ||
        sget (fun _ => 0) d.pwr.avgPart p + 60000 ≤ d.partCap p * 1000
     | none => true)

/-! ### Droop (R429) -/

def opDroopDetect (k : Nat) (d : Dev) : Dev :=
  if 2 ≤ d.combPs k ∧ !(d.pwr.droop.any fun q => q.1 == k) then
    { d with pwr := { d.pwr with droop := (k, d.ps) :: d.pwr.droop } }.addf (Reg.PWR_COMB k) Fld.PWR_COMB_DROOP_EVT 1
  else d

/-- The supply has recovered: stretching ends once 32 edges have passed; one PLL edge in two passed, or in four under EXT. -/
def opDroopRecover (k : Nat) (d : Dev) : Dev :=
  match d.pwr.droop.find? (fun q => q.1 == k) with
  | some q =>
    let edges := (d.ps - q.2) * pllKhz (d.rf (Reg.CLK_PLL_STAT k) Fld.CLK_PLL_STAT_CUR_MHZ) / 1000000000
    let passed := edges / (if d.pwr.extStretch.contains k then 4 else 2)
    if 32 ≤ passed then
      { d with pwr := { d.pwr with droop := d.pwr.droop.erase q } }.addf (Reg.PWR_COMB k) Fld.PWR_COMB_DROOP_CYC passed
    else d
  | none => d

/-! ### The external throttle (R430, R431) -/

def opThrotFall (d : Dev) : Dev :=
  let d1 := d.wf Reg.PWR_STAT Fld.PWR_STAT_EXT_IN 1
  if d.mainOn then
    let c := d.ceil 4 0
    let d2 := d1.setCeil 4 0 { c with step := min 80 (Config.stepFor d.pwr.est (d.effCap * 500)) }
    { d2 with pwr := { d2.pwr with extHigh := none, extStretch := List.range 16 } }
  else { d1 with pwr := { d1.pwr with extHigh := none } }

def opThrotRise (d : Dev) : Dev :=
  if d.rf Reg.PWR_STAT Fld.PWR_STAT_EXT_IN = 1 then
    let d1 := d.wf Reg.PWR_STAT Fld.PWR_STAT_EXT_IN 0
    { d1 with pwr := { d1.pwr with extHigh := some d1.ps } }
  else d

/-- A comb's PLL has reached the EXT ceiling. -/
def opExtStretchEnd (k : Nat) (d : Dev) : Dev :=
  if d.pwr.extStretch.contains k ∧ mhzStep (d.rf (Reg.CLK_PLL_STAT k) Fld.CLK_PLL_STAT_CUR_MHZ) ≤ (d.ceil 4 0).step then
    { d with pwr := { d.pwr with extStretch := d.pwr.extStretch.erase k } }
  else d

/-! ### Heartbeats and the safe cap (R433) -/

/-- A heartbeat; one that comes before READY starts supervision only where READY does not start it. -/
def opHbBeat (v : Nat) (d : Dev) : Dev :=
  if v = 0 ∧ (d.ready ∨ (4 ≤ d.stage ∧ d.role < 2)) then
    let d1 := d.upd [(Reg.PWR_STAT, Fld.PWR_STAT_SUPERVISED, 1), (Reg.PWR_STAT, Fld.PWR_STAT_SAFE_ON, 0)]
    { d1 with pwr := { d1.pwr with beatAt := d1.ps } }
  else d

def opSafeCapTimeout (d : Dev) : Dev :=
  if d.rf Reg.PWR_STAT Fld.PWR_STAT_SUPERVISED = 1 ∧ !d.safeOn ∧ d.pwr.beatAt + 60000 * ms ≤ d.ps then
    { d with pwr := { d.pwr with safeCap := safeCapOf (d.psrWord 4) } }.wf Reg.PWR_STAT Fld.PWR_STAT_SAFE_ON 1
  else d

/-! ### The emergency power abort (R434) -/

def Dev.emergency (d : Dev) (detail : Nat) : Dev :=
  if d.rf Reg.PWR_STAT Fld.PWR_STAT_EMERG = 1 ∨ !d.mainOn then d
  else
    let d1 := (d.raise { notice cPower 0x1202 detail with sev := if d.anyExecuting then svAbort else svNotice }).faultEvents cPower 0x1202
    let d2 := (d1.abortAll ⟨cPower, 0x1202, false, d.pos, cPower⟩).wf Reg.PWR_STAT Fld.PWR_STAT_EMERG 1
    { d2 with pwr := { d2.pwr with overAt := none, underAt := some d2.ps } }

def opEmergencyAbort (d : Dev) : Dev :=
  match d.pwr.overAt with
  | some t => if (d.ceil 2 0).step = 0 ∧ t + 20 * us ≤ d.ps then d.emergency 1 else d
  | none => d

def opCurrentLimit (r : Nat) (d : Dev) : Dev := d.emergency (2 + r * 256)

def opEmergencyHoldEnd (d : Dev) : Dev :=
  match d.pwr.underAt with
  | some t => if d.rf Reg.PWR_STAT Fld.PWR_STAT_EMERG = 1 ∧ t + 100 * us ≤ d.ps then d.wf Reg.PWR_STAT Fld.PWR_STAT_EMERG 0 else d
  | none => d

/-! ### Temperatures and the trip (R435 to R437) -/

/-- The trip: TRIP_N, aborts with 0x1213, WITHDRAW 2, the switch drive, and every die but the always-on domain and the fault log powered down. -/
def Dev.tripNow (d : Dev) : Dev :=
  let d1 := d.raise { notice cThermal 0x1213 d.heatDetail with sev := svDevice }
  let d2 := ((d1.abortAll ⟨cThermal, 0x1213, false, d.pos, cThermal⟩).withdrawAll 2).dropDrive
  let d3 := d2.powerDown
  { d3.wf Reg.GLB_LEVEL Fld.GLB_LEVEL_READY 0 with pwr := { d3.pwr with trip := true } }

/-- Temperatures of the dies (1/16 °C, by die index) and of the stacks (°C). -/
def opTempPoll (dies hbm : List (BitVec 16)) (d : Dev) : Dev :=
  if d.pwr.trip ∨ d.boot.held then d
  else
    let t16 := dies.map (·.toNat)
    let tj := t16.foldl max 0
    let hb := (hbm.map (·.toNat)).foldl max 0
    let temps0 := (List.range dies.length).foldl (fun m i => sput (fun _ => 0) m i (t16.getD i 0)) ([] : Store Nat)
    let temps := (List.range hbm.length).foldl (fun m i => sput (fun _ => 0) m (40 + i) (nthNat hbm i * 16)) temps0
    let all := t16 ++ List.replicate (40 - dies.length) 0 ++ hbm.map (fun (x : BitVec 16) => x.toNat * 16)
    let top := all.foldl max 0
    let hot := all.findIdx (· == top)
    let isHot := decide (105 * 16 ≤ tj ∨ 95 ≤ hb)
    let cool := decide (tj < 102 * 16 ∧ hb < 92)
    let d1 := d.upd [(Reg.PWR_TEMP, Fld.PWR_TEMP_HOT, hot), (Reg.PWR_TEMP, Fld.PWR_TEMP_HBM_MAX, min hb 255), (Reg.PWR_TEMP, Fld.PWR_TEMP_TJ_MAX, tj)]
    let d2 : Dev := { d1 with pwr := { d1.pwr with
      temps := temps, hot := isHot, coolAt := if cool then some (d1.pwr.coolAt.getD d1.ps) else none } }
    if 115 * 16 ≤ tj ∨ 105 ≤ hb then d2.tripNow else d2

/-! ### Fixed-frequency mode (R439) -/

def opFixedModeWrite (v p : Nat) (val : Word) (d : Dev) : Dev :=
  if d.sealed p then d.lockRec v p (Reg.PWR_FIXED p)
  else if v = 0 then
    let d1 := d.wf (Reg.PWR_FIXED p) Fld.PWR_FIXED_ENABLE (fget val Fld.PWR_FIXED_ENABLE)
    if fget val Fld.PWR_FIXED_FSTEP ≤ 80 then d1.wf (Reg.PWR_FIXED p) Fld.PWR_FIXED_FSTEP (fget val Fld.PWR_FIXED_FSTEP) else d1
  else d

/-- At a step boundary of p its fixed-frequency word takes effect. -/
def Dev.takeFixed (d : Dev) (p : Nat) : Dev :=
  { d with pwr := { d.pwr with fixed := sput (fun _ => 0#64) d.pwr.fixed p (d.rd (Reg.PWR_FIXED p)) } }

/-! ### The commands -/

def execGovernorTick (e : PwrSample) (s : State) : Host.Outcome State Fault Refusal := done s (opGovernorTick e s.dev)
def execCalibration (mw : List (BitVec 32)) (pkg : BitVec 32) (s : State) : Host.Outcome State Fault Refusal :=
  done s (opCalibration mw pkg.toNat s.dev)
def execDroopDetect (k : CombIdx) (s : State) : Host.Outcome State Fault Refusal := done s (opDroopDetect k s.dev)
def execDroopRecover (k : CombIdx) (s : State) : Host.Outcome State Fault Refusal := done s (opDroopRecover k s.dev)
def execThrotInFall (s : State) : Host.Outcome State Fault Refusal := done s (opThrotFall s.dev)
def execThrotInRise (s : State) : Host.Outcome State Fault Refusal := done s (opThrotRise s.dev)
def execExtStretchEnd (k : CombIdx) (s : State) : Host.Outcome State Fault Refusal := done s (opExtStretchEnd k s.dev)
def execPwrHbBeat (v : View) (s : State) : Host.Outcome State Fault Refusal := hostDone s Reg.PWR_HB (opHbBeat v)
def execSafeCapTimeout (s : State) : Host.Outcome State Fault Refusal := done s (opSafeCapTimeout s.dev)
def execEmergencyAbort (s : State) : Host.Outcome State Fault Refusal := done s (opEmergencyAbort s.dev)
def execCurrentLimit (r : Fin 8) (s : State) : Host.Outcome State Fault Refusal := done s (opCurrentLimit r s.dev)
def execEmergencyHoldEnd (s : State) : Host.Outcome State Fault Refusal := done s (opEmergencyHoldEnd s.dev)
def execTempPoll (dies hbm : List (BitVec 16)) (s : State) : Host.Outcome State Fault Refusal := done s (opTempPoll dies hbm s.dev)
def execReasonAnnounce (i : Fin 7) (s : State) : Host.Outcome State Fault Refusal := done s (opReasonAnnounce i s.dev)
def execFixedModeWrite (v : View) (p : PartIdx) (w : Word) (s : State) : Host.Outcome State Fault Refusal := hostDone s (Reg.PWR_FIXED p) (opFixedModeWrite v p w)

end Sys2Proof.Machine
end

