-- ==== Sys2Proof/Machine/Serving.lean ====
section
/-!
DEFINITION. The serving engine's part of a step: admission (R216), the plan of the computing slots (R218, R228, R231), block allocation (R217, R221, R223), the
step values and serving tables (R206, R207), and what a commit does to requests (R222, R227, R229, R230, R232, R246, R257) or an empty commit (R254).
-/
namespace Sys2Proof.Machine

/-! ### Admission (R216) -/

def Dev.orderOf (d : Dev) (n : Nat) : Nat := sget (fun _ => 0) d.srv.order n

/-- Does request a go before request b: PRIO, T_SUBMIT, order of the SUBMIT doorbells? -/
def Dev.before (d : Dev) (a b : Nat) : Bool :=
  let x := [d.rqPrio a, d.rq a 296 8, d.orderOf a]
  let y := [d.rqPrio b, d.rq b 296 8, d.orderOf b]
  decide (x < y)

/-- Blocks that an admission needs from the unreserved ones: none for a request admitted before. -/
def Dev.admitNeed (d : Dev) (p c n : Nat) (g : Geo) : Nat :=
  if d.rqReserved n ≠ 0 then 0
  else d.reserveOf c n (match d.findHandle p (d.rqPrefix n) with | some i => if d.rqPrefix n = 0 then 0 else (d.handle i).len | none => 0) g

/-- Is the prefix of a request ready to be copied: none, copied before, or a VALID handle? -/
def Dev.prefixReady (d : Dev) (p n : Nat) : Bool :=
  d.rqPrefix n == 0 || d.rqReserved n != 0 || (match d.findHandle p (d.rqPrefix n) with | some i => (d.handle i).st == .valid | none => false)

/-- QUEUED requests of the loop. -/
def Dev.queuedReqs (d : Dev) (p c : Nat) : List Nat := (d.loopReqs p c).filter fun n => d.rqState n == rsQueued

/-- Blocks that no request has reserved, the ones that the running attempt has taken counted as still reserved. -/
def Dev.spare (d : Dev) (p : Nat) : Nat :=
  let taken := (List.range 64).foldl (fun a c => a + (if d.partOfCtx c = some p then (d.att c).taken.length else 0)) 0
  (d.freeBlocks p).length + taken - d.reservedLeft p

/-- Copies of a promotion into free T1 blocks of the pool, in the order of the chain; where none is free it waits (R224). A block that a request has reserved
is not taken (log entry 59). -/
def promoteGo (p i : Nat) : Nat → Dev → Dev
  | 0, d => d
  | fuel + 1, d =>
    let h := d.handle i
    match h.copies.find? (fun q => q.1 == h.blocks.length), d.allocBlock p with
    | some q, some (b, e) =>
      if 0 < d.spare p then
        let e1 := (e.setBlk b (mkBlk false true true (blkGen (e.blk b)) (e.blkT1 p b / 512))).setHandle i { h with st := .promoting, blocks := h.blocks ++ [b] }
        promoteGo p i fuel { e1 with srv := { e1.srv with copies := e1.srv.copies ++ [⟨p, b, h.blocks.length, q.2, e.blkT1 p b, false, i⟩] } }
      else d
    | _, _ => d

/-- A DEMOTED handle begins its promotion; one that waits for free blocks goes on. -/
def Dev.promote (d : Dev) (p i : Nat) : Dev :=
  let h := d.handle i
  promoteGo p i h.copies.length (d.setHandle i { h with st := .promoting })

/-- Every promotion of p that waits for free blocks. -/
def Dev.goOnPromoting (d : Dev) (p : Nat) : Dev :=
  d.srv.handles.foldl (fun (e : Dev) (q : Nat × Handle) => if q.2.st = .promoting ∧ q.2.part = p then e.promote p q.1 else e) d

/-- Give free slots in ascending order to the best requests that fit. -/
def Dev.admitGo (d : Dev) (p c : Nat) (g : Geo) : List Nat → List Nat → Nat → List (Nat × Nat)
  | [], _, _ => []
  | s :: ss, qs, spare =>
    let fit := qs.filter fun n => d.prefixReady p n && d.admitNeed p c n g ≤ spare
    match fit with
    | [] => []
    | q :: rest =>
      let n := rest.foldl (fun a b => if d.before b a then b else a) q
      (s, n) :: d.admitGo p c g ss (qs.filter (· != n)) (spare - d.admitNeed p c n g)

def Dev.freeSlots (d : Dev) (c : Nat) : List Nat := filterBelow (d.loopSlots c) fun s => !(d.holds c).any fun h => h.slot == s

/-- The admissions of the next attempt: a replay repeats those of the aborted attempt (R252); a STOPPING loop admits nothing. -/
def Dev.admissions (d : Dev) (p c : Nat) (g : Geo) : List (Nat × Nat) :=
  if (d.att c).mustReplay then (d.att c).admits.filter fun q => d.rqState q.2 == rsQueued && !(d.holds c).any fun h => h.slot == q.1
  else if d.loopState c = lpRunning then d.admitGo p c g (d.freeSlots c) (d.queuedReqs p c) (d.spare p)
  else []

/-- Requests whose prefix is not ready: an absent handle fails the request, a DEMOTED one is promoted (R224). Done at a step boundary at which a slot is
free. -/
def Dev.readyPrefixes (d : Dev) (p c : Nat) : Dev :=
  if (d.freeSlots c).isEmpty ∨ d.loopState c ≠ lpRunning then d
  else (d.queuedReqs p c).foldl (fun (e : Dev) n =>
    if e.rqPrefix n = 0 ∨ e.rqReserved n ≠ 0 ∨ e.admitting p n then e
    else match e.findHandle p (e.rqPrefix n) with
      | some i =>
        if (e.handle i).st = .demoted then ((e.promote p i).setRqFlag n flPromoting true)
        else if (e.handle i).st = .promoting then e.setRqFlag n flPromoting true
        else e
      | none => (e.endReq p n rsFailed 5).show p n) d

/-! ### Slots that compute (R218, R231) -/

/-- Has the prompt been read, as far as it is still needed? -/
def Dev.promptReady (d : Dev) (n : Nat) : Bool := d.prefixLenOf n + d.rqPrompt n ≤ d.rqKv n || (d.promptOf n).length == d.rqPrompt n

/-- Could the request of a slot compute, whatever its prompt read? A slot of stage 0 whose sample is still to come back does not (R259). -/
def Dev.wouldCompute (d : Dev) (c n : Nat) : Bool :=
  !d.rqFlag n flCancel && d.dueOf n == 0 && d.hasRoom c n && !(d.awaits c).any fun l => l.any fun a => a.plan.entry == n

/-- The candidate tree from node 1 on (R228): token and parent, empty when the buffer is not used. -/
def treeDepths (tree : List (Nat × Nat)) : List Nat := tree.foldl (fun ds t => ds ++ [ds.getD t.2 0 + 1]) [0]
def Dev.candTree (d : Dev) (c n : Nat) : List (Nat × Nat) :=
  let a := d.rqCand n
  let nodes := d.num (a + 4) 2
  let tree := (List.range (nodes - 1)).map fun i => (d.num (a + 16 + 8 * i) 4, d.num (a + 20 + 8 * i) 1)
  let ok := a != 0 && d.loopDepth c != 0 && d.num a 4 == d.rqGen n && 1 ≤ nodes && nodes ≤ d.loopNodes c &&
    (tree.zipIdx.all fun q => q.1.2 ≤ q.2) && (treeDepths tree).all fun x => x ≤ d.loopDepth c
  if ok then tree else []

/-- The plan of a slot that computes. -/
def Dev.planSlot (d : Dev) (c s n : Nat) : SlotPlan :=
  let left := d.prefixLenOf n + d.rqPrompt n - d.rqKv n
  if left = 0 then
    let t := d.candTree c n
    ⟨s, n, t.length + 1, 0, true, t⟩
  else
    let k := min (d.loopChunk c) left
    ⟨s, n, k, k, k == left, []⟩

/-- Slots and entries of the next attempt: those that hold a request, then the admissions. -/
def Dev.seats (d : Dev) (c : Nat) (adm : List (Nat × Nat)) : List (Nat × Nat) := (d.holds c).map (fun h => (h.slot, h.entry)) ++ adm

def Dev.stepPlan (d : Dev) (c : Nat) (adm : List (Nat × Nat)) : List SlotPlan :=
  ((d.seats c adm).filter fun q => d.wouldCompute c q.2 && d.promptReady q.2).map fun q => d.planSlot c q.1 q.2

/-- Would any slot compute in an attempt now? -/
def Dev.anyComputes (d : Dev) (c : Nat) (adm : List (Nat × Nat)) : Bool := (d.seats c adm).any fun q => d.wouldCompute c q.2

/-- Is an empty commit due (R254): a cancel, a suspension, a QP error or a KV loss of a request that holds a slot? -/
def Dev.changeDue (d : Dev) (c : Nat) : Bool := (d.holds c).any fun h => d.rqFlag h.entry flCancel || d.dueOf h.entry != 0

/-- Reads that a step start needs (R218, R231): HEAD words of rings with too little room, prompts not yet read. -/
def Dev.stepReads (d : Dev) (c : Nat) (adm : List (Nat × Nat)) : Dev :=
  (d.seats c adm).foldl (fun (e : Dev) q =>
    let n := q.2
    let e1 := if !e.hasRoom c n && !e.reading (.ringHead n) then e.readHead n else e
    if !e1.promptReady n && !e1.reading (.prompt n) then e1.rdmaRead (e1.rqQp n) (e1.rq n 8 8) (e1.rq n 16 4) (4 * e1.rqPrompt n) (.prompt n) else e1) d
def Dev.readsPending (d : Dev) (c : Nat) (adm : List (Nat × Nat)) : Bool := (d.seats c adm).any fun q => d.reading (.ringHead q.2) || d.reading (.prompt q.2)

/-! ### The start of an attempt -/

/-- What an admission changes in the working state: a first admission gets its chain list, the copy of its prefix's chain, and a count table of zeros
(R220, R223, R227). -/
def Dev.admitWork (d : Dev) (p c : Nat) (g : Geo) (n : Nat) : Dev :=
  if d.rqReserved n ≠ 0 then d
  else
    let a := d.chainAddr p c n g
    let d1 := (d.setRq n 272 8 a).setBytes (d.rqCount n) (zeros (2 * g.vocab))
    match d1.findHandle p (d1.rqPrefix n) with
    | some i =>
      if d1.rqPrefix n = 0 then d1
      else
        let h := d1.handle i
        let d2 := h.blocks.zipIdx.foldl (fun (e : Dev) b => (e.setChainEntry a b.2 (blkGen (e.blk b.1)) b.1).setRefs b.1 (e.refs b.1 + 1)) d1
        let d3 := ((d2.setHandle i { h with uses := h.uses + 1 }).setRq n 268 4 h.len).setChainN n h.blocks.length
        { d3.modAtt c fun t => { t with shared := t.shared ++ [(n, i, h.blocks)] } with
          srv := { (d3.modAtt c fun t => { t with shared := t.shared ++ [(n, i, h.blocks)] }).srv with prefixLen := sput (fun _ => 0) d3.srv.prefixLen n h.len } }
    | none => d1

/-- Take the lowest free block for a place of a chain list; `copied` says that it takes the place of a shared block, whose bytes it copies (R223). -/
def Dev.takeBlock (d : Dev) (p c n chain i : Nat) (copied : Bool) : Dev :=
  match d.allocBlock p with
  | some (b, d1) =>
    let old := d.chainEntry chain i
    let d2 := if copied then d1.setBytes (d1.blkT1 p b) (d1.bytes (blkUnit (d1.blk (old % 2 ^ 24)) * 512) blockBytes) else d1
    (d2.setChainEntry chain i (blkGen (d2.blk b)) b).modAtt c fun t => { t with taken := t.taken ++ [⟨n, chain + 4 * i, b, old, copied⟩] }
  | none => d

/-- The chain of a computing slot grows to its new length; a partial last block that is frozen is copied first. -/
def Dev.growChain (d : Dev) (p c : Nat) (g : Geo) (q : SlotPlan) : Dev :=
  let a := d.rq q.entry 272 8
  let have_ := d.chainNOf q.entry
  let part := if d.rqKv q.entry % g.tpb = 0 then [] else
    ((List.range g.planes).map fun j => d.rqKv q.entry / g.tpb * g.planes + j).filter fun i => i < have_ && blkFrozen (d.blk (d.chainEntry a i % 2 ^ 24))
  let d1 := part.foldl (fun (e : Dev) i => e.takeBlock p c q.entry a i true) d
  let want := chainLen g (d.rqKv q.entry + q.new)
  (List.range (want - have_)).foldl (fun (e : Dev) k => e.takeBlock p c q.entry a (have_ + k) false) d1

/-! ### Step values and serving tables (Tables 7-2 to 7-4) -/

def maxOf (l : List Nat) : Nat := l.foldl max 0

/-- A step value by its source. -/
def stepValue (g : Geo) (vs : List SlotView) (epoch src : Nat) : Nat :=
  if src = 1 then maxOf (vs.map fun q => q.slot + 1)
  else if src = 2 then maxOf (vs.map (·.new))
  else if src = 3 then maxOf (vs.map fun q => ceilDiv (q.kv + q.new) g.tpb)
  else if src = 4 then max 1 (maxOf (vs.map (·.nodes)))
  else if src = 5 then (vs.filter (·.prompt)).length
  else if src = 6 then (vs.filter (·.samples)).length
  else epoch % 2 ^ 32

/-- Write the step values into the bound registers that BNDMAP names (R206): mask bit 4·ry + rx names the comb at that place of the footprint (R143). -/
def Dev.writeBounds (d : Dev) (i : Img) (g : Geo) (vs : List SlotView) (epoch : Nat) : Dev :=
  (d.bndMap i).foldl (fun (e : Dev) m =>
    if 1 ≤ m.2.2.1 ∧ m.2.2.1 ≤ 7 then
      (filterBelow 16 fun k => bit m.1 k && k % 4 < e.footW i && k / 4 < e.footH i).foldl (fun (e : Dev) k =>
        { e with fab := { e.fab with bnd := sput (fun _ => 0#32) e.fab.bnd (64 * (i.origin + k) + m.2.1 % 64) (BitVec.ofNat 32 (stepValue g vs epoch m.2.2.1)) } }) e
    else e) d

/-- The slot record of a computing slot (Table 7-4). -/
def Dev.slotRecord (d : Dev) (c : Nat) (g : Geo) (q : SlotPlan) : List Nat :=
  let n := q.entry
  let flags := 1 + b2n (q.prompt != 0) * 2 + b2n q.samples * 4 + b2n (!q.tree.isEmpty) * 8
  let chain := d.rq n 272 8
  [n, d.slotGenOf c q.slot % 65536 + flags * 65536, d.rqKv n, q.new, chain % 2 ^ 32, chain / 2 ^ 32, d.rqCount n % 2 ^ 32, d.rqCount n / 2 ^ 32,
   g.vocab, d.rq n 72 4, d.rq n 80 4, d.rq n 84 4, d.rq n 88 4, d.rq n 92 4, d.rq n 96 4, d.rq n 76 2, d.rq n 100 4, d.rq n 104 4, d.rqGen n, d.rq n 0 2] ++
    List.replicate 12 0

/-- A full INT32 tile from its words; header fields that no rule gives are those of the loader's tiles. -/
def intTile (seq : Nat) (words : List Nat) : List Byte :=
  mkTile { loaderHdr 0x20 0 seq with rows := 31, cols := 31 } [] (words.flatMap (toLe 4))

/-- The tokens of a slot: token, position, parent (−1 for a prompt token and for the root), depth. -/
def Dev.slotTokens (d : Dev) (q : SlotPlan) : List (Nat × Nat × Nat × Nat) :=
  let kv := d.rqKv q.entry
  let none_ := 2 ^ 32 - 1
  if q.prompt ≠ 0 then
    (List.range q.new).map fun i => ((d.promptOf q.entry).getD (kv - d.prefixLenOf q.entry + i) 0, kv + i, none_, 0)
  else
    let ds := treeDepths q.tree
    (sget (fun _ => 0) d.srv.lastTok q.entry, kv, none_, 0) ::
      (q.tree.zip (ds.drop 1)).map fun t => (t.1.1, kv + t.2, t.1.2, t.2)

def Dev.inputTile (d : Dev) (q : SlotPlan) (t k : Nat) : List Byte :=
  let toks := ((d.slotTokens q).drop (256 * k)).take 256
  intTile t (toks.flatMap (fun x => [x.1, x.2.1, x.2.2.1, x.2.2.2]) ++ List.replicate (1024 - 4 * toks.length) 0)

/-- Write the slot and input tables (R207). -/
def Dev.writeTables (d : Dev) (p c : Nat) (g : Geo) (plan : List SlotPlan) (epoch : Nat) : Dev :=
  let base := d.serveBase p c g
  let rec_ := fun (s : Nat) => match plan.find? (fun q => q.slot == s) with | some q => d.slotRecord c g q | none => List.replicate 32 0
  let d1 := (List.range 32).foldl (fun (e : Dev) t =>
    e.setBytes (serveTile base t) (slotBytes (intTile t ((List.range 32).flatMap fun r => rec_ (32 * t + r))))) d
  (List.range g.slots).foldl (fun (e : Dev) s => (List.range 16).foldl (fun (e : Dev) k =>
    let t := 32 + 16 * s + k
    let tile := match plan.find? (fun q => q.slot == s) with | some q => d.inputTile q t k | none => emptyTile 0x20 0 0 t 0 (epoch % 2 ^ 32) false false
    e.setBytes (serveTile base t) (slotBytes tile)) e) d1

/-! ### Results and acceptance (R229) -/

/-- Walk the tree from a node: nodes and tokens emitted, the last node, whether it gave NO_TOKEN. -/
def acceptFrom (tok : Nat → Nat) (noTok : Nat) (tree : List (Nat × Nat)) (stops : List Nat) (left : Nat) :
    Nat → Nat → List (Nat × Nat) → List (Nat × Nat) × Nat × Bool
  | 0, cur, em => (em, cur, false)
  | fuel + 1, cur, em =>
    if tok cur = noTok then (em, cur, true)
    else
      let em2 := em ++ [(cur, tok cur)]
      if stops.contains (tok cur) ∨ left ≤ em2.length then (em2, cur, false)
      else
        match (List.range tree.length).find? fun i => tree.getD i (0, 0) == (tok cur, cur) with
        | some i => acceptFrom tok noTok tree stops left fuel (i + 1) em2
        | none => (em2, cur, false)

/-- Word w of the result tile of slot s. -/
def Dev.resultWord (d : Dev) (base : Nat) (g : Geo) (s w : Nat) : Nat := d.num (serveTile base (32 + 16 * g.slots + s) + 320 + 4 * w) 4

/-- What a computing slot's step gave: emitted (position, token, log-probability), the new KV_LEN, whether it stopped, was full, or met NO_TOKEN. -/
structure StepRes where
  emitted : List (Nat × Nat × Nat)
  kv : Nat
  stop : Bool
  maxed : Bool
  noToken : Bool
  deriving DecidableEq, Repr

def Dev.stepRes (d : Dev) (base : Nat) (g : Geo) (kv : Nat) (q : SlotPlan) : StepRes :=
  let n := q.entry
  if !q.samples then ⟨[], kv + q.new, false, false, false⟩
  else
    let stops := d.rqStops n
    let left := d.rqMax n - d.rqGen n
    let r := acceptFrom (fun k => d.resultWord base g q.slot (2 * k)) (Config.noToken.toNat % 2 ^ 32) q.tree stops left (q.tree.length + 1) 0 []
    let ds := treeDepths q.tree
    let at_ := fun (k : Nat) => if q.prompt ≠ 0 then kv + q.new else kv + ds.getD k 0 + 1
    let last := r.1.getLast?.map (·.2)
    ⟨r.1.map fun x => (at_ x.1, x.2, d.resultWord base g q.slot (2 * x.1 + 1) % 65536), at_ r.2.1,
      (match last with | some t => stops.contains t | none => false), !r.1.isEmpty && d.rqMax n ≤ d.rqGen n + r.1.length, r.2.2⟩

/-! ### Freezing (R222) -/

/-- Copy a block into a free one for a freeze. -/
def Dev.copyBlock (d : Dev) (p b : Nat) : Nat × Dev :=
  match d.allocBlock p with
  | some (f, d1) => (f, d1.setBytes (d1.blkT1 p f) (d1.bytes (blkUnit (d1.blk b) * 512) blockBytes))
  | none => (b, d)

def Dev.freezeBlock (d : Dev) (p b : Nat) : Nat × Dev :=
  let r := if 65535 ≤ d.refs b then d.copyBlock p b else (b, d.setRefs b (d.refs b + 1))
  let x := r.2.blk r.1
  (r.1, r.2.setBlk r.1 (mkBlk (blkT2 x) true (blkMoving x) (blkGen x) (blkUnit x)))

/-- Freeze the prefix of request n: the handle, 0 when no index or chain slot is free. -/
def Dev.freeze (d : Dev) (p c n : Nat) (g : Geo) : Nat × Dev :=
  let used := d.srv.handles.filterMap fun (q : Nat × Handle) => if q.2.st != .free && q.2.part == p then some q.2.chain else none
  let idx := (List.range (d.srv.handles.length + 1)).find? fun i => (d.handle i).st == .free
  let slot := (List.range ((d.rd (Reg.STEP_HCH p)).toNat / 2 ^ 48)).find? fun i => !used.contains i
  let len := d.rq n 32 4
  match idx, slot with
  | some i, some s =>
    if i < 2 ^ 20 then
      let bs := d.chainBlocks (d.rq n 272 8) (chainLen g len)
      let r := bs.foldl (fun (a : List Nat × Dev) b => let z := a.2.freezeBlock p b; (a.1 ++ [z.1], z.2)) ([], d)
      let gen := (d.handle i).gen
      let at_ := (d.rd (Reg.STEP_HCH p)).toNat % 2 ^ 48 + s * d.chainBytes c g
      let e := r.1.zipIdx.foldl (fun (e : Dev) b => e.setChainEntry at_ b.2 (blkGen (e.blk b.1)) b.1) r.2
      (handleVal p gen i, e.setHandle i ⟨.valid, p, gen, len, 0, (d.rd (Reg.MOLT_HDIG (d.ctxHandle p c))).toNat, g.tpb, g.planes, s, r.1, []⟩)
    else (0, d)
  | _, _ => (0, d)

/-! ### Output records (Table 7-13) -/

def outRecord (tok pos lp flags epoch : Nat) : List Byte := toLe 4 tok ++ toLe 4 pos ++ toLe 2 lp ++ toLe 2 flags ++ toLe 4 epoch

/-- Write record k of a request's ring. -/
def Dev.putRecord (d : Dev) (n k : Nat) (bs : List Byte) : Dev :=
  d.rdmaWrite (d.rqQp n) (d.rqOutVa n + 16 * (k % max 1 (d.rqOutSize n))) (d.rqOutKey n) bs

/-! ### The commit of a step -/

/-- The blocks that the attempt took for a request become its own (R217); a shared block that was copied loses a reference. -/
def Dev.keepBlocks (d : Dev) (c : Nat) (g : Geo) (q : SlotPlan) : Dev :=
  let mine := (d.att c).taken.filter fun t => t.entry == q.entry
  let d1 := mine.foldl (fun (e : Dev) t => if t.copied then e.dropRef (t.old % 2 ^ 24) else e) d
  (d1.setReserved q.entry (d1.reservedOf q.entry - mine.length)).setChainN q.entry (max (d1.chainNOf q.entry) (chainLen g (d1.rqKv q.entry + q.new)))

/-- Does a commit that brings KV_LEN to kv freeze the request's prefix (R222)? -/
def Dev.freezes (d : Dev) (n kv : Nat) : Bool := d.rqFreeze n && !d.rqFlag n flFrozen && d.rq n 32 4 ≤ kv

/-- The frozen prefix of a commit: its handle as a record, with flags for the last record of the commit where no token follows it, and an event. -/
def Dev.commitFreeze (d : Dev) (p c : Nat) (g : Geo) (n epoch last : Nat) : Dev :=
  if d.freezes n (d.rqKv n) then
    let r := d.freeze p c n g
    let d1 := ((r.2.setRq n 280 8 r.1).setRqFlag n flFrozen true).putRecord n (d.rqTail n) (outRecord (r.1 % 2 ^ 32) (r.1 / 2 ^ 32) 0 (64 + last) epoch)
    (d1.setRq n 320 8 (d.rqTail n + 1)).reqEvent p n 0x06 r.1
  else d

/-- Records of the emitted tokens from place `tail` on; `last` holds flag bits for the last one. -/
def Dev.tokenRecords (d : Dev) (n epoch tail last : Nat) (em : List (Nat × Nat × Nat)) : List (Nat × Nat × List Byte) :=
  let first := d.rqGen n == 0
  em.zipIdx.map fun x =>
    let flags := b2n (first && x.2 == 0) + b2n (x.2 != 0) * 16 + (if x.2 + 1 = em.length then last else 0)
    (n, tail + x.2, outRecord x.1.2.1 x.1.1 x.1.2.2 flags epoch)

/-- Write a record (entry, place, bytes) that the attempt has not sent already. -/
def Dev.sendRecord (d : Dev) (c : Nat) (r : Nat × Nat × List Byte) : Dev :=
  if (d.att c).records.contains r then d else (d.putRecord r.1 r.2.1 r.2.2).modAtt c fun t => { t with records := t.records ++ [r] }

/-- Flags of the last record of a slot's step: STOP, MAX_TOKENS, LAST, CANCEL_LATE (R230, R257). -/
def StepRes.lastFlags (r : StepRes) (cancel : Bool) : Nat :=
  let ends := r.stop || r.maxed
  b2n r.stop * 4 + b2n r.maxed * 8 + b2n (ends || cancel || r.noToken) * 2 + b2n (ends && cancel) * 32

/-- A commit publishes the tokens of a slot: their records, those changed since they were sent once more, OUT_TAIL, GEN_LEN and T_FIRST. -/
def Dev.putTokens (d : Dev) (c n epoch last : Nat) (em : List (Nat × Nat × Nat)) : Dev :=
  let tail := d.rqTail n
  let d1 := (d.tokenRecords n epoch tail last em).foldl (fun (e : Dev) r => e.sendRecord c r) d
  let d2 := (d1.setRq n 320 8 (tail + em.length)).setRq n 264 4 (d1.rqGen n + em.length)
  if d.rqGen n == 0 && !em.isEmpty then d2.setRq n 304 8 d2.sysTime.toNat else d2

/-- Count the emitted tokens (R227). -/
def Dev.countTokens (d : Dev) (n : Nat) (g : Geo) (em : List (Nat × Nat × Nat)) : Dev :=
  em.foldl (fun (e : Dev) x =>
    let a := e.rqCount n + 2 * x.2.1
    if x.2.1 < g.vocab then e.setNum a 2 (min 65535 (e.num a 2 + 1)) else e) d

/-- What a commit gives a slot from the results of its step. -/
def Dev.commitResult (d : Dev) (p c : Nat) (g : Geo) (epoch n : Nat) (r : StepRes) : Dev :=
  let cancel := d.rqFlag n flCancel
  let ends := r.stop || r.maxed
  let last := r.lastFlags cancel
  let d3 := (d.setRq n 268 4 r.kv).commitFreeze p c g n epoch (if r.emitted.isEmpty then last else 0)
  let d4 := (d3.putTokens c n epoch last r.emitted).countTokens n g r.emitted
  let d5 := match r.emitted.getLast? with
    | some x => { d4 with srv := { d4.srv with lastTok := sput (fun _ => 0) d4.srv.lastTok n x.2.1 } }
    | none => d4
  if ends then (if cancel then d5.setRqFlag n flLate true else d5).endReq p n rsCompleted (if r.stop then 1 else 2)
  else if cancel then d5.endReq p n rsCancelled 3
  else if d5.dueOf n = dueQp then d5.endReq p n rsFailed 8
  else if r.noToken then d5.endReq p n rsFailed 9
  else d5

/-- A computing slot at its commit keeps its blocks, and a PAUSED one runs on. -/
def Dev.commitBlocks (d : Dev) (p c : Nat) (g : Geo) (q : SlotPlan) : Dev :=
  let n := q.entry
  let d1 := d.keepBlocks c g q
  if d1.rqState n = rsPaused then ((d1.setRq n 256 1 rsActive).setRqFlag n flPausedRing false).reqEvent p n 0x05 0 else d1

/-- What a computing slot's commit brings. The sample of a slot of stage 0 comes later: what enters its KV without it counts now (R259). -/
def Dev.slotRes (d : Dev) (p c : Nat) (g : Geo) (q : SlotPlan) : StepRes :=
  let kv := d.rqKv q.entry
  if d.firstStage p c && q.samples then ⟨[], if q.tree.isEmpty then kv + q.new else kv, false, false, false⟩ else d.stepRes (d.serveBase p c g) g kv q

/-- A computing slot at its commit. -/
def Dev.commitSlot (d : Dev) (p c : Nat) (g : Geo) (epoch : Nat) (q : SlotPlan) : Dev :=
  (d.commitBlocks p c g q).commitResult p c g epoch q.entry (d.slotRes p c g q)

/-- Is the slot of a result that comes back still held by the same request? -/
def Dev.stillHeld (d : Dev) (c : Nat) (a : SlotAwait) : Bool :=
  (d.holds c).any (fun h => h.slot == a.plan.slot && h.entry == a.plan.entry) && sget (fun _ => 0) d.srv.slotGen (1024 * c + a.plan.slot) == a.slotGen

/-- The slots of the oldest committed step of stage 0, when the attempt consumes a handoff. -/
def Dev.backSlots (d : Dev) (p c : Nat) : List SlotAwait :=
  if d.firstStage p c && (d.handoff c).usable then (d.awaits c).headD [] else []

/-- The results of an earlier step that the handoff brought, and the step whose results are now to come. -/
def Dev.commitAwaits (d : Dev) (p c : Nat) (g : Geo) (epoch : Nat) : Dev :=
  if d.firstStage p c then
    let rest := if (d.handoff c).usable then (d.awaits c).drop 1 else d.awaits c
    let mine := ((d.att c).plan.filter (·.samples)).map fun q => ⟨q, d.rqKv q.entry, d.slotGenOf c q.slot⟩
    (d.backSlots p c).foldl (fun (e : Dev) a =>
      if e.stillHeld c a then e.commitResult p c g epoch a.plan.entry (e.stepRes (e.serveBase p c g) g a.kv a.plan) else e) (d.setAwaits c (rest ++ [mine]))
  else d

/-- The token records of the present attempt, as its results now stand: those of its computing slots, and at stage 0 those of the step whose results have come back. -/
def Dev.attemptRecords (d : Dev) (p c : Nat) (g : Geo) : List (Nat × Nat × List Byte) :=
  let recs := fun (n : Nat) (r : StepRes) =>
    d.tokenRecords n (d.att c).epoch (d.rqTail n + b2n (d.freezes n r.kv)) (r.lastFlags (d.rqFlag n flCancel)) r.emitted
  ((d.backSlots p c).flatMap fun a => if d.stillHeld c a then recs a.plan.entry (d.stepRes (d.serveBase p c g) g a.kv a.plan) else []) ++
    (d.att c).plan.flatMap fun q => recs q.entry (d.slotRes p c g q)

/-- A later stage advances the KV lengths of its own layers at its commit, from the slot records of the step (R259). What a speculating slot keeps is known at stage 0 alone, whose next table
gives its length. -/
def Dev.advanceStage (d : Dev) (p c : Nat) (g : Geo) : Dev :=
  if d.laterStage p c then
    (d.slotViews p c g).foldl (fun (e : Dev) q => { e with srv := { e.srv with
      stageKv := sput (fun _ => 0) e.srv.stageKv (1024 * c + q.slot) (if q.nodes = 1 then q.kv + q.new else q.kv) } }) d
  else d

/-- A request becomes PAUSED for want of ring room (R231). -/
def Dev.pauseReq (d : Dev) (p n : Nat) : Dev :=
  let d1 := ((d.setRq n 256 1 rsPaused).setRqFlag n flPausedRing true).reqEvent p n 0x03 0
  { d1 with srv := { d1.srv with pausedAt := sput (fun _ => 0) d1.srv.pausedAt n d1.ps } }

/-- A slot-holding request that did not compute: cancel, KV loss, QP error, suspension, pause. -/
def Dev.commitHolder (d : Dev) (p c n : Nat) : Dev :=
  if d.rqFlag n flCancel then d.endReq p n rsCancelled 3
  else if d.dueOf n = dueKv then d.endReq p n rsFailed 7
  else if d.dueOf n = dueQp then d.endReq p n rsFailed 8
  else if d.dueOf n = dueSuspend then (((d.setDue n 0).dropSlot p n).setRq n 256 1 rsSuspended).reqEvent p n 0x04 0
  else if (d.att c).pauses.contains n then d.pauseReq p n
  else d

/-- The admissions of the attempt are committed (R216, R217). -/
def Dev.commitAdmit (d : Dev) (p c : Nat) (g : Geo) (q : Nat × Nat) : Dev :=
  let n := q.2
  let gen := (sget (fun _ => 0) d.srv.slotGen (1024 * c + q.1) + 1) % 65536
  let d1 : Dev := { d with srv := { d.srv with slotGen := sput (fun _ => 0) d.srv.slotGen (1024 * c + q.1) gen } }
  let need := d1.reserveOf c n (d1.prefixLenOf n) g
  let d2 := if d1.rqReserved n = 0 then (d1.setReserved n need).setRq n 328 4 need else d1
  (((d2.setRq n 256 1 rsActive).setRq n 260 2 q.1).setRq n 262 2 gen).setHolds c (d2.holds c ++ [⟨q.1, n⟩]) |>.reqEvent p n 0x01 0

/-- Entries of p that the commit of loop c changed take EPOCH and T_LAST, and their committed copies take the working ones (R246). -/
def Dev.publish (d : Dev) (p c epoch : Nat) : Dev :=
  (List.range (d.reqCount p)).foldl (fun (e : Dev) i =>
    let n := e.reqFirst p + i
    if (e.rqLoop n == c || e.num (reqComm n + 2) 1 == c) && e.bytes (reqWork n) 512 != e.bytes (reqComm n) 512 then
      (if e.rqState n = rsFree then e else (e.setRq n 288 8 epoch).setRq n 312 8 e.sysTime.toNat).commitReq n
    else e) d

/-- TAIL words of the rings that advanced, after the commit (R230, R248). -/
def Dev.writeTails (d : Dev) (plan : List SlotPlan) (old : List (Nat × Nat)) : Dev :=
  plan.foldl (fun (e : Dev) q =>
    let n := q.entry
    if old.contains (n, e.rqTail n) then e
    else e.rdmaWrite (e.rqQp n) (e.rqOutVa n + 16 * e.rqOutSize n + 8) (e.rqOutKey n) (toLe 8 (e.rqTail n))) d

/-- What a commit does to the requests of a loop: admissions, then every slot that holds a request. -/
def Dev.commitServing (d : Dev) (p c : Nat) (g : Geo) (epoch : Nat) : Dev :=
  let plan := (d.att c).plan
  let d1 := (d.att c).admits.foldl (fun (e : Dev) q => e.commitAdmit p c g q) (d.commitAwaits p c g epoch)
  (d1.holds c).foldl (fun (e : Dev) h =>
    match plan.find? (fun q => q.entry == h.entry) with
    | some q => e.commitSlot p c g epoch q
    | none => e.commitHolder p c h.entry) d1

/-- Slot shares of a commit for accounting (R313); a member or later stage takes each client from word 19 of its slot record. -/
def Dev.shares (d : Dev) (p c : Nat) (g : Geo) : List SlotShare :=
  (d.slotViews p c g).map fun q => ⟨q.slot, if d.tableCtx p c then d.recWord p c g q.slot 19 else d.rq q.entry 0 2, q.new⟩

/-- A STOPPING loop ends once no slot holds a request; what awaited its commits shows then. -/
def Dev.showAll (d : Dev) (p c : Nat) : Dev :=
  ((d.loopReqs p c).foldl (fun (e : Dev) n => e.show p n) d).flushLater p c 0
def Dev.stopIfEmpty (d : Dev) (p c : Nat) : Dev :=
  if d.loopState c = lpStopping ∧ (d.holds c).isEmpty ∧ (d.phase c = phIdle) then
    ((d.setLoop c lpStopped).modAtt c fun t => { t with mustReplay := false, admits := [] }).showAll p c
  else d

/-- The counters of a commit (R246, R251); failures at one tile are counted anew (R255). -/
def Dev.countCommit (d : Dev) (c epoch : Nat) : Dev :=
  (((d.wr (Reg.STEP_EPOCH c) (BitVec.ofNat 64 epoch)).bump (Reg.STEP_COMMITS c) 1).wf (Reg.STEP_PHASE c) Fld.STEP_PHASE_FAILS 0).modAtt c
    fun t => { t with lastCommitted := epoch, lastTile := none, tileFails := 0 }

/-- An empty commit (R254): a new epoch, and the changes of slot-holding requests that need no computing slot. -/
def Dev.emptyCommit (d : Dev) (p c : Nat) : Dev :=
  let epoch := (d.att c).epoch + 1
  let was := d.phase c
  let d1 := (d.setPhase c phCommit).modAtt c fun t => { t with epoch := epoch, pauses := [] }
  let d2 := (d1.holds c).foldl (fun (e : Dev) h => e.commitHolder p c h.entry) d1
  let d3 := ((d2.countCommit c epoch).chargeCommit p c []).publish p c epoch
  ((d3.setPhase c was).flushLater p c epoch).stopIfEmpty p c

end Sys2Proof.Machine
end

