-- ==== Sys2Proof/Machine/Sched.lean ====
section
/-!
DEFINITION. The scheduler (R287 to R301): contexts, what blocks them, swaps and the choice at a step boundary, the start of an attempt (R206, R207, R216 to
R218, R237, R241), empty commits (R254), pre-emption and deadlines (R297 to R300), and serving-loop commands (R205, R235, R253), doorbells (R211) and polls of
rings (R231, R233).
-/
namespace Sys2Proof.Machine

/-! ### Contexts and residency (R287 to R289) -/

def Dev.enabled (d : Dev) (c : Nat) : Bool := d.rf (Reg.SCHED_CTX c) Fld.SCHED_CTX_ENABLE == 1
/-- The contexts of a partition. -/
def Dev.partCtxs (d : Dev) (p : Nat) : List Nat := filterBelow 64 fun c => d.partOfCtx c == some p
/-- The context in resident slot k of p. -/
def Dev.residentAt (d : Dev) (p k : Nat) : Option Nat :=
  match sget (fun _ => 0) d.sch.resident (8 * p + k) with
  | 0 => none
  | c + 1 => some c
def Dev.setResident (d : Dev) (p k : Nat) (c : Option Nat) : Dev :=
  { d with sch := { d.sch with resident := sput (fun _ => 0) d.sch.resident (8 * p + k) (match c with | some c => c + 1 | none => 0) } }
def Dev.slotOfCtx (d : Dev) (p c : Nat) : Option Nat := (List.range 8).find? fun k => d.residentAt p k == some c
def Dev.residents (d : Dev) (p : Nat) : List Nat := (List.range 8).filterMap fun k => d.residentAt p k
/-- The priority of a context that counts since the last step boundary. -/
def Dev.prioOf (d : Dev) (c : Nat) : Nat := sget (fun _ => 0) d.sch.prio c
def Dev.latchPrio (d : Dev) (c : Nat) : Dev :=
  { d with sch := { d.sch with prio := sput (fun _ => 0) d.sch.prio c (d.rf (Reg.SCHED_CTX c) Fld.SCHED_CTX_PRIO) } }
def Dev.everStarted (d : Dev) (c : Nat) : Bool := sget (fun _ => false) d.sch.started c
def Dev.lastStartOf (d : Dev) (c : Nat) : Nat := sget (fun _ => 0) d.sch.lastStart c
def Dev.blockedSince (d : Dev) (c : Nat) : Nat := sget (fun _ => 0) d.sch.blockedAt c

/-! ### Deadlines (R299) -/

/-- The clock of the origin comb of a context's image, in kHz. -/
def Dev.originKhz (d : Dev) (p c : Nat) : Nat := max 1 (match d.ctxImg p c with | some i => d.combKhz i.origin | none => 1)
def Dev.deadline (d : Dev) (p c : Nat) : Nat :=
  match (d.ctxImg p c).bind d.wcet with
  | some (w, f) => ceilDiv (w * f * (100 + (d.rd (Reg.STEP_DEADLINE_MARGIN c)).toNat % 1024)) 100000
  | none => 0

/-! ### Launches that hold steps (R165, R418) -/

def Dev.slotState (d : Dev) (n : Nat) : Nat := d.rf (Reg.TIME_LAUNCH_STAT n) Fld.TIME_LAUNCH_STAT_STATE
def Dev.slotAct (d : Dev) (n : Nat) (f : Fld) : Nat := d.rf (Reg.TIME_LAUNCH_ACT n) f
def Dev.slotT (d : Dev) (n : Nat) : Nat := (d.rd (Reg.TIME_LAUNCH_T n)).toNat
/-- Launch actions (Table 13-8) and slot states. -/
def laMolt : Nat := 1
def laStart : Nat := 2
def laColl : Nat := 3
def laPower : Nat := 4
def laModel : Nat := 5
def lsArmed : Nat := 1
def lsReady : Nat := 2
def lsHeld : Nat := 3
def lsFired : Nat := 4
def lsRefused : Nat := 5
def lsCancelled : Nat := 6
def slotLive (st : Nat) : Bool := st == lsArmed || st == lsReady || st == lsHeld

/-- The guard of a scope in ticks (Table 5-10); none for device scope. -/
def guardOf (scope : Nat) : Nat := if scope = 1 then 125000 else if scope = 2 then 2500000 else if scope = 3 then 25000000 else 0
/-- 64 µs in ticks. -/
def preloadTicks : Nat := 80000

/-- Does slot n hold context c of p: would the deadline of an attempt that started now fall after T − G − 64 µs? -/
def Dev.launchHolds (d : Dev) (p c n : Nat) : Bool :=
  let a := d.slotAct n Fld.TIME_LAUNCH_ACT_ACTION
  slotLive (d.slotState n) && d.slotAct n Fld.TIME_LAUNCH_ACT_PART == p &&
    (a == laMolt || a == laModel || ((a == laStart || a == laColl) && d.slotAct n Fld.TIME_LAUNCH_ACT_CTX == c)) &&
    d.slotT n < d.sysTime.toNat + d.deadline p c * 1250000 / d.originKhz p c + guardOf (d.slotAct n Fld.TIME_LAUNCH_ACT_SCOPE) + preloadTicks
def Dev.launchHold (d : Dev) (p c : Nat) : Bool := (List.range 32).any fun n => d.launchHolds p c n

/-! ### Runnable and blocked (R290) -/

def Dev.setHandoff (d : Dev) (c : Nat) (h : Handoff) : Dev := { d with lnk := { d.lnk with handoff := sput (fun _ => Handoff.zero) d.lnk.handoff c h } }
/-- Does a stage wait for the acknowledgement of two handoffs, or a stage after stage 0 for a handoff (R258)? -/
def Dev.stageWait (d : Dev) (p c : Nat) : Bool :=
  (d.hasNext c && 2 + (d.handoff c).acked ≤ (d.handoff c).sent) || (d.laterStage p c && !(d.handoff c).usable)

/-- The admissions of the next attempt. -/
def Dev.nextAdmits (d : Dev) (p c : Nat) : List (Nat × Nat) := match d.geo p c with | some g => d.admissions p c g | none => []
/-- Has a START come, and every serving tile that precedes it? -/
def Dev.startReady (d : Dev) (c : Nat) : Bool :=
  match (d.att c).pendStart with
  | some s => let q := sget (fun _ => (0, 0)) d.lnk.served c; s.tiles == 0 || (q.1 == s.epoch && s.tiles ≤ q.2)
  | none => false

/-- Is there work: a slot that would compute, a request to admit, a change due, a handoff to consume, or on a member a START? -/
def Dev.hasWork (d : Dev) (p c : Nat) : Bool :=
  if d.memberCtx c then d.startReady c
  else d.anyComputes c (d.nextAdmits p c) || !(d.nextAdmits p c).isEmpty || d.changeDue c || (d.hasPrev c && (d.handoff c).usable)

/-- Why a context could not start an attempt now (Table 10-2); none when it is runnable. -/
def Dev.blockReason (d : Dev) (p c : Nat) : Option Nat :=
  if d.loopState c = lpStopped then some 0
  else if d.loopState c = lpHalted then some 1
  else if d.phase c = phHeld then some 2
  else if d.stageWait p c then some 3
  else if d.launchHold p c then some 4
  else if !d.hasWork p c then some 5
  else none
def Dev.runnable (d : Dev) (p c : Nat) : Bool := d.enabled c && d.blockReason p c == none

/-- Does an attempt of the partition lie in a phase other than IDLE and HELD? -/
def Dev.attemptIn (d : Dev) (p : Nat) : Bool := (d.partCtxs p).any fun c => d.phase c != phIdle && d.phase c != phHeld

/-! ### Pre-emption requests (R296, R297) -/

/-- Is the attempt of a fired launch of this context still to start (R418)? -/
def LaunchSt.zero : LaunchSt := ⟨[], [], [], false, false, 0⟩
def Dev.launchSt (d : Dev) (n : Nat) : LaunchSt := sget (fun _ => LaunchSt.zero) d.tim.launch n
def Dev.setLaunchSt (d : Dev) (n : Nat) (x : LaunchSt) : Dev := { d with tim := { d.tim with launch := sput (fun _ => LaunchSt.zero) d.tim.launch n x } }
def Dev.owedSlot (d : Dev) (p c : Nat) : Option Nat :=
  (List.range 32).find? fun n => (d.launchSt n).owed && d.slotAct n Fld.TIME_LAUNCH_ACT_PART == p && d.slotAct n Fld.TIME_LAUNCH_ACT_CTX == c

/-- Rank 0 goes ahead of every PRIO: a START that arrived, an owed launch. -/
def Dev.urgent (d : Dev) (p c : Nat) : Bool := d.runnable p c && ((d.memberCtx c && d.startReady c) || (d.owedSlot p c).isSome)

/-- Does context x ask for the pre-emption of c? A START never pre-empts an attempt of a brood-scoped context. -/
def Dev.asksPreempt (d : Dev) (p c x : Nat) : Bool :=
  x != c && ((d.urgent p x && !(d.memberCtx x && d.broodCtx c)) ||
    (d.runnable p x && !d.memberCtx x && (d.slotOfCtx p x).isSome && d.prioOf x < d.prioOf c))

/-- The step counter of p in millionths of a cycle. -/
def Dev.stepCount (d : Dev) (p : Nat) : Nat := sget (fun _ => 0) d.sch.counter p
def Dev.setCompare (d : Dev) (p : Nat) (v : Option Nat) : Dev := { d with sch := { d.sch with compare := sput (fun _ => none) d.sch.compare p v } }

/-- Arm the pre-emption timer when a request arises; a second request does not re-arm it. -/
def Dev.checkPreempt (d : Dev) (p : Nat) : Dev :=
  match d.curCtx p with
  | some c =>
    if d.executing c ∧ d.rf (Reg.SCHED_STAT p) Fld.SCHED_STAT_PREEMPT_PENDING = 0 ∧ (d.partCtxs p).any (fun x => d.asksPreempt p c x) then
      (d.wf (Reg.SCHED_STAT p) Fld.SCHED_STAT_PREEMPT_PENDING 1).setCompare p
        (some (d.stepCount p + ceilDiv (d.rf (Reg.SCHED_PMAX p) Fld.SCHED_PMAX_PREEMPT_MAX * d.originKhz p c) 1000 * 1000000))
    else d
  | none => d

/-- The same of every partition. -/
def Dev.checkPreempts (d : Dev) : Dev := (List.range 16).foldl (fun (e : Dev) p => e.checkPreempt p) d

/-- PREEMPT_TIMER: when the deadline is reached first, or in the same cycle, it decides (R300). -/
def opPreemptTimer (p : Nat) (d : Dev) : Dev :=
  match d.curCtx p, sget (fun _ => none) d.sch.compare p with
  | some c, some x =>
    let dl := (d.rd (Reg.SCHED_CDL c)).toNat * 1000000
    if d.executing c ∧ x ≤ d.stepCount p ∧ ¬ (dl ≤ d.stepCount p ∧ dl / 1000000 ≤ x / 1000000) then
      (d.setCompare p none).abortCtx p c ⟨0x40, 0, false, d.pos, 0⟩
    else d
  | _, _ => d

/-- STEP_DEADLINE: the counter runs until the device's vote. -/
def opStepDeadline (p : Nat) (d : Dev) : Dev :=
  match d.curCtx p with
  | some c =>
    let dl := (d.rd (Reg.SCHED_CDL c)).toNat
    if d.phase c = phExecute ∧ dl * 1000000 ≤ d.stepCount p then d.stepFault p (some c) (notice cDeadline 0x0E01 (c * 2 ^ 58 + dl)) else d
  | none => d

/-! ### The choice (R291, R292) -/

/-- Does x go before y: PRIO, oldest START with a context never started first, lowest index? -/
def Dev.prefers (d : Dev) (x y : Nat) : Bool :=
  let key := fun (c : Nat) => [d.prioOf c, b2n (d.everStarted c), d.lastStartOf c, c]
  decide (key x < key y)
def Dev.best (d : Dev) (l : List Nat) : Option Nat :=
  match l with
  | [] => none
  | x :: xs => some (xs.foldl (fun a b => if d.prefers b a then b else a) x)

/-- Swapped-out contexts that could run. -/
def Dev.swappedRunnable (d : Dev) (p : Nat) : List Nat := (d.partCtxs p).filter fun c => d.runnable p c && (d.slotOfCtx p c).isNone

/-- The victim of a swap: blocked before runnable, highest PRIO, longest blocked or longest since its START, highest index. -/
def Dev.victim (d : Dev) (p : Nat) (l : List Nat) : Option Nat :=
  let key := fun (c : Nat) =>
    let blocked := !d.runnable p c
    [b2n (!blocked), 7 - d.prioOf c, if blocked then d.blockedSince c else b2n (d.everStarted c), if blocked then 0 else d.lastStartOf c, 64 - c]
  match l with
  | [] => none
  | x :: xs => some (xs.foldl (fun a b => if decide (key b < key a) then b else a) x)

def Dev.setChosen (d : Dev) (p : Nat) (c : Option Nat) : Dev :=
  { d with sch := { d.sch with chosen := sput (fun _ => 0) d.sch.chosen p (match c with | some c => c + 1 | none => 0) } }
def Dev.chosenOf (d : Dev) (p : Nat) : Option Nat :=
  match sget (fun _ => 0) d.sch.chosen p with
  | 0 => none
  | c + 1 => some c

/-- A context leaves its resident slot. -/
def Dev.evict (d : Dev) (p c : Nat) : Dev :=
  let d1 := match d.slotOfCtx p c with | some k => d.setResident p k none | none => d
  let d2 := if d1.chosenOf p = some c then d1.setChosen p none else d1
  if d2.curCtx p = some c then d2.wf (Reg.SCHED_STAT p) Fld.SCHED_STAT_CUR_VALID 0 else d2

/-- At most one swap; a victim that was CURRENT is so no longer (R289). -/
def Dev.swap (d : Dev) (p : Nat) : Dev :=
  let res := d.residents p
  let cands := d.swappedRunnable p
  let free := (List.range 8).find? fun k => (d.residentAt p k).isNone
  let count := fun (e : Dev) => e.bump (Reg.SCHED_SWAPS p) 1
  let urgents := cands.filter fun c => d.urgent p c
  let pick := match d.best urgents with | some x => some x | none => d.best cands
  match pick with
  | none => d
  | some x =>
    match free with
    | some k => count (d.setResident p k (some x))
    | none =>
      let blocked := res.all fun c => !d.runnable p c
      let vs := if blocked ∨ d.urgent p x then res else res.filter fun c => d.prioOf x < d.prioOf c
      match d.victim p vs with
      | some v => match d.slotOfCtx p v with | some k => count ((d.evict p v).setResident p k (some x)) | none => d
      | none => d

/-- The choice among resident runnable contexts: STARTs and owed launches first, then R291. A member never chooses a brood-scoped context by itself. -/
def Dev.choose (d : Dev) (p : Nat) : Option Nat :=
  let run := (d.residents p).filter fun c => d.runnable p c
  match d.best (run.filter fun c => d.urgent p c) with
  | some x => some x
  | none => d.best (run.filter fun c => !d.memberCtx c)

/-- Note since when each context of p is blocked. -/
def Dev.noteBlocked (d : Dev) (p : Nat) : Dev :=
  (d.partCtxs p).foldl (fun (e : Dev) c =>
    let t := if d.enabled c && !d.runnable p c then (if d.blockedSince c = 0 then d.ps else d.blockedSince c) else 0
    { e with sch := { e.sch with blockedAt := sput (fun _ => 0) e.sch.blockedAt c t } }) d

def Dev.enteringTo (d : Dev) (k : Nat) : Option Nat := sget (fun _ => none) d.clk.entering k
def Dev.wakingFrom (d : Dev) (k : Nat) : Option Nat := sget (fun _ => none) d.clk.waking k

/-- Comb k in RET or OFF begins to wake; from OFF its PLL is enabled at the comb's target. A wake during entry follows the entry (R403). -/
def Dev.beginWake (d : Dev) (k : Nat) : Dev :=
  match d.enteringTo k with
  | some _ => if d.clk.wakeNext.contains k then d else { d with clk := { d.clk with wakeNext := d.clk.wakeNext ++ [k] } }
  | none =>
    if d.combPs k < 2 ∧ (d.wakingFrom k).isNone then
      let d1 := { d with clk := { d.clk with waking := sput (fun _ => none) d.clk.waking k (some (d.combPs k)) } }.wf (Reg.CLK_COMB_PS k) Fld.CLK_COMB_PS_MOVING 1
      if d.combPs k = 0 then
        d1.upd [(Reg.CLK_PLL_STAT k, Fld.CLK_PLL_STAT_ON, 1),
          (Reg.CLK_PLL_STAT k, Fld.CLK_PLL_STAT_TARGET_MHZ, match d.ownerOf k with | some p => stepMhz (d.target p) | none => 1250)]
      else d1
    else d

/-- Comb k is OFF: no PLL, no clock (Table 13-4). -/
def Dev.combOff (d : Dev) (k : Nat) : Dev :=
  let d1 := d.upd [(Reg.CLK_COMB_PS k, Fld.CLK_COMB_PS_STATE, 0), (Reg.CLK_COMB_PS k, Fld.CLK_COMB_PS_MOVING, 0), (Reg.CLK_MUX_STAT k, ⟨0, 4⟩, 2),
    (Reg.CLK_PLL_STAT k, cnt64, 0)]
  { d1 with clk := { d1.clk with
    entering := sput (fun _ => none) d1.clk.entering k none, waking := sput (fun _ => none) d1.clk.waking k none, wakeNext := d1.clk.wakeNext.erase k,
    muxReq := sput (fun _ => none) d1.clk.muxReq k none } }

/-- Combs in RET or OFF of a partition that runs again are asked to wake. -/
def Dev.wakeCombs (d : Dev) (p : Nat) : Dev :=
  (d.partCombs p).foldl (fun (e : Dev) k => e.beginWake k) { d with clk := { d.clk with idleSince := sput (fun _ => none) d.clk.idleSince p none, retSince := sput (fun _ => none) d.clk.retSince p none } }

/-- The comb of a slice group, and whether a slice runs on a comb of p or is due there (R474, R476). -/
def groupComb (g : Nat) : Nat := g % 16
def Dev.sliceOn (d : Dev) (p : Nat) : Bool := match d.bist.slice with | some s => (d.partCombs p).contains (groupComb s.group) | none => false
def Dev.sliceDue (d : Dev) (p : Nat) : Bool :=
  d.rf Reg.BIST_STAT Fld.BIST_STAT_DUE == 1 && d.ownerOf (groupComb (d.rf Reg.BIST_STAT Fld.BIST_STAT_NEXT)) == some p

/-- From T − G − 64 µs until T an armed timed molt has the shadow banks (Table 10-5). -/
def Dev.timedShadow (d : Dev) (p : Nat) : Bool :=
  (List.range 32).any fun n =>
    let a := d.slotAct n Fld.TIME_LAUNCH_ACT_ACTION
    slotLive (d.slotState n) && d.slotAct n Fld.TIME_LAUNCH_ACT_PART == p && (a == laMolt || a == laModel) &&
      d.slotT n ≤ d.sysTime.toNat + guardOf (d.slotAct n Fld.TIME_LAUNCH_ACT_SCOPE) + preloadTicks

/-- Is a MOLT or MODEL_SWITCH launch of p armed (R476, R477)? -/
def Dev.timedMolt (d : Dev) (p : Nat) : Bool :=
  (List.range 32).any fun n =>
    let a := d.slotAct n Fld.TIME_LAUNCH_ACT_ACTION
    slotLive (d.slotState n) && d.slotAct n Fld.TIME_LAUNCH_ACT_PART == p && (a == laMolt || a == laModel)

def Dev.combsAwake (d : Dev) (p : Nat) : Bool := (d.partCombs p).all fun k => 2 ≤ d.combPs k

/-- The molt that brings the chosen context's image: to its instar 0, with a drain that completes at once, because nothing runs. It waits until the
combs are awake (R403) and no timed molt has the shadow. -/
def Dev.switchMolt (d : Dev) (p c : Nat) : Dev :=
  let h := d.rf (Reg.SCHED_CTX c) Fld.SCHED_CTX_HANDLE
  if d.activeHandle p = some (16 * p + h) ∨ !d.combsAwake p ∨ d.timedShadow p ∨ d.sliceOn p then d
  else if d.moltState p = mDraining ∧ (d.molt p).target = some (h, 0) then d
  else
    let d1 := d.preload p h 0
    let d2 := d1.setMolt p { d1.molt p with target := some (h, 0) }
    if d2.shadowHolds p h 0 then
      let d3 := d2.startDrain p
      d3.setMolt p { d3.molt p with barrier := true }
    else d2

/-- Seated requests that lack ring room become PAUSED at the commit of the step (R231). -/
def Dev.toPause (d : Dev) (c : Nat) : List Nat :=
  ((d.holds c).map (·.entry)).filter fun n => d.rqState n == rsActive && !d.rqFlag n flCancel && d.dueOf n == 0 && !d.hasRoom c n

/-- HEAD of the ring of every ACTIVE request that keeps its slot from computing is read before a step could start, every 100 µs while none starts (R231). -/
def Dev.pollHeads (d : Dev) (c : Nat) : Dev :=
  if d.loopState c = lpRunning ∨ d.loopState c = lpStopping then
    (d.toPause c).foldl (fun (e : Dev) n =>
      if !e.reading (.ringHead n) && sget (fun _ => 0) e.srv.polledAt n + 100 * us ≤ e.ps then e.readHead n else e) d
  else d

/-- STEP_BOUNDARY. -/
def opStepBoundary (p : Nat) (d : Dev) : Dev :=
  if d.partUsable p ∧ !d.attemptIn p ∧ d.rf Reg.PWR_STAT Fld.PWR_STAT_EMERG = 0 ∧ d.moltState p ≠ mAborting then
    let pend := d.rf (Reg.SCHED_STAT p) Fld.SCHED_STAT_PREEMPT_PENDING
    let d1 := if pend = 1 then ((d.wf (Reg.SCHED_STAT p) Fld.SCHED_STAT_PREEMPT_PENDING 0).bump (Reg.SCHED_PREEMPTS p) 1).setCompare p none else d
    let cs := d1.partCtxs p
    let d2 := cs.foldl (fun (e : Dev) c => ((e.stopIfEmpty p c).readyPrefixes p c).latchPrio c) ((d1.takeFixed p).goOnPromoting p)
    let d3 := (cs.foldl (fun (e : Dev) c => e.pollHeads c) (d2.noteBlocked p)).swap p
    match d3.choose p with
    | some c =>
      let keep := d3.chosenOf p == some c
      let d4 := d3.setChosen p (some c)
      let d5 := if keep then d4 else { d4 with sch := { d4.sch with switchAt := sput (fun _ => 0) d4.sch.switchAt p d4.ps } }
      ((d5.stepReads c (d5.nextAdmits p c)).wakeCombs p).switchMolt p c
    | none =>
      let d4 := d3.setChosen p none
      match sget (fun _ => none) d4.clk.idleSince p with
      | some _ => d4
      | none => { d4 with clk := { d4.clk with idleSince := sput (fun _ => none) d4.clk.idleSince p (some d4.ps) } }
  else d

/-! ### The start of an attempt -/

/-- SQ.STEP returns with the epoch on every sequencer of p that waits for it. -/
def Dev.giveEpoch (d : Dev) (p epoch : Nat) : Dev :=
  (d.partCombs p).foldl (fun e k => (List.range 4).foldl (fun (e : Dev) i =>
    let s := e.seq k i
    match s.wait with
    | .step rd =>
      e.setSeq k i { s with wait := .none, pc := s.pc + 4, stepEpoch := epoch, x := if rd = 0 then s.x else sput (fun _ => 0#64) s.x rd (BitVec.ofNat 64 epoch) }
    | _ => e) e) d

/-- At the start of an attempt no summary register is valid (R36), no comb has recorded a stall, and issues that have ended are forgotten. -/
def Dev.freshStep (d : Dev) (p : Nat) : Dev :=
  let ks := d.partCombs p
  let dull := fun (m : Store SumReg) => (m.map fun (q : Nat × SumReg) => (q.1, { q.2 with valid := false, empty := false })).filter fun q => q.2 != ⟨0, false, false⟩
  let d1 := d.mapCells (fun c => ks.contains (combOf c)) fun x => { x with tcs := x.tcs.map fun (q : Nat × Tc) => (q.1, { q.2 with sums := dull q.2.sums }) }
  { d1 with
    lnk := { d1.lnk with groups := d1.lnk.groups.map fun (q : Nat × CollGroup) => (q.1, if q.1 / 256 = p then { q.2 with issued := 0 } else q.2) },
    fab := { d1.fab with
    stalled := d1.fab.stalled.filter (fun k => !ks.contains k),
    issues := d1.fab.issues.filter (fun (i : Issue) => !(ks.contains i.comb && i.ended && i.spilled.isEmpty)),
    seqs := d1.fab.seqs.map fun (q : Nat × SeqSt) => if ks.contains (q.1 / 4) then (q.1, { q.2 with q := dull q.2.q }) else q } }

/-- Serving tiles of a step. -/
def serveCount (g : Geo) : Nat := 32 + 16 * g.slots

/-- The lead sends each member the serving tables, then START (R218, R241). -/
def Dev.sendStarts (d : Dev) (p c : Nat) (g : Geo) (epoch : Nat) : Dev :=
  let base := d.serveBase p c g
  let set := (sget (fun _ => []) d.lnk.participants c).foldl (fun a q => a + 2 ^ q) 0
  let dig := (d.rd (Reg.MOLT_HDIG (d.ctxHandle p c))).toNat
  (d.partners c).foldl (fun (e : Dev) q =>
    let e1 := (List.range (serveCount g)).foldl (fun (f : Dev) t =>
      f.send 0x20 (f.posNode q) { f.ctxPkt c epoch [(34, 2, t)] with payload := f.bytes (serveTile base t) tileWire }) e
    e1.send 0x21 (e1.posNode q) (e1.ctxPkt c epoch [(33, 1, set), (36, 2, serveCount g), (40, 8, (e1.rd (Reg.STEP_EPOCH c)).toNat), (48, 8, dig)])) d

/-- The registers and counters of a START (R299). -/
def Dev.markStart (d : Dev) (p c : Nat) : Dev :=
  let d1 := d.upd [(Reg.SCHED_STAT p, Fld.SCHED_STAT_CUR_VALID, 1), (Reg.SCHED_STAT p, Fld.SCHED_STAT_CUR, c)]
  let sw := min ((d.ps - sget (fun _ => 0) d.sch.switchAt p) / 10000) 0xFFFFFFFF
  let d2 := (d1.wr (Reg.SCHED_CDL c) (BitVec.ofNat 64 (min (d.deadline p c) 0xFFFFFFFF))).wr (Reg.SCHED_CSWITCH c) (BitVec.ofNat 64 sw)
  let d3 := d2.setPhase c phExecute
  { d3 with sch := { d3.sch with
    lastStart := sput (fun _ => 0) d3.sch.lastStart c d3.ps, started := sput (fun _ => false) d3.sch.started c true,
    counter := sput (fun _ => 0) d3.sch.counter p 0, compare := sput (fun _ => none) d3.sch.compare p none, chosen := sput (fun _ => 0) d3.sch.chosen p 0 } }

/-- A handoff that is bad is found when an attempt consumes it (R351). -/
def Dev.checkHandoff (d : Dev) (p c : Nat) : Dev :=
  match (d.handoff c).consume with
  | some n => if d.hasPrev c ∧ (d.handoff c).bad.contains n then d.stepFault p (some c) (notice cBounds 0x0F13 n) else d
  | none => d

/-- A fault after the last decision aborts this attempt (R243). -/
def Dev.takePend (d : Dev) (p c : Nat) : Dev :=
  match (d.att c).pend with
  | some a => (d.modAtt c fun t => { t with pend := none }).abortCtx p c a
  | none => d

/-- What a fresh attempt's record holds. -/
def Attempt.fresh (a : Attempt) (epoch now : Nat) (adm : List (Nat × Nat)) (pauses : List Nat) : Attempt :=
  { a with
    epoch := epoch, admits := adm, plan := [], votes := [], mvotes := [], acks := [], decideSent := false, acked := false, tc := 0,
    decided := false, applying := false, pendStart := none, startAt := now, voteAt := 0, taken := [], shared := [], pauses := pauses }

/-- The attempt of a context starts. -/
def Dev.startAttempt (d : Dev) (p c : Nat) (g : Geo) (i : Img) : Dev :=
  let member := d.memberCtx c
  let epoch := match (d.att c).pendStart with | some s => if member then s.epoch else (d.att c).epoch + 1 | none => (d.att c).epoch + 1
  let adm := if member then [] else d.nextAdmits p c
  let owed := d.owedSlot p c
  let d0 := match owed with
    | some n => (d.setLaunchSt n { d.launchSt n with owed := false }).modAtt c fun t => { t with launchT := some (d.slotT n) }
    | none => d
  let d0' : Dev := { d0 with bist := { d0.bist with gapAsk := d0.bist.gapAsk.erase c } }
  let d1 := (d0'.modAtt c fun t => t.fresh epoch d.ps adm (if member then [] else d.toPause c)).markStart p c
  let d2 := if member then d1 else adm.foldl (fun (e : Dev) q => e.admitWork p c g q.2) d1
  let plan := if member then [] else d2.stepPlan c adm
  let d3 := (plan.foldl (fun (e : Dev) q => e.growChain p c g q) d2).modAtt c fun t => { t with plan := plan }
  let d4 := if d3.tableCtx p c then d3 else d3.writeTables p c g plan epoch
  let d5 := (d4.writeBounds i g (d4.slotViews p c g) epoch).freshStep p
  let d6 := if d5.broodCtx c && !member then d5.sendStarts p c g epoch else d5
  (((d6.giveEpoch p epoch).checkHandoff p c).takePend p c).checkPreempt p

/-- May the chosen context start: its image active, no molt, no slice, combs awake and none with a hung multiplexer (R250), host reads done, and on a lead 5 µs after its last ABORT(E)? -/
def Dev.mayStart (d : Dev) (p c : Nat) : Bool :=
  d.partUsable p && d.chosenOf p == some c && d.runnable p c && !d.attemptIn p && d.phase c == phIdle && d.rf Reg.PWR_STAT Fld.PWR_STAT_EMERG == 0 &&
    sget (fun _ => 0) d.bist.gapTo p ≤ d.ps && d.combsAwake p && !d.sliceOn p &&
    ((d.partCombs p).all fun k => d.rf (Reg.CLK_MUX_STAT k) Fld.CLK_MUX_STAT_HANG == 0) &&
    d.activeHandle p == some (d.ctxHandle p c) && (d.moltState p == mIdle || d.moltState p == mLoading || d.moltState p == mLoaded) &&
    (!d.broodCtx c || d.memberCtx c || (d.att c).lastAbort == 0 || (d.att c).lastAbort + 5 * us ≤ d.ps) && !d.readsPending c (d.nextAdmits p c)

/-- Would an attempt now be an empty commit: a change is due, and no slot would compute (R254)? -/
def Dev.emptyDue (d : Dev) (p c : Nat) : Bool :=
  !d.memberCtx c && d.changeDue c && !d.anyComputes c (d.nextAdmits p c) && !(d.hasPrev c && (d.handoff c).usable)

/-- The untiled structures that the serving engine reads for an attempt (R173): the pool's block table, and the entries and count tables of its requests. -/
def Dev.tablesOf (d : Dev) (p c : Nat) (g : Geo) : List (Nat × Nat) :=
  let plan := (d.att c).plan
  if plan.isEmpty then []
  else (blkAddr (d.poolFirst p), 8 * d.poolCount p) :: plan.flatMap fun q => [(reqWork q.entry, 512), (reqComm q.entry, 512), (d.rqCount q.entry, 2 * g.vocab)]
/-- The tables are read: errors in them are counted, and one that cannot be corrected aborts the attempt (R173). -/
def Dev.readTables (d : Dev) (p c : Nat) (g : Geo) : Dev :=
  let ranges := d.tablesOf p c g
  let bad := d.ldr.ecc.find? fun x => x.fatal && ranges.any fun r => x.within r.1 r.2
  let d1 := ranges.foldl (fun (e : Dev) r => e.meetErrors r.1 r.2) d
  match bad with
  | some x => d1.stepFault p (some c) (notice cTileCheck 0x0A02 (x.unit * 512))
  | none => d1

/-- ATTEMPT_START. -/
def opAttemptStart (c : Nat) (d : Dev) : Dev :=
  match d.partOfCtx c with
  | some p =>
    match d.geo p c, d.ctxImg p c with
    | some g, some i => if d.mayStart p c && !d.emptyDue p c then (d.startAttempt p c g i).readTables p c g else d
    | _, _ => d
  | none => d

/-- EMPTY_COMMIT. -/
def opEmptyCommit (c : Nat) (d : Dev) : Dev :=
  match d.partOfCtx c with
  | some p =>
    let idle := (d.loopState c == lpRunning || d.loopState c == lpStopping) && !d.attemptIn p && d.phase c == phIdle
    if d.partUsable p && ((idle && d.emptyDue p c) || (d.loopState c == lpHalted && (d.holds c).any fun h => d.rqFlag h.entry flCancel)) then d.emptyCommit p c else d
  | none => d

/-! ### Settings of a context (R288) -/

def Dev.ctxRefused (d : Dev) (c : Nat) : Dev := d.raise { notice cHostProto 0x0E12 c with part := d.partOfCtx c }

/-- May view v write the SCHED and STEP registers of context c (R262, R315)? A context outside every partition answers to the operator view alone. -/
def Dev.mayCtx (d : Dev) (v c : Nat) : Bool := match d.partOfCtx c with | some p => d.mayPart v p | none => v == 0

/-- FLAGS of an image, bit 0 of which is BROOD. -/
def Dev.imgBrood (d : Dev) (i : Img) : Bool := d.imgNum i 12 4 % 2 == 1

/-- CTX_ENABLE. -/
def opCtxEnable (v c : Nat) (d : Dev) : Dev :=
  if d.mayCtx v c then
    match d.partOfCtx c with
    | some p =>
      match d.ctxImg p c with
      | some i =>
        if d.partUsable p ∧ d.imgBrood i = d.broodCtx c then ((d.wf (Reg.SCHED_CTX c) Fld.SCHED_CTX_ENABLE 1).latchPrio c).checkPreempt p
        else d.ctxRefused c
      | none => d.ctxRefused c
    | none => d.ctxRefused c
  else d

/-- CTX_DISABLE. -/
def opCtxDisable (v c : Nat) (d : Dev) : Dev :=
  if d.mayCtx v c then
    if d.loopState c = lpStopped then
      let d1 := d.wf (Reg.SCHED_CTX c) Fld.SCHED_CTX_ENABLE 0
      match d.partOfCtx c with | some p => d1.evict p c | none => d1
    else d.ctxRefused c
  else d

/-- CTX_SETTINGS_WRITE: PRIO at any time; HANDLE and BROOD while disabled. -/
def opCtxSettings (v c handle : Nat) (brood : Bool) (prio : Nat) (d : Dev) : Dev :=
  if d.mayCtx v c then
    let d1 := d.wf (Reg.SCHED_CTX c) Fld.SCHED_CTX_PRIO prio
    if !d.enabled c then d1.upd [(Reg.SCHED_CTX c, Fld.SCHED_CTX_HANDLE, handle), (Reg.SCHED_CTX c, Fld.SCHED_CTX_BROOD, b2n brood)]
    else if d.rf (Reg.SCHED_CTX c) Fld.SCHED_CTX_HANDLE = handle ∧ d.broodCtx c = brood then d1
    else d1.ctxRefused c
  else d

/-! ### Serving-loop commands (R205, R235, R253) -/

def Dev.loopResult (d : Dev) (c op r : Nat) : Dev := (d.wf (Reg.STEP_CTL c) Fld.STEP_CTL_OP op).wf (Reg.STEP_STAT c) Fld.STEP_STAT_RESULT r
def lrDone : Nat := 2
def lrRefused : Nat := 3

/-- Is the loop's geometry within the image's (R205)? -/
def Dev.geomOk (d : Dev) (p c : Nat) : Bool :=
  match d.geo p c with
  | some g =>
    1 ≤ d.loopSlots c && d.loopSlots c ≤ g.slots && 1 ≤ d.loopNodes c && d.loopNodes c ≤ g.nodes && d.loopDepth c ≤ g.depth && 1 ≤ d.loopChunk c &&
      d.loopChunk c ≤ g.chunk && 1 ≤ d.loopMaxCtx c && d.loopMaxCtx c ≤ g.maxCtx && (d.loopDepth c == 0) == (d.loopNodes c == 1)
  | none => false

/-- The 1 ms within which a neighbour stage must be heard (R340) counts from the start of the loop (DESIGN CHOICE, log entry 91). -/
def Dev.hearStages (d : Dev) (c : Nat) : Dev :=
  let st := d.rd (Reg.LNK_STAGE c)
  let hear := fun (e : Dev) (v n : Fld) =>
    if fget st v = 1 then e.setPeer (fget st n) { e.peer (fget st n) with lastBeat := e.ps, unreachAt := none, withdrawn := false } else e
  hear (hear d Fld.LNK_STAGE_NEXT_VALID Fld.LNK_STAGE_NEXT) Fld.LNK_STAGE_PREV_VALID Fld.LNK_STAGE_PREV

/-- LOOP_START: only a STOPPED loop starts. -/
def opLoopStart (v c : Nat) (d : Dev) : Dev :=
  match d.partOfCtx c with
  | some p =>
    if d.mayPart v p then
      if d.loopState c ≠ lpStopped then d.wf (Reg.STEP_CTL c) Fld.STEP_CTL_OP 1
      else if d.partUsable p && d.enabled c && d.geomOk p c then
        let d1 := (d.loopResult c 1 lrDone).setLoop c lpRunning
        let d2 := d1.upd [(Reg.STEP_PHASE c, Fld.STEP_PHASE_FAILS, 0), (Reg.STEP_PHASE c, Fld.STEP_PHASE_HALT_CAUSE, 0)]
        let d3 := d2.modAtt c fun t => { t with mustReplay := false, admits := [], lastTile := none, tileFails := 0, launchT := none, pend := none }
        let d4 : Dev := if d3.broodCtx c then { d3 with lnk := { d3.lnk with
          participants := sput (fun _ => []) d3.lnk.participants c (filterBelow 8 fun q => bit d3.members q) } } else d3
        (d4.hearStages c).checkPreempt p
      else d.loopResult c 1 lrRefused
    else d
  | none => d

/-- LOOP_STOP. -/
def opLoopStop (v c : Nat) (d : Dev) : Dev :=
  match d.partOfCtx c with
  | some p =>
    if d.mayPart v p then
      if d.loopState c = lpRunning then (((d.loopResult c 2 lrDone).setLoop c lpStopping).showAll p c).stopIfEmpty p c
      else if d.loopState c = lpHalted then
        if (d.holds c).isEmpty then
          (((d.loopResult c 2 lrDone).setLoop c lpStopped).wf (Reg.STEP_PHASE c) Fld.STEP_PHASE_HALT_CAUSE 0).modAtt c fun t => { t with mustReplay := false, admits := [] }
        else d.loopResult c 2 lrRefused
      else d.loopResult c 2 lrDone
    else d
  | none => d

/-- LOOP_RESUME: F is 0 and a new attempt may start. -/
def opLoopResume (v c : Nat) (d : Dev) : Dev :=
  match d.partOfCtx c with
  | some p =>
    if d.mayPart v p then
      if d.loopState c = lpHalted then
        let d1 := ((d.loopResult c 3 lrDone).setLoop c lpRunning).upd
          [(Reg.STEP_PHASE c, Fld.STEP_PHASE_FAILS, 0), (Reg.STEP_PHASE c, Fld.STEP_PHASE_HALT_CAUSE, 0)]
        (d1.modAtt c fun t => { t with mustReplay := false, admits := [], lastTile := none, tileFails := 0 }).checkPreempt p
      else d.loopResult c 3 lrRefused
    else d
  | none => d

/-! ### Doorbells (R211 to R214) -/

def dbSubmit : Nat := 1
def dbCancel : Nat := 2
def dbRelease : Nat := 3

/-- Does the state of entry n of p allow a doorbell (Table 7-7)? -/
def Dev.allowed (d : Dev) (p op n : Nat) : Bool :=
  let s := d.rqState n
  d.ownsReq p n && ((op == dbSubmit && s == rsFree) || (op == dbCancel && rsSubmitted ≤ s && s ≤ rsSuspended) || (op == dbRelease && rsCompleted ≤ s && s ≤ rsFailed))

/-- A doorbell is counted, and its word shows in STEP_DB. -/
def Dev.noteDoorbell (d : Dev) (p op n : Nat) : Dev := (d.addf (Reg.STEP_DB_STAT p) Fld.STEP_DB_STAT_TAKEN 1).wr (Reg.STEP_DB p) (BitVec.ofNat 64 (op * 2 ^ 60 + n))

/-- Take one doorbell. -/
def Dev.takeDoorbell (d : Dev) (p op n : Nat) : Dev :=
  if d.allowed p op n then
    let d1 := d.noteDoorbell p op n
    if op = dbSubmit then d1.submit p n
    else if op = dbRelease then d1.releaseReq p n
    else
      let d2 := d1.cancelReq p n
      match d2.reqCtx p n with
      | some c => if d2.loopState c = lpHalted ∧ d2.holdsSlot p n then d2.emptyCommit p c else d2
      | none => d2
  else (d.addf (Reg.STEP_DB_STAT p) Fld.STEP_DB_STAT_REFUSED 1).raise { notice cHostProto 0x0B01 (op * 2 ^ 60 + n) with part := some p }

/-- Is a commit of p being applied? Doorbells wait for its end. -/
def Dev.committing (d : Dev) (p : Nat) : Bool := (d.partCtxs p).any fun c => d.phase c == phCommit
def Dev.doorbells (d : Dev) (p : Nat) : List (Nat × Nat × Nat) := sget (fun _ => []) d.srv.doorbells p
def Dev.setDoorbells (d : Dev) (p : Nat) (l : List (Nat × Nat × Nat)) : Dev := { d with srv := { d.srv with doorbells := sput (fun _ => []) d.srv.doorbells p l } }

/-- A write of STEP_DB[p]. -/
def opDoorbell (v p op n : Nat) (d : Dev) : Dev :=
  if d.mayPart v p then
    if d.committing p then
      if 4096 ≤ (d.srv.doorbells.foldl (fun a q => a + q.2.length) 0) then d.raise { notice cHostProto 0x0B02 n with part := some p }
      else d.setDoorbells p (d.doorbells p ++ [(op, n, v)])
    else (d.takeDoorbell p op n).checkPreempt p
  else d

/-- Take every doorbell that waited. -/
def Dev.drainDoorbells (d : Dev) (p : Nat) : Dev := (d.doorbells p).foldl (fun (e : Dev) q => e.takeDoorbell p q.1 q.2.1) (d.setDoorbells p [])

/-! ### Rings (R231, R233) -/

/-- A ring HEAD has come: a SUSPENDED request with room becomes QUEUED; an ACTIVE one that lacks room pauses at once when its loop is not RUNNING and no attempt executes (R231). -/
def Dev.takeHead (d : Dev) (n h : Nat) : Dev :=
  let d1 : Dev := { d with srv := { d.srv with heads := sput (fun _ => 0) d.srv.heads n h } }
  match d1.partOfReq n with
  | some p =>
    match d1.reqCtx p n with
    | some c =>
      if d1.rqState n = rsSuspended ∧ d1.hasRoom c n then (((d1.setRq n 256 1 rsQueued).reqEvent p n 0x05 0).show p n).checkPreempt p
      else if d1.loopState c ≠ lpRunning ∧ d1.phase c = phIdle ∧ (d1.toPause c).contains n then (d1.pauseReq p n).commitReq n
      else d1.checkPreempt p
    | none => d1
  | none => d1

/-- HEAD_POLL. -/
def opHeadPoll (n : Nat) (d : Dev) : Dev :=
  let last := sget (fun _ => 0) d.srv.polledAt n
  match d.partOfReq n with
  | some p =>
    let idle : Bool := match d.reqCtx p n with | some c => !d.executing c && d.phase c != phCommit | none => true
    if d.reading (.ringHead n) then d
    else if d.rqState n = rsPaused ∧ idle ∧ last + 100 * us ≤ d.ps then d.readHead n
    else if d.rqState n = rsSuspended ∧ last + 10 * ms ≤ d.ps then d.readHead n
    else d
  | none => d

/-- PAUSE_TIMEOUT: the suspension is due at the loop's next commit, unless the present attempt computes the request. -/
def opPauseTimeout (n : Nat) (d : Dev) : Dev :=
  match d.partOfReq n with
  | some p =>
    let computing : Bool := match d.reqCtx p n with | some c => (d.executing c || d.phase c == phCommit) && (d.att c).plan.any (fun q => q.entry == n) | none => false
    if d.rqState n = rsPaused ∧ !computing ∧ d.dueOf n = 0 ∧ sget (fun _ => 0) d.srv.pausedAt n + 2000 * ms ≤ d.ps then (d.setDue n dueSuspend).checkPreempt p else d
  | none => d

/-- EVENT_HEAD_POLL. -/
def opEventHeadPoll (p : Nat) (d : Dev) : Dev :=
  let waiting := !(sget (fun _ => []) d.srv.evts p).isEmpty || sget (fun _ => 0) d.srv.evtLost p != 0
  if waiting ∧ !d.reading (.eventHead p) ∧ sget (fun _ => 0) d.srv.evtPolledAt p + 100 * us ≤ d.ps then
    let cfg := d.rd (Reg.STEP_EVT_CFG p)
    let va := (d.rd (Reg.STEP_EVT_VA p)).toNat + 32 * 2 ^ fget cfg Fld.STEP_EVT_CFG_LOG2N
    let d1 := d.rdmaRead (fget cfg Fld.STEP_EVT_CFG_QP) va (fget cfg Fld.STEP_EVT_CFG_RKEY) 8 (.eventHead p)
    { d1 with srv := { d1.srv with evtPolledAt := sput (fun _ => 0) d1.srv.evtPolledAt p d1.ps } }
  else d

/-! ### Prefix commands (R224) -/

def Dev.pfxResult (d : Dev) (p op r : Nat) : Dev := d.upd [(Reg.STEP_PFX_CMD p, Fld.STEP_PFX_CMD_OP, op), (Reg.STEP_PFX_CMD p, Fld.STEP_PFX_CMD_RESULT, r)]
def pfRunning : Nat := 1
def pfDone : Nat := 2
def pfRefused : Nat := 3
def Dev.pfxBusy (d : Dev) (p : Nat) : Bool := d.rf (Reg.STEP_PFX_CMD p) Fld.STEP_PFX_CMD_RESULT == pfRunning

/-- DEMOTE. -/
def opDemote (v p : Nat) (d : Dev) : Dev :=
  if d.mayPart v p ∧ !d.pfxBusy p then
    match d.findHandle p (d.rd (Reg.STEP_PFX_ARG p)).toNat with
    | some i =>
      let h := d.handle i
      let n := h.blocks.length
      let dsts := if h.copies.length = n then (List.range n).map fun k => match h.copies.find? (fun q => q.1 == k) with | some q => q.2 | none => 0 else d.freeT2 p
      if h.st = .valid ∧ h.uses = 0 ∧ 0 < n ∧ n ≤ dsts.length then
        let d1 := ((h.blocks.foldl (fun (e : Dev) b => e.setMoving b true) d).setHandle i { h with st := .demoting, copies := [] }).pfxResult p 1 pfRunning
        { d1 with srv := { d1.srv with copies := d1.srv.copies ++ (h.blocks.zip dsts).zipIdx.map fun q => ⟨p, q.1.1, q.2, blkUnit (d.blk q.1.1) * 512, q.1.2, true, i⟩ } }
      else d.pfxResult p 0 pfRefused
    | none => d.pfxResult p 0 pfRefused
  else d

/-- PFX_RELEASE. -/
def opPfxRelease (v p : Nat) (d : Dev) : Dev :=
  if d.mayPart v p ∧ !d.pfxBusy p then
    match d.findHandle p (d.rd (Reg.STEP_PFX_ARG p)).toNat with
    | some i => ((d.freePrefix i).pfxResult p 0 pfDone).checkPreempt p
    | none => d.pfxResult p 0 pfRefused
  else d

/-- Requests that wait for the promotion of handle i. -/
def Dev.endPromotion (d : Dev) (p i : Nat) : Dev :=
  (List.range (d.reqCount p)).foldl (fun (e : Dev) k =>
    let n := e.reqFirst p + k
    if e.rqState n = rsQueued ∧ e.rqFlag n flPromoting ∧ e.findHandle p (e.rqPrefix n) = some i then (e.setRqFlag n flPromoting false).show p n else e) d

/-- A handle index that stands for the rewrite of a block (R255). -/
def rewriteHandle : Nat := 2 ^ 20

/-- The block that a demotion has copied: the handle's reference goes, and with the last one the T1 block is free; its entry shows where the block now rests. -/
def Dev.movedOut (d : Dev) (b t2 : Nat) : Dev :=
  if d.refs b ≤ 1 then (d.dropRef b).setBlk b (mkBlk true true false (blkGen (d.blk b) + 1) (t2 / 512)) else d.dropRef b

/-- A demotion's copy into a T2 block that has come under reference writes nothing (R177); it goes on into another free block (log entry 92). -/
def Dev.otherT2 (d : Dev) (x : BlockCopy) : Dev :=
  let d1 := d.raise { notice cRo 0x0A11 (x.dst % 2 ^ 48) with part := some x.part }
  match (d1.freeT2 x.part).find? fun a => d1.t2Refs a blockBytes == 0 with
  | some a => { d1 with srv := { d1.srv with copies := d1.srv.copies.map fun y => if y = x then { x with dst := a } else y } }
  | none => d1

/-- PREFIX_COPY_END: the copy of block b is done. -/
def opPrefixCopyEnd (b : Nat) (d : Dev) : Dev :=
  match d.srv.copies.find? fun x => x.block == b with
  | some x =>
    if x.toT2 ∧ d.t2Refs x.dst blockBytes != 0 then d.otherT2 x
    else
    let d1 := (d.setBytes x.dst (d.bytes x.src blockBytes)).setMoving b false
    let d2 : Dev := { d1 with srv := { d1.srv with copies := d1.srv.copies.erase x } }
    let last := !d2.srv.copies.any fun y => y.handle == x.handle
    let h := d2.handle x.handle
    if x.handle = rewriteHandle then (d2.endHold (.block b) false).checkPreempts
    else if x.toT2 then
      let d3 := d2.movedOut b x.dst
      if last then (d3.setHandle x.handle { h with st := .demoted, blocks := [], copies := h.copies ++ [(x.pos, x.dst)] }).pfxResult x.part 0 pfDone
      else d3.setHandle x.handle { h with copies := h.copies ++ [(x.pos, x.dst)] }
    else if last && h.blocks.length == h.copies.length then
      ((d2.setHandle x.handle { h with st := .valid }).endPromotion x.part x.handle).checkPreempt x.part
    else d2
  | none => d

/-- REPAIR_END: a context that was HELD may run again, and ask for a pre-emption. -/
def opRepairDone (srcOk : Bool) (d : Dev) : Dev := (opRepairEnd srcOk d).checkPreempts

/-! ### The commands -/

def execRepairEnd (srcOk : Bool) (s : State) : Host.Outcome State Fault Refusal := done s (opRepairDone srcOk s.dev)
def execStepBoundary (p : PartIdx) (s : State) : Host.Outcome State Fault Refusal := done s (opStepBoundary p s.dev)
def execAttemptStart (c : CtxIdx) (s : State) : Host.Outcome State Fault Refusal := done s (opAttemptStart c s.dev)
def execEmptyCommit (c : CtxIdx) (s : State) : Host.Outcome State Fault Refusal := done s (opEmptyCommit c s.dev)
def execPreemptTimer (p : PartIdx) (s : State) : Host.Outcome State Fault Refusal := done s (opPreemptTimer p s.dev)
def execStepDeadline (p : PartIdx) (s : State) : Host.Outcome State Fault Refusal := done s (opStepDeadline p s.dev)
def execCtxEnable (v : View) (c : CtxIdx) (s : State) : Host.Outcome State Fault Refusal := hostDone s (Reg.SCHED_CTX c) (opCtxEnable v c)
def execCtxDisable (v : View) (c : CtxIdx) (s : State) : Host.Outcome State Fault Refusal := hostDone s (Reg.SCHED_CTX c) (opCtxDisable v c)
def execCtxSettingsWrite (v : View) (c : CtxIdx) (h : BitVec 4) (b : Bool) (prio : BitVec 3) (s : State) : Host.Outcome State Fault Refusal :=
  hostDone s (Reg.SCHED_CTX c) (opCtxSettings v c h.toNat b prio.toNat)
def execLoopStart (v : View) (c : CtxIdx) (s : State) : Host.Outcome State Fault Refusal := hostDone s (Reg.STEP_CTL c) (opLoopStart v c)
def execLoopStop (v : View) (c : CtxIdx) (s : State) : Host.Outcome State Fault Refusal := hostDone s (Reg.STEP_CTL c) (opLoopStop v c)
def execLoopResume (v : View) (c : CtxIdx) (s : State) : Host.Outcome State Fault Refusal := hostDone s (Reg.STEP_CTL c) (opLoopResume v c)
def execSubmit (v : View) (p : PartIdx) (n : ReqIdx) (s : State) : Host.Outcome State Fault Refusal := hostDone s (Reg.STEP_DB p) (opDoorbell v p dbSubmit n)
def execCancel (v : View) (p : PartIdx) (n : ReqIdx) (s : State) : Host.Outcome State Fault Refusal := hostDone s (Reg.STEP_DB p) (opDoorbell v p dbCancel n)
def execRelease (v : View) (p : PartIdx) (n : ReqIdx) (s : State) : Host.Outcome State Fault Refusal := hostDone s (Reg.STEP_DB p) (opDoorbell v p dbRelease n)
def execHeadPoll (n : ReqIdx) (s : State) : Host.Outcome State Fault Refusal := done s (opHeadPoll n s.dev)
def execPauseTimeout (n : ReqIdx) (s : State) : Host.Outcome State Fault Refusal := done s (opPauseTimeout n s.dev)
def execEventHeadPoll (p : PartIdx) (s : State) : Host.Outcome State Fault Refusal := done s (opEventHeadPoll p s.dev)
def execDemote (v : View) (p : PartIdx) (s : State) : Host.Outcome State Fault Refusal := hostDone s (Reg.STEP_PFX_CMD p) (opDemote v p)
def execPfxRelease (v : View) (p : PartIdx) (s : State) : Host.Outcome State Fault Refusal := hostDone s (Reg.STEP_PFX_CMD p) (opPfxRelease v p)
def execPrefixCopyEnd (b : BitVec 24) (s : State) : Host.Outcome State Fault Refusal := done s (opPrefixCopyEnd b.toNat s.dev)

end Sys2Proof.Machine
end

