-- ==== Sys2Proof/Machine/Commit.lean ====
section
/-!
DEFINITION. Step commit (R237 to R263): comb votes and the decision of a device or brood domain, the messages of a brood domain, what happens when a commit is
applied, and what follows ABORTING (R249 to R256).
-/
namespace Sys2Proof.Machine

/-! ### Stage handoffs at a commit (R258, R350, R351) -/

/-- While the consume area holds nothing that awaits its acknowledgement, the copy of the next complete handoff begins. -/
def Dev.startHandoffCopy (d : Dev) (c : Nat) : Dev :=
  let h := d.handoff c
  match h.consume, h.copying, h.complete with
  | none, none, n :: rest => d.setHandoff c { h with copying := some n, complete := rest }
  | _, _, _ => d

/-- After a commit a stage marks the handoff that it sent, and acknowledges the one that it consumed. -/
def Dev.commitHandoff (d : Dev) (c epoch : Nat) : Dev :=
  let st := d.rd (Reg.LNK_STAGE c)
  let d1 := if d.hasNext c then
      let h := d.handoff c
      (d.setHandoff c { h with sent := h.sent + 1 }).send 0x51 (fget st Fld.LNK_STAGE_NEXT) (d.ctxPkt c epoch [(40, 8, h.sent)])
    else d
  if d1.hasPrev c then
    let h := d1.handoff c
    match h.consume with
    | some n => ((d1.setHandoff c { h with consume := none, usable := false }).send 0x52 h.src (d1.ctxPkt c epoch [(40, 8, n)])).startHandoffCopy c
    | none => d1
  else d1

/-! ### Votes (R152, R240, R241) -/

/-- Has every comb of the footprint that has a voter voted COMMIT? -/
def Dev.allVoted (d : Dev) (p c : Nat) : Bool := (d.voterCombs p (d.rf (Reg.SCHED_CTX c) Fld.SCHED_CTX_HANDLE)).all fun k => (d.att c).votes.contains k

/-- The decision instant: the attempt commits, and the application of the commit begins. When a vote of the attempt asked for a gap, or the lead itself has a
slice due, the lead's next START waits 160 µs (R478). -/
def Dev.applyCommit (d : Dev) (c : Nat) : Dev :=
  let d1 := (d.setPhase c phCommit).modAtt c fun t => { t with decided := true, applying := true }
  match d.partOfCtx c with
  | some p =>
    if d.broodCtx c ∧ d.isLead ∧ (d.bist.gapAsk.contains c ∨ d.sliceDue p) then
      { d1 with bist := { d1.bist with gapTo := sput (fun _ => 0) d1.bist.gapTo p (d.ps + 160 * us) } }
    else d1
  | none => d1

/-- 1 µs in ticks. -/
def usTicks : Nat := 1250

/-- The lead decides COMMIT once its own footprint and every member have voted (R241 step 4); alone it has no ACK to wait for. -/
def Dev.tryDecide (d : Dev) (c : Nat) : Dev :=
  if d.phase c = phVote ∧ !(d.att c).decideSent ∧ (d.partners c).all (fun q => (d.att c).mvotes.contains q) then
    let tc := d.sysTime.toNat + 2 * usTicks
    let d1 := (d.partners c).foldl (fun (e : Dev) q => e.send 0x23 (e.posNode q) (e.ctxPkt c (e.att c).epoch [(40, 8, tc)])) d
    d1.modAtt c fun t => { t with decideSent := true, tc := tc, decided := (d.partners c).isEmpty }
  else d

/-- The output records of the attempt go to the host's rings beyond TAIL (R230, R246): on the device that holds the requests, once its footprint has voted. -/
def Dev.sendRecords (d : Dev) (c : Nat) : Dev :=
  match d.partOfCtx c with
  | some p =>
    match d.geo p c with
    | some g => if d.tableCtx p c then d else (d.attemptRecords p c g).foldl (fun (e : Dev) r => e.sendRecord c r) d
    | none => d
  | none => d

/-- The device's own footprint has voted: EXECUTE ends. -/
def Dev.deviceVoted (d : Dev) (c : Nat) : Dev :=
  let d1 := (d.sendRecords c).modAtt c fun t => { t with voteAt := d.ps }
  if !d.broodCtx c then d1.applyCommit c
  else
    let d2 := d1.setPhase c phVote
    if d.isLead then d2.tryDecide c
    else match d.lnk.lead with
      | some q => d2.send 0x22 (d2.posNode q) (d2.ctxPkt c (d2.att c).epoch
          [(33, 1, match d2.partOfCtx c with | some p => if d2.loopState c = lpRunning ∧ d2.sliceDue p then 2 else 0 | none => 0)])
      | none => d2

/-- The voter of comb k votes COMMIT for the attempt of p's current context. -/
def Dev.combVote (d : Dev) (p c k : Nat) : Dev :=
  if d.phase c = phExecute then
    let d1 := d.modAtt c fun t => { t with votes := if t.votes.contains k then t.votes else t.votes ++ [k] }
    if d1.allVoted p c then d1.deviceVoted c else d1
  else d

/-! ### Epochs of messages (R238) -/

/-- Is a message of context c with this epoch for the current attempt? A lower epoch is counted, a higher one aborts the attempt. -/
def Dev.epochTake (d : Dev) (p c e : Nat) : Bool × Dev :=
  let cur := (d.att c).epoch
  if e = cur then (true, d)
  else if e < cur then (false, d.bump (Reg.STEP_STALE c) 1)
  else (false, d.abortCtx p c ⟨0x42, 0, false, d.pos, 0⟩)

/-- The context of a packet, when it lies in the partition whose domain the packet carries. -/
def Dev.pktCtx (d : Dev) (x : FrPkt) : Option (Nat × Nat) :=
  match d.partOfDomain x.domain.toNat with
  | some p => if d.partOfCtx x.ctx.toNat = some p then some (p, x.ctx.toNat) else none
  | none => none

/-- A message of the commit domain of a brood-scoped context, accepted by its epoch. -/
def Dev.domainMsg (d : Dev) (x : FrPkt) (f : Nat → Nat → Dev → Dev) : Dev :=
  match d.pktCtx x with
  | some (p, c) =>
    if d.broodCtx c then
      let r := d.epochTake p c x.epoch.toNat
      if r.1 then f p c r.2 else r.2
    else d
  | none => d

/-- Brood position of a sender. -/
def posOf (x : FrPkt) : Nat := x.src.toNat % 8

/-! ### The messages (R241 to R245) -/

/-- The fault class that an abort code stands for: LOST is raised as FLT_LINK_DOWN; the other codes from 0x40 on have none (Table 8-3). -/
def abortClass (code : Nat) : Nat := if code < 0x40 then code else if code = 0x43 then cLinkDown else 0

/-- VOTE at the lead. -/
def takeVote (x : FrPkt) (d : Dev) : Dev :=
  d.domainMsg x fun p c e =>
    if e.isLead ∧ (e.partners c).contains (posOf x) then
      if argN x 33 1 % 2 = 1 then e.abortCtx p c ⟨argN x 34 1, argN x 36 2, causeCounts (argN x 34 1), posOf x, abortClass (argN x 34 1)⟩
      else if e.executing c then
        let e1 : Dev := if bit (argN x 33 1) 1 ∧ !e.bist.gapAsk.contains c then { e with bist := { e.bist with gapAsk := c :: e.bist.gapAsk } } else e
        (e1.modAtt c fun t => { t with mvotes := if t.mvotes.contains (posOf x) then t.mvotes else t.mvotes ++ [posOf x] }).tryDecide c
      else e
    else e

/-- DECIDE at a member: it answers ACK, unless it has already aborted. -/
def takeDecide (x : FrPkt) (d : Dev) : Dev :=
  d.domainMsg x fun _ c e =>
    if e.phase c = phVote ∧ e.memberCtx c ∧ e.lnk.lead = some (posOf x) then
      (e.modAtt c fun t => { t with acked := true, tc := argN x 40 8 }).send 0x24 x.src.toNat (e.ctxPkt c x.epoch.toNat [])
    else e

/-- ACK at the lead: when the last comes by Tc − 1 µs the decision is final. -/
def takeAck (x : FrPkt) (d : Dev) : Dev :=
  d.domainMsg x fun _ c e =>
    if e.isLead ∧ e.phase c = phVote ∧ (e.att c).decideSent ∧ (e.partners c).contains (posOf x) then
      let e1 := e.modAtt c fun t => { t with acks := if t.acks.contains (posOf x) then t.acks else t.acks ++ [posOf x] }
      if (e1.partners c).all (fun q => (e1.att c).acks.contains q) ∧ e1.sysTime.toNat + usTicks ≤ (e1.att c).tc then e1.modAtt c fun t => { t with decided := true }
      else e1
    else e

/-- A member's loop is lost (R261): it records 0x0C03, its attempt ends with LOST unless its commit is being applied, and the loop is HALTED. The message does not name the lost node: the
detail is a free value (log entry 91). -/
def Dev.memberLost (d : Dev) (p c origin : Nat) : Dev :=
  let d1 := (d.raise { notice cLinkDown 0x0C03 (d.draw.toNat % 2 ^ 18) with part := some p, sev := svHalt, epoch := (d.att c).epoch }).drawn
  let a : AbortInfo := ⟨0x43, 0x0C03, false, origin, cLinkDown⟩
  if d.executing c then d1.abortNow p c a
  else if d.phase c = phCommit then d1.keepAbort c a
  else d1.halt p c cLinkDown 0x0C03 0x43

/-- Does an ABORT tell member context c that its running loop is LOST? -/
def Dev.hearsLoss (d : Dev) (x : FrPkt) (c : Nat) : Bool :=
  argN x 34 1 == 0x43 && d.memberCtx c && d.lnk.lead == some (posOf x) && decide ((d.att c).epoch ≤ x.epoch.toNat) &&
    (d.loopState c == lpRunning || d.loopState c == lpStopping)

/-- ABORT at a member: its attempt ends with cause PEER, counted as the carried cause says (Table 8-3). One that comes after the member has committed the epoch is kept for the next START
(R244). When the lead has lost a participant or a neighbour stage, the loop is LOST here too, whether or not an attempt runs. -/
def takeAbort (x : FrPkt) (d : Dev) : Dev :=
  let code := argN x 34 1
  match d.pktCtx x with
  | some (p, c) =>
    if d.hearsLoss x c then d.memberLost p c (argN x 33 1)
    else d.domainMsg x fun p c e =>
      if e.memberCtx c ∧ e.lnk.lead = some (posOf x) then
        if e.executing c then e.abortNow p c ⟨0x41, argN x 36 2, causeCounts code, argN x 33 1, abortClass code⟩
        else if e.phase c = phCommit ∨ (e.att c).lastCommitted = x.epoch.toNat then e.modAtt c fun t => { t with lateAbort := true }
        else e
      else e
  | none => d

/-- The first failing condition of R331 for a START. -/
def Dev.startCheck (d : Dev) (x : FrPkt) : Option Nat :=
  let c := x.ctx.toNat
  if d.isLead ∨ d.lnk.lead ≠ some (posOf x) ∨ x.src.toNat / 8 ≠ d.node / 8 then some 1
  else if !bit (argN x 33 1) d.pos then some 2
  else match d.pktCtx x with
    | some (p, _) =>
      if !(d.enabled c && d.broodCtx c) then some 3
      else if (d.ctxImg p c).isNone ∨ (d.rd (Reg.MOLT_HDIG (d.ctxHandle p c))).toNat ≠ argN x 48 8 then some 4
      else none
    | none => some 3

/-- R244: a commit that the lead does not name goes back: one beyond the lead's last, or one for which the lead's ABORT came. -/
def Dev.undoCommit (d : Dev) (c committed : Nat) : Dev :=
  let own := (d.rd (Reg.STEP_EPOCH c)).toNat
  if committed < own ∨ ((d.att c).lateAbort ∧ committed ≠ own) then
    let d1 := (d.undoCharge c).wf (Reg.STEP_COMMITS c) cnt48 (d.rf (Reg.STEP_COMMITS c) cnt48 - 1)
    (d1.wr (Reg.STEP_EPOCH c) (BitVec.ofNat 64 committed)).modAtt c fun t => { t with lastCommitted := committed }
  else d

/-- A member of a running loop follows the lead's empty commits, which are the epochs after its own last attempt up to the one that START names (R245, log entry 91). -/
def Dev.followEmpty (d : Dev) (c committed : Nat) : Dev :=
  let last := (d.att c).epoch
  if last < committed ∧ (d.loopState c = lpRunning ∨ d.loopState c = lpStopping) then
    (((d.wr (Reg.STEP_EPOCH c) (BitVec.ofNat 64 committed)).bump (Reg.STEP_COMMITS c) (committed - last)).wf (Reg.STEP_PHASE c) Fld.STEP_PHASE_FAILS 0).modAtt c
      fun t => { t with lastCommitted := committed }
  else d

/-- A member's attempt starts as soon as its START and serving tiles are there and the partition is free (R241, R296). -/
def Dev.tryMember (d : Dev) (p c : Nat) : Dev := if d.startReady c then opAttemptStart c (opStepBoundary p (d.checkPreempt p)) else d

/-- START at a member. One of the present epoch is accepted and changes nothing: its attempt has started (R238). -/
def takeStart (x : FrPkt) (d : Dev) : Dev :=
  let c := x.ctx.toNat
  match d.startCheck x with
  | some n =>
    (d.raise { notice cConfig 0x0F24 (c + n * 256) with part := d.partOfDomain x.domain.toNat, epoch := x.epoch.toNat }).send 0x22 x.src.toNat
      { frEmpty with domain := x.domain, epoch := x.epoch, ctx := x.ctx, arg := mkArg [(33, 1, 1), (34, 1, cConfig), (36, 2, 0x0F24)] }
  | none =>
    match d.partOfCtx c with
    | some p =>
      if x.epoch.toNat < (d.att c).epoch then d.bump (Reg.STEP_STALE c) 1
      else if x.epoch.toNat = (d.att c).epoch then d
      else
        let d1 := if d.executing c then d.abortCtx p c ⟨0x42, 0, false, d.pos, 0⟩ else d
        let d2 := ((d1.undoCommit c (argN x 40 8)).followEmpty c (argN x 40 8)).modAtt c fun t => { t with
          pendStart := some ⟨x.epoch.toNat, argN x 36 2, argN x 48 8⟩, lateAbort := false }
        let d3 : Dev := { d2 with lnk := { d2.lnk with participants := sput (fun _ => []) d2.lnk.participants c (filterBelow 8 (bit (argN x 33 1))) } }
        let d4 := if d3.loopState c ≠ lpStopped then d3 else (d3.setLoop c lpRunning).upd
          [(Reg.STEP_PHASE c, Fld.STEP_PHASE_FAILS, 0), (Reg.STEP_PHASE c, Fld.STEP_PHASE_HALT_CAUSE, 0)]
        d4.tryMember p c
    | none => d

/-- SERVE_TILE at a member: the tile takes its place in the serving region of the context's image. -/
def takeServeTile (x : FrPkt) (d : Dev) : Dev :=
  match d.pktCtx x with
  | some (p, c) =>
    let old := sget (fun _ => (0, 0)) d.lnk.served c
    let e := x.epoch.toNat
    match d.geo p c with
    | some g =>
      if d.memberCtx c ∧ old.1 ≤ e ∧ (d.att c).epoch < e ∧ argN x 34 2 < serveCount g then
        let d1 := d.setBytes (serveTile (d.serveBase p c g) (argN x 34 2)) (x.payload.take tileWire)
        let n := if old.1 = e then old.2 + 1 else 1
        ({ d1 with lnk := { d1.lnk with served := sput (fun _ => (0, 0)) d1.lnk.served c (e, n) } }).tryMember p c
      else if e < (d.att c).epoch then d.bump (Reg.STEP_STALE c) 1
      else d
    | none => d
  | none => d

/-- ACK_DEADLINE: at Tc − 1 µs with an ACK missing. -/
def opAckDeadline (c : Nat) (d : Dev) : Dev :=
  match d.partOfCtx c with
  | some p =>
    let a := d.att c
    if d.phase c = phVote ∧ a.decideSent ∧ !a.decided ∧ a.tc ≤ d.sysTime.toNat + usTicks then
      let mask := ((d.partners c).filter fun q => !a.acks.contains q).foldl (fun m q => m + 2 ^ q) 0
      d.stepFault p (some c) (notice cRemoteTimeout 0x0C02 mask)
    else d
  | none => d

/-- BROOD_COMMIT_APPLY: at Tc the lead with a final decision, and a member that has sent its ACK, apply the commit. -/
def opBroodCommitApply (c : Nat) (d : Dev) : Dev :=
  let a := d.att c
  if d.broodCtx c ∧ d.phase c = phVote ∧ a.tc ≤ d.sysTime.toNat ∧ (a.decided ∨ (d.memberCtx c ∧ a.acked)) then d.applyCommit c else d

/-- MEMBER_DECISION_TIMEOUT: 50 µs after a COMMIT vote without a decision. -/
def opMemberDecisionTimeout (c : Nat) (d : Dev) : Dev :=
  match d.partOfCtx c with
  | some p =>
    if d.memberCtx c ∧ d.phase c = phVote ∧ !(d.att c).acked ∧ (d.att c).voteAt + 50 * us ≤ d.ps then
      d.stepFault p (some c) (notice cRemoteTimeout 0x0C01 (d.att c).epoch)
    else d
  | none => d

/-! ### The application of a commit ends (R246 to R248) -/

def Dev.endAttempt (d : Dev) (c : Nat) : Dev :=
  (d.setPhase c phIdle).modAtt c fun t => { t with
    plan := [], admits := [], mustReplay := false, votes := [], mvotes := [], acks := [], decideSent := false, acked := false, decided := false,
    applying := false, taken := [], shared := [], pauses := [], records := [], lastTile := none, tileFails := 0, launchT := none }

/-- COMMIT_APPLIED, all but the answers to host reads that waited. -/
def Dev.commitApplied (d : Dev) (p c : Nat) (g : Geo) : Dev :=
  let a := d.att c
  let plan := a.plan ++ (d.backSlots p c).map (·.plan)
  let old := plan.map fun q => (q.entry, d.rqTail q.entry)
  let shares := d.shares p c g
  let d1 := if d.memberCtx c then d else (d.commitServing p c g a.epoch).advanceStage p c g
  let d2 := (d1.countCommit c a.epoch).upd [(Reg.STEP_TIMES c, Fld.STEP_TIMES_EXEC, min ((a.voteAt - a.startAt) / ns) 0xFFFFFFFF),
    (Reg.STEP_TIMES c, Fld.STEP_TIMES_DECIDE, min ((d1.ps - a.voteAt) / 10000) 0xFFFF)]
  let d3 := d2.chargeCommit p c shares
  let d4 := if d.memberCtx c then d3 else d3.publish p c a.epoch
  let d5 := (d4.endAttempt c).writeTails plan old
  let d6 := (d5.commitHandoff c a.epoch).flushLater p c a.epoch
  let d7 : Dev := { d6 with fab := { d6.fab with wkc := endLive p d6.fab.wkc } }
  (d7.drainDoorbells p).stopIfEmpty p c

def opCommitApplied (c : Nat) (d : Dev) : Dev :=
  match d.partOfCtx c with
  | some p =>
    match d.geo p c with
    | some g => if d.phase c = phCommit ∧ (d.att c).applying then d.commitApplied p c g else d
    | none => d
  | none => d

/-! ### After ABORTING (R251 to R256) -/

/-- The model-store region whose tiles cover a T2 address. -/
def Dev.regionAt (d : Dev) (a : Nat) : Option (Nat × Nat) :=
  (List.range 512).findSome? fun e =>
    if d.t2Here ∧ (d.msState e = msResident ∨ d.msState e = msDamaged) then
      ((List.range (d.msRegions e)).find? fun i => d.msDst e i ≤ a && a < d.msDst e i + tileBytes * d.msSlots e i).map fun i => (e, i)
    else none

/-- Does a request's chain hold block b? -/
def Dev.chainHas (d : Dev) (n b : Nat) : Bool := (d.chainBlocks (d.rq n 272 8) (d.chainNOf n)).contains b

/-- A KV block is lost on the device that holds the requests: requests whose chain holds it fail at an empty commit, handles that hold it become FREE, and it is never allocated again. -/
def Dev.loseBlock (d : Dev) (p c b : Nat) : Dev :=
  let hit := ((List.range (d.reqCount p)).map (d.reqFirst p + ·)).filter fun n => d.rqState n != rsFree && d.rqState n < rsCompleted && d.chainHas n b
  let hs := (d.srv.handles.filter fun (q : Nat × Handle) => q.2.st != .free && q.2.inT1.contains b).map (·.1)
  let d1 : Dev := { d with srv := { d.srv with dead := if d.srv.dead.contains b then d.srv.dead else d.srv.dead ++ [b] } }
  let d2 := hit.foldl (fun (e : Dev) n => if e.holdsSlot p n then e.setDue n dueKv else e.endReq p n rsFailed 7) d1
  let d3 := hs.foldl (fun (e : Dev) i => e.freePrefix i) d2
  (d3.emptyCommit p c).raise { notice cTileCheck 0x0C04 (b * 2 ^ 24 + hit.length) with part := some p, epoch := (d3.att c).epoch }

/-- The intact T2 copy of a block: that of a handle that was demoted and promoted (R256). -/
def Dev.t2Copy (d : Dev) (b : Nat) : Option Nat :=
  d.srv.handles.findSome? fun (q : Nat × Handle) =>
    if q.2.st = .valid then (q.2.copies.find? fun z => q.2.blocks[z.1]? == some b).map (·.2) else none

/-- A second failure at the same tile (R255). A member has no requests and assigns no epoch: for a lost KV block its third attempt starts as usual (log entry 91). -/
def Dev.secondFailure (d : Dev) (p c : Nat) : Dev :=
  match (d.att c).lastTile with
  | some k =>
    if (d.att c).tileFails < 2 then d
    else if k.what = 1 then
      match d.regionAt k.arg with
      | some (e, i) => ((d.requestRepair e i k.arg).setPhase c phHeld).modAtt c fun t => { t with hold := some (.repair e i) }
      | none => d
    else if k.what = 2 then
      match (if blkFrozen (d.blk k.arg) then d.t2Copy k.arg else none) with
      | some a =>
        let d1 := d.setMoving k.arg true
        ({ d1 with srv := { d1.srv with copies := d1.srv.copies ++ [(⟨p, k.arg, 0, a, d1.blkT1 p k.arg, false, rewriteHandle⟩ : BlockCopy)] } }.setPhase c phHeld).modAtt c fun t =>
          { t with hold := some (.block k.arg) }
      | none => if d.memberCtx c then d else d.loseBlock p c k.arg
    else d
  | none => d

/-- ABORTING_END: the footprint is re-tagged, the molt state is IDLE, and the loop replays, halts or waits. -/
def opAbortingEnd (p : Nat) (d : Dev) : Dev :=
  if d.moltState p = mAborting ∧ d.genRested p then
    let d1 := (d.retag p).setMoltState p mIdle
    let d2 := d1.setMolt p { d1.molt p with requests := [], draining := false, drained := [], barrier := false, target := none, abortWaits := false, held := none }
    match (d2.partCtxs p).find? fun c => d2.phase c == phAbort with
    | some c =>
      let t := min ((d2.ps - (d2.att c).abortAt) / 10000) 0xFFFF
      let d3 := (d2.wf (Reg.STEP_TIMES c) Fld.STEP_TIMES_ABORTING t).setPhase c phIdle
      if d3.loopState c = lpHalted then d3.showAll p c else (d3.secondFailure p c).stopIfEmpty p c
    | none => d2
  else d

def execAbortingEnd (p : PartIdx) (s : State) : Host.Outcome State Fault Refusal := done s (opAbortingEnd p s.dev)
def execAckDeadline (c : CtxIdx) (s : State) : Host.Outcome State Fault Refusal := done s (opAckDeadline c s.dev)
def execBroodCommitApply (c : CtxIdx) (s : State) : Host.Outcome State Fault Refusal := done s (opBroodCommitApply c s.dev)
def execMemberDecisionTimeout (c : CtxIdx) (s : State) : Host.Outcome State Fault Refusal := done s (opMemberDecisionTimeout c s.dev)

end Sys2Proof.Machine
end

