-- ==== Sys2Proof/Machine/Part.lean ====
section
/-!
DEFINITION. Partitions (R302 to R309): creation, sealing, teardown, scrubs, and the writes of PART_GLB, PART_SHARE, PART_CAP and LNK_DOMAIN (R334).
-/
namespace Sys2Proof.Machine

def psFree : Nat := 0
def psCreating : Nat := 1
def psActive : Nat := 2
def psSealed : Nat := 3
def psTeardown : Nat := 4

def Dev.setPartState (d : Dev) (p n : Nat) : Dev := d.wf (Reg.PART_STAT p) Fld.PART_STAT_STATE n
/-- Other partitions that are not FREE. -/
def Dev.otherParts (d : Dev) (p : Nat) : List Nat := filterBelow 16 fun q => q != p && d.partState q != psFree

/-! ### Checks (Table 10-8) -/

def Dev.rangeOf (d : Dev) (off : Nat) (first count : Fld) : Nat × Nat := (d.rf off first, d.rf off count)
/-- Do two ranges (first, count) share an index? An empty one shares none. -/
def rangesMeet (a b : Nat × Nat) : Bool := a.2 != 0 && b.2 != 0 && a.1 < b.1 + b.2 && b.1 < a.1 + a.2
def Dev.reqRange (d : Dev) (p : Nat) : Nat × Nat := d.rangeOf (Reg.PART_REQ p) Fld.PART_REQ_FIRST Fld.PART_REQ_COUNT
def Dev.ctxRange (d : Dev) (p : Nat) : Nat × Nat := d.rangeOf (Reg.PART_CTX p) Fld.PART_CTX_FIRST Fld.PART_CTX_COUNT
def Dev.qpRange (d : Dev) (p : Nat) : Nat × Nat := d.rangeOf (Reg.PART_QP p) Fld.PART_QP_FIRST Fld.PART_QP_COUNT
def Dev.domainOf (d : Dev) (p : Nat) : Nat := (d.rd (Reg.LNK_DOMAIN p)).toNat % 65536

/-- Check 2: the resources named. -/
def Dev.partNames (d : Dev) (p : Nat) : Bool :=
  let ends := fun (r : Nat × Nat) (n : Nat) => r.1 + r.2 ≤ n
  !(d.partCombs p).isEmpty && 1 ≤ (d.reqRange p).2 && ends (d.reqRange p) 16384 && ends (d.ctxRange p) 64 && ends (d.qpRange p) 4096 &&
    !bit (d.rd (Reg.PART_T1 p)).toNat 31 && (d.rd (Reg.PART_T2 p)).toNat < 2 ^ d.rf Reg.MEM_CFG Fld.MEM_CFG_T2_GRANULES

/-- Is a die of comb k marked (R473)? -/
def Dev.combMarked (d : Dev) (k : Nat) : Bool := bit (d.rd Reg.GLB_DIE_FAIL).toNat k || bit (d.rd Reg.GLB_DIE_FAIL).toNat (16 + k)

/-- Check 3: nothing is owned twice, and no domain is held twice; a marked comb counts as owned by another (R480). -/
def Dev.partDisjoint (d : Dev) (p : Nat) : Bool :=
  let meets := fun (off : Nat → Nat) (q : Nat) => (d.rd (off p) &&& d.rd (off q)) != 0
  ((d.otherParts p).all fun q =>
    !(meets Reg.PART_COMBS q || meets Reg.PART_T1 q || meets Reg.PART_T2 q || rangesMeet (d.reqRange p) (d.reqRange q) ||
      rangesMeet (d.ctxRange p) (d.ctxRange q) || rangesMeet (d.qpRange p) (d.qpRange q) || (d.domainOf p != 0 && d.domainOf p == d.domainOf q))) &&
    (d.partCombs p).all fun k => !d.combMarked k

/-- Check 4: the combs form a rectangle of the 4 × 4 grid. -/
def isRectangle (ks : List Nat) : Bool :=
  let xs := ks.map (· % 4)
  let ys := ks.map (· / 4)
  let w := maxOf xs + 1 - xs.foldl min 3
  let h := maxOf ys + 1 - ys.foldl min 3
  ks.length == w * h

/-- Check 5: with a word for p, no class exceeds 16. -/
def Dev.sharesFit (d : Dev) (p : Nat) (w : Word) : Bool :=
  [Fld.PART_SHARE_HOST, Fld.PART_SHARE_FABRIC, Fld.PART_SHARE_BROOD, Fld.PART_SHARE_T2].all fun f =>
    fget w f + (d.otherParts p).foldl (fun a q => a + d.rf (Reg.PART_SHARE q) f) 0 ≤ 16
/-- Check 6. -/
def capOk (w : Word) : Bool := let c := w.toNat % 4096; c == 0 || (100 ≤ c && c ≤ 3200)

/-- The first failing check of CREATE. -/
def Dev.createCheck (d : Dev) (p : Nat) : Option Nat :=
  if d.partState p ≠ psFree then some 1
  else if !d.partNames p then some 2
  else if !d.partDisjoint p then some 3
  else if d.rf Reg.PART_GLB Fld.PART_GLB_ISOLATE = 1 ∧ !isRectangle (d.partCombs p) then some 4
  else if !d.sharesFit p (d.rd (Reg.PART_SHARE p)) then some 5
  else if !capOk (d.rd (Reg.PART_CAP p)) then some 6
  else none

def prRunning : Nat := 1
def prDone : Nat := 2
def prRefused : Nat := 3
def prBusy : Nat := 4
def Dev.partResult (d : Dev) (p op check r : Nat) : Dev :=
  d.upd [(Reg.PART_CMD, Fld.PART_CMD_P, p), (Reg.PART_CMD, Fld.PART_CMD_OP, op), (Reg.PART_CMD, Fld.PART_CMD_CHECK, check), (Reg.PART_CMD, Fld.PART_CMD_RESULT, r)]
def Dev.partRefused (d : Dev) (p check : Nat) : Dev := d.raise (notice cHostProto 0x0E11 (p * 16 + check))

/-- Does a command of PART_CMD run? -/
def Dev.partCmdRuns (d : Dev) : Bool := d.sch.sealing.isSome || (List.range 16).any fun q => d.partState q == psCreating || d.partState q == psTeardown

/-- A command of PART_CMD: only the operator view writes it, and only while no command runs. -/
def Dev.partCommand (d : Dev) (v p : Nat) (check : Option Nat) (go : Dev → Dev) : Dev :=
  if v ≠ 0 then d
  else if d.partCmdRuns then d.wf Reg.PART_CMD Fld.PART_CMD_RESULT prBusy
  else match check with
    | some n => (d.partRefused p n).partResult p 0 n prRefused
    | none => go d

/-! ### Creation (R303) -/

/-- Firmware writes the comb map of p: value p + 1 for its combs, or 0. -/
def Dev.mapCombs (d : Dev) (p v : Nat) : Dev :=
  { d with fab := { d.fab with combMap := (d.partCombs p).foldl (fun m k => sput (fun _ => 0) m k v) d.fab.combMap } }

/-- The keys of p: those of its view (R384), and under ENC its AES-XTS pair (R487), known by the draw that made it. -/
def Dev.installKeys (d : Dev) (p : Nat) : Dev :=
  let d1 := (d.wr (Reg.LNK_VIEW_KEY (1 + p)) d.draw).drawn
  if d1.rf (Reg.PART_CFG p) Fld.PART_CFG_ENC = 1 then
    { d1 with sec := { d1.sec with xts := sput (fun _ => 0) d1.sec.xts p d1.fresh } }.drawn
  else d1

/-- A creation begins: RUNNING until its scrubs end. -/
def Dev.beginCreate (d : Dev) (p : Nat) : Dev :=
  let e1 := (((d.partResult p 1 0 prRunning).setPartState p psCreating).mapCombs p (p + 1)).installKeys p
  { e1 with sch := { e1.sch with scrubAt := sput (fun _ => none) e1.sch.scrubAt p (some e1.ps) } }

def opPartCreate (v p : Nat) (d : Dev) : Dev := d.partCommand v p (d.createCheck p) fun e => e.beginCreate p

/-! ### Scrubs (R307, R308) -/

/-- Resources of p as 65,536·kind + index: combs 0, T1 granules 1, T2 granules 2, request entries 3. -/
def Dev.resources (d : Dev) (p : Nat) : List Nat :=
  d.partCombs p ++ (filterBelow 32 fun g => bit (d.rd (Reg.PART_T1 p)).toNat g).map (65536 + ·) ++
    (filterBelow 32 fun g => bit (d.rd (Reg.PART_T2 p)).toNat g).map (131072 + ·) ++ (List.range (d.reqRange p).2).map fun i => 196608 + (d.reqRange p).1 + i

/-- Zero everything that combs hold. -/
def Dev.scrubCombs (d : Dev) (ks : List Nat) : Dev :=
  let mine := fun (c : Nat) => ks.contains (combOf c)
  let page := fun (off : Nat) => 0x8000000 ≤ off && mine ((off - 0x8000000) / 0x4000) &&
    ((8 ≤ off % 0x4000 && off % 0x4000 < 0x68) || off % 0x4000 == 0x100)
  { d with
    regs := d.regs.filter (fun q => !page q.1),
    mem := d.mem.filter (fun q => !(q.1 < 0x80000000 && mine (q.1 / 0x40000))),
    fab := { d.fab with
      cells := d.fab.cells.filter (fun q => !mine q.1), seqs := d.fab.seqs.filter (fun q => !ks.contains (q.1 / 4)),
      bnd := d.fab.bnd.filter (fun q => !ks.contains (q.1 / 64)), issues := d.fab.issues.filter (fun (i : Issue) => !ks.contains i.comb) } }

/-- Zero granules and request entries; the directory of the model store lies outside every granule (R176). -/
def Dev.scrubMemory (d : Dev) (rs : List Nat) : Dev :=
  let t1 := rs.filter fun r => r / 65536 == 1
  let t2 := rs.filter fun r => r / 65536 == 2
  let req := rs.filter fun r => r / 65536 == 3
  let inReserve := fun (a : Nat) => 0xFFE0000000 ≤ a && a < 0x10000000000
  let gone := fun (a : Nat) =>
    (t1Base ≤ a && a < t1End && !inReserve a && t1.contains (65536 + t1Granule a)) || (t2Base + 0x200000 ≤ a && t2.contains (131072 + t2Granule a)) ||
    (0xFFEC000000 ≤ a && a < 0xFFEC800000 && req.contains (196608 + (a - 0xFFEC000000) / 512)) ||
    (0xFFEC800000 ≤ a && a < 0xFFED000000 && req.contains (196608 + (a - 0xFFEC800000) / 512))
  { d with mem := d.mem.filter fun q => !gone q.1 }

/-- Zero the block table and reference counts of p's pool, its handles and its accounting records. -/
def Dev.scrubTables (d : Dev) (p : Nat) : Dev :=
  let lo := d.poolFirst p
  let hi := lo + d.poolCount p
  let gone := fun (a : Nat) => (blkAddr lo ≤ a && a < blkAddr hi) || (refAddr lo ≤ a && a < refAddr hi)
  let d1 : Dev := { d with
    mem := d.mem.filter (fun q => !gone q.1),
    srv := { d.srv with
      handles := d.srv.handles.filter (fun (q : Nat × Handle) => !(q.2.part == p && q.2.st != .free)),
      copies := d.srv.copies.filter fun x => x.part != p } }
  let mine := (List.range 4096).filter fun i => (d1.rd (acctOff i 0)).toNat / 2 ^ 48 % 16 == p && 2 ^ 63 ≤ (d1.rd (acctOff i 0)).toNat
  let d2 := mine.foldl (fun (e : Dev) i => e.clearWords i 0) (d1.wf Reg.ACCT_USED Fld.ACCT_USED_USED (d1.rf Reg.ACCT_USED Fld.ACCT_USED_USED - mine.length))
  d2.clearWords (4096 + p) 0

/-- Scrub the listed resources of p, and under a teardown everything it holds beside. -/
def Dev.scrub (d : Dev) (p : Nat) (rs : List Nat) (all : Bool) : Dev :=
  let d1 := (d.scrubCombs (rs.filter fun r => r < 65536)).scrubMemory rs
  let d2 : Dev := { d1 with fab := { d1.fab with wkc := if all then d1.fab.wkc.filter (fun q => q.1 / 256 % 16 != p) else d1.fab.wkc } }
  if all then d2.scrubTables p else d2

/-- Registers in a range of offsets take their reset values. -/
def Dev.resetRange (d : Dev) (lo n : Nat) : Dev := { d with regs := d.regs.filter fun q => !(lo ≤ q.1 && q.1 < lo + n) }

/-- Step 4 of R306: keys, key digests, MRP, the comb map, the MOLT and PWR registers of p, and the XPT registers of its contexts (R286). -/
def Dev.dropKeys (d : Dev) (p : Nat) : Dev :=
  let d1 := (List.range 4).foldl (fun (e : Dev) j => (List.range 8).foldl (fun (f : Dev) i => f.wr (Reg.SEC_KEYDIG p j i) 0) e) d
  let d2 := ((List.range 8).foldl (fun (e : Dev) i => e.wr (Reg.SEC_MRP p i) 0) d1).mapCombs p 0
  let d3 := ((d2.resetRange (0x800000 + 0x1000 * p) 0x1000).resetRange (0x810000 + 0x100 * p) 0x100).resetRange (Reg.XPT_SENT (d.ctxRange p).1) (0x40 * (d.ctxRange p).2)
  let d4 := (((d3.wr (Reg.PWR_PART_EST p) 0).wr (Reg.PWR_PART_ENERGY p) 0).wr (Reg.PWR_FIXED p) 0)
  let d5 := (List.range 7).foldl (fun (e : Dev) i => (e.wr (Reg.PWR_PART_THR_US p i) 0).setCeil i (1 + p) Ceil.zero) d4
  { d5 with
    img := { d5.img with molts := sput (fun _ => Molt.zero) d5.img.molts p Molt.zero },
    pwr := { d5.pwr with fixed := sput (fun _ => 0#64) d5.pwr.fixed p 0, sliceLimit := sput (fun _ => none) d5.pwr.sliceLimit p none },
    sec := { d5.sec with cak := sput (fun _ => []) d5.sec.cak (1 + p) [], xts := sput (fun _ => 0) d5.sec.xts p 0 } }

/-- SCRUB_END: a partition in creation becomes ACTIVE, one in teardown FREE. -/
def opScrubEnd (p : Nat) (d : Dev) : Dev :=
  let took := match sget (fun _ => none) d.sch.scrubAt p with | some t => min ((d.ps - t) / ms) 0xFFFF | none => 0
  let fin := fun (e : Dev) => ({ e with sch := { e.sch with scrubAt := sput (fun _ => none) e.sch.scrubAt p none } }.wf (Reg.PART_STAT p) Fld.PART_STAT_SCRUB_MS took).partResult
    p 0 0 prDone
  let rs := d.resources p
  if d.partState p = psCreating then
    let d1 := d.scrub p (rs.filter fun r => !d.sch.clean.contains r) false
    fin ({ d1 with sch := { d1.sch with clean := d1.sch.clean.filter fun r => !rs.contains r } }.setPartState p psActive)
  else if d.partState p = psTeardown then
    let d1 := (d.partCombs p).foldl (fun (e : Dev) k => e.combOff k) ((d.scrub p rs true).dropKeys p)
    fin ({ d1 with sch := { d1.sch with clean := d1.sch.clean ++ rs } }.setPartState p psFree)
  else d

/-! ### Sealing (R305) -/

def Dev.sealCheck (d : Dev) (p : Nat) : Option Nat :=
  if d.partState p ≠ psActive then some 1
  else if (List.range 4).all fun j => (d.keySlot p j).all (· == 0#8) then some 7
  else none

/-- The setup of p as MRP measures it (Table 16-4). -/
def Dev.setupBytes (d : Dev) (p : Nat) : List Byte :=
  [Reg.PART_COMBS p, Reg.PART_T1 p, Reg.PART_T2 p, Reg.PART_REQ p, Reg.PART_CTX p, Reg.PART_QP p, Reg.PART_SHARE p, Reg.PART_CAP p, Reg.PART_CFG p, Reg.PART_GLB].flatMap
    fun off => toLe 8 (d.rd off).toNat

def opPartSeal (v p : Nat) (d : Dev) : Dev :=
  d.partCommand v p (d.sealCheck p) fun e => ({ e with sch := { e.sch with sealing := some p } }).partResult p 2 0 prRunning

/-- The end of a SEAL: the measurement is extended, and the setup of p is frozen. -/
def Dev.endSeal (d : Dev) (p : Nat) : Dev :=
  let d1 : Dev := { d with sch := { d.sch with sealing := none } }
  ((d1.extendMr (Reg.SEC_MRP p) (sha512 (d1.setupBytes p))).setPartState p psSealed).partResult p 0 0 prDone

/-! ### Teardown (R306) -/

def Dev.teardownCheck (d : Dev) (p : Nat) : Option Nat := if d.partUsable p then none else some 1

/-- An attempt of a partition that goes ends without a commit, a replay or an abort record; the other participants of its brood hear that it is lost. -/
def Dev.endCtx (d : Dev) (p c : Nat) : Dev :=
  let d1 := if d.executing c then d.spreadAbort c ⟨0x43, 0x0C03, false, d.pos, cLinkDown⟩ else d
  let d2 := d1.dropEngines c
  let d3 := (d2.setPhase c phIdle).setLoop c lpStopped
  let d4 := d3.upd [(Reg.SCHED_CTX c, Fld.SCHED_CTX_ENABLE, 0), (Reg.STEP_PHASE c, Fld.STEP_PHASE_FAILS, 0), (Reg.STEP_PHASE c, Fld.STEP_PHASE_HALT_CAUSE, 0)]
  let a := d4.att c
  let d5 := (d4.setAtt c { Attempt.zero with epoch := a.epoch, lastCommitted := a.lastCommitted }).evict p c
  { ((d5.setHolds c []).setLater c []).setAwaits c [] with lnk := { d5.lnk with handoff := sput (fun _ => Handoff.zero) d5.lnk.handoff c Handoff.zero } }

/-- Every request of p ends FAILED with STATUS TEARDOWN, without an event, and is FREE. -/
def Dev.freeReqs (d : Dev) (p : Nat) : Dev :=
  (List.range (d.reqCount p)).foldl (fun (e : Dev) i =>
    let n := e.reqFirst p + i
    if e.rqState n = rsFree then e
    else (((e.setDue n 0).setReserved n 0).setChainN n 0).setBytes (reqWork n + 256) (zeros 256) |>.commitReq n) d

/-- Launch slots of p become EMPTY. -/
def Dev.emptySlots (d : Dev) (p : Nat) : Dev :=
  (List.range 32).foldl (fun (e : Dev) n =>
    if e.slotAct n Fld.TIME_LAUNCH_ACT_PART = p then (e.wr (Reg.TIME_LAUNCH_STAT n) 0).setLaunchSt n LaunchSt.zero else e) d

/-- Step 2 of R306. -/
def Dev.dropPartition (d : Dev) (p : Nat) : Dev :=
  let d1 := (d.partCtxs p).foldl (fun (e : Dev) c => e.endCtx p c) (d.freeReqs p)
  let d2 := (List.range 16).foldl (fun (e : Dev) h => if e.handleState (16 * p + h) = 0 then e else e.freeHandle p h) d1
  let d3 := if d2.t2Here then (List.range 512).foldl (fun (e : Dev) i => if e.msOwned p i then e.freeEntry i else e) d2 else d2
  let d4 := (List.range (d3.qpRange p).2).foldl (fun (e : Dev) i =>
    e.qpError ((e.qpRange p).1 + i) 5) d3
  let d5 : Dev := { d4 with
    ldr := { d4.ldr with jobs := d4.ldr.jobs.filter (fun j => j.part != p), ended := d4.ldr.ended.filter fun q => q.1 != p },
    sch := { d4.sch with act := sput (fun _ => []) d4.sch.act (64 + p) [], counter := sput (fun _ => 0) d4.sch.counter p 0, compare := sput (fun _ => none) d4.sch.compare p none },
    lnk := { d4.lnk with groups := d4.lnk.groups.filter fun (q : Nat × CollGroup) => q.1 / 256 != p },
    srv := { d4.srv with
      evts := sput (fun _ => []) d4.srv.evts p [], evtHead := sput (fun _ => 0) d4.srv.evtHead p 0, evtTail := sput (fun _ => 0) d4.srv.evtTail p 0,
      evtLost := sput (fun _ => 0) d4.srv.evtLost p 0, doorbells := sput (fun _ => []) d4.srv.doorbells p [] } }
  d5.emptySlots p

def opPartTeardown (v p : Nat) (d : Dev) : Dev :=
  d.partCommand v p (d.teardownCheck p) fun e =>
    let busy := e.partBusy p
    let e1 := (e.partResult p 3 0 prRunning).dropPartition p
    let e2 := (if busy then e1.startAborting p else e1).setPartState p psTeardown
    { e2 with sch := { e2.sch with scrubAt := sput (fun _ => none) e2.sch.scrubAt p (some e2.ps) } }

/-! ### Writes of partition registers (R303, R309, R334) -/

def opPartIsolate (v : Nat) (b : Bool) (d : Dev) : Dev :=
  if v = 0 ∧ (List.range 16).all fun p => d.partState p == psFree then d.wf Reg.PART_GLB Fld.PART_GLB_ISOLATE (b2n b) else d

/-- A write of PART_SHARE or PART_CAP: through the operator view, while p is FREE, or ACTIVE and the check passes. -/
def Dev.partSetting (d : Dev) (v p off check : Nat) (ok : Bool) (val : Word) : Dev :=
  if d.sealed p then d.lockRec v p off
  else if v ≠ 0 then d
  else if d.partState p = psFree then d.wr off val
  else if d.partState p = psActive then (if ok then d.wr off val else d.partRefused p check)
  else d

/-- Bits of PART_SHARE and PART_CAP that store. -/
def shareMask : Word := 0x1F1F1F1F
def capMask : Word := 0xFFF

def opPartShare (v p : Nat) (val : Word) (d : Dev) : Dev := d.partSetting v p (Reg.PART_SHARE p) 5 (d.sharesFit p (val &&& shareMask)) (val &&& shareMask)
def opPartCap (v p : Nat) (val : Word) (d : Dev) : Dev := d.partSetting v p (Reg.PART_CAP p) 6 (capOk (val &&& capMask)) (val &&& capMask)

/-- LNK_DOMAIN_WRITE: no value that another partition holds that is not FREE. -/
def opLnkDomain (v p : Nat) (val : Word) (d : Dev) : Dev :=
  let n := val.toNat % 65536
  if d.sealed p then d.lockRec v p (Reg.LNK_DOMAIN p)
  else if v ≠ 0 then d
  else if n ≠ 0 ∧ (d.otherParts p).any fun q => d.domainOf q == n then d.raise (notice cHostProto 0x0F41 p)
  else d.wr (Reg.LNK_DOMAIN p) (BitVec.ofNat 64 n)

def execPartCreate (v : View) (p : PartIdx) (s : State) : Host.Outcome State Fault Refusal := hostDone s Reg.PART_CMD (opPartCreate v p)
def execScrubEnd (p : PartIdx) (s : State) : Host.Outcome State Fault Refusal := done s (opScrubEnd p s.dev)
def execPartSeal (v : View) (p : PartIdx) (s : State) : Host.Outcome State Fault Refusal := hostDone s Reg.PART_CMD (opPartSeal v p)
def execPartTeardown (v : View) (p : PartIdx) (s : State) : Host.Outcome State Fault Refusal := hostDone s Reg.PART_CMD (opPartTeardown v p)
def execPartIsolateWrite (v : View) (b : Bool) (s : State) : Host.Outcome State Fault Refusal := hostDone s Reg.PART_GLB (opPartIsolate v b)
def execPartShareWrite (v : View) (p : PartIdx) (val : Word) (s : State) : Host.Outcome State Fault Refusal := hostDone s (Reg.PART_SHARE p) (opPartShare v p val)
def execPartCapWrite (v : View) (p : PartIdx) (val : Word) (s : State) : Host.Outcome State Fault Refusal := hostDone s (Reg.PART_CAP p) (opPartCap v p val)
def execLnkDomainWrite (v : View) (p : PartIdx) (val : Word) (s : State) : Host.Outcome State Fault Refusal := hostDone s (Reg.LNK_DOMAIN p) (opLnkDomain v p val)

end Sys2Proof.Machine
end

