-- ==== Sys2Proof/Machine/Psr.lean ====
section
/-!
DEFINITION. The persistent register file (R458 to R467): which words a host writes, the queue of operations, wear and locks, the journal, and what
a loss of power leaves.
-/
namespace Sys2Proof.Machine

/-! ### Words (Tables 15-7 and 15-8) -/

/-- Bits of a word that the host writes; 0 for RO and reserved words. -/
def psrMask (n : Nat) : Nat :=
  if n = 0 then 0x80000000000FFFFF
  else if n = 1 then 0xFFF
  else if n = 2 then 0xFFFFFFFFFFFF
  else if n = 3 then 3
  else if n = 4 then 0xFFF
  else if n = 5 then 7
  else if n = 6 then 1
  else if n = 9 then 0x7FFFF
  else if n = 10 then 0xFFFFFFFF
  else if n = 20 ∨ (768 ≤ n ∧ n < 1024) then 2 ^ 64 - 1
  else if 21 ≤ n ∧ n ≤ 52 then (if n % 2 = 1 then 0x8000FFFFFFFFFFFF else 2 ^ 64 - 1)
  else 0

def psrHost (n : Nat) : Bool := psrMask n != 0

/-- R467: a port-role word without MGMT, a MAC base with low bits set. -/
def psrForbidden (n : Nat) (w : Word) : Bool :=
  (n == 1 && !((List.range 4).any fun e => bit w.toNat (3 * e + 2))) || (n == 2 && w.toNat % 128 != 0)

/-! ### Wear (R462) -/

def endurance : Nat := 100000
def Dev.psrWear (d : Dev) (n : Nat) : Nat := sget (fun _ => 0) d.psr.wear n
def Dev.psrLocked (d : Dev) (n : Nat) : Bool := endurance ≤ d.psrWear n

/-- PSR_STAT.RESULT. -/
def rsDone : Nat := 1
def rsWorn : Nat := 2
def rsPsrRefused : Nat := 3
def rsBusy : Nat := 4
def Dev.psrResult (d : Dev) (n : Nat) : Dev := d.wf Reg.PSR_STAT Fld.PSR_STAT_RESULT n

/-- PSR_STAT.PENDING: operations behind the one in progress. -/
def Dev.psrPending (d : Dev) : Dev := d.wf Reg.PSR_STAT Fld.PSR_STAT_PENDING (d.psr.ops.length - 1)

/-- Write one word: a locked word keeps its value, an equal value costs nothing, a change adds 1 to its wear. The last result says whether it was locked. -/
def Dev.psrSet (d : Dev) (n : Nat) (w : Word) : Bool × Dev :=
  if d.psrLocked n then
    (false, if d.psr.told.contains n then d
      else { d with psr := { d.psr with told := n :: d.psr.told } }.raise (notice cPsrWorn 0x1301 n))
  else if d.psrWord n = w then (true, d)
  else
    let k := d.psrWear n + 1
    let d1 : Dev := { d with psr := { d.psr with words := sput psrShipped d.psr.words n w, wear := sput (fun _ => 0) d.psr.wear n k } }
    (true, if k = endurance then d1.raise (notice cPsrWorn 0x1302 n) else d1)

/-! ### The queue (R459) -/

def Dev.psrQueue (d : Dev) (o : PsrOp) : Dev := ({ d with psr := { d.psr with ops := d.psr.ops ++ [o] } }).psrPending

/-- A firmware write. -/
def Dev.psrFirm (d : Dev) (n : Nat) (w : Word) : Dev := d.psrQueue ⟨false, false, [(n, w)]⟩

/-- Would a host operation find 16 waiting? -/
def Dev.psrFull (d : Dev) : Bool := 17 ≤ d.psr.ops.length

def Dev.psrRefused (d : Dev) (n : Nat) : Dev := (d.raise (notice cHostProto 0x1321 (n * 2 ^ 16))).psrResult rsPsrRefused

/-- PSR_WRITE: only the operator view, only words that the host may write. -/
def opPsrWrite (v n : Nat) (w : Word) (d : Dev) : Dev :=
  if v ≠ 0 ∨ !psrHost n then d
  else
    let x := w &&& BitVec.ofNat 64 (psrMask n)
    if psrForbidden n x then d.psrRefused n
    else if d.psrFull then d.psrResult rsBusy
    else d.psrQueue ⟨true, false, [(n, x)]⟩

/-! ### Group commits (R461) -/

/-- Highest write count of a journal word: the journal's 64 words wear evenly by rotation. -/
def Dev.journalWear (d : Dev) : Nat := (d.psr.journal + 63) / 64
def Dev.journalWorn (d : Dev) : Bool := endurance ≤ d.journalWear

def Dev.groupWords (d : Dev) (n : Nat) : List (Nat × Word) :=
  (List.range n).map fun i =>
    let x := (d.rd (Reg.PSR_GRP_IDX i)).toNat % 1024
    (x, d.rd (Reg.PSR_GRP_VAL i) &&& BitVec.ofNat 64 (psrMask x))

/-- The word for which a group is refused: an index that appears twice, that the host cannot write, or whose value R467 forbids. -/
def badGroup (ws : List (Nat × Word)) : Option Nat :=
  (ws.find? fun q => 2 ≤ (ws.filter fun r => r.1 == q.1).length || !psrHost q.1 || psrForbidden q.1 q.2).map (·.1)

/-- PSR_GROUP_COMMIT; while GO reads 1 another GO changes nothing. -/
def opPsrGroup (v n : Nat) (d : Dev) : Dev :=
  if v ≠ 0 ∨ d.rf Reg.PSR_GRP_CMD Fld.PSR_GRP_CMD_GO = 1 then d
  else
    let d1 := d.wf Reg.PSR_GRP_CMD Fld.PSR_GRP_CMD_COUNT n
    let ws := d.groupWords n
    if n = 0 ∨ 8 < n then d1.psrRefused 0
    else
      match badGroup ws with
      | some k => d1.psrRefused k
      | none =>
        if d.journalWorn ∨ ws.any (fun q => d.psrLocked q.1) then d1.psrResult rsWorn
        else if d.psrFull then d1.psrResult rsBusy
        else (d1.wf Reg.PSR_GRP_CMD Fld.PSR_GRP_CMD_GO 1).psrQueue ⟨true, true, ws⟩

/-! ### Completion (R458, R460 to R462) -/

/-- The words of an operation take effect together. -/
def Dev.psrApply (d : Dev) (o : PsrOp) : Bool × Dev := o.words.foldl (fun (r : Bool × Dev) q => let s := r.2.psrSet q.1 q.2; (r.1 && s.1, s.2)) (true, d)

/-- A group commit wears the journal. -/
def Dev.psrJournal (d : Dev) (o : PsrOp) : Dev :=
  if o.group then
    let d1 : Dev := { d with psr := { d.psr with journal := d.psr.journal + o.words.length } }
    let d2 := d1.wf Reg.PSR_STAT Fld.PSR_STAT_JWEAR d1.journalWear
    if d1.journalWorn ∧ !d.journalWorn then (d2.wf Reg.PSR_STAT Fld.PSR_STAT_JOURNAL_WORN 1).raise (notice cPsrWorn 0x1304 0) else d2
  else d

/-- PSR_OP_COMPLETE. -/
def opPsrComplete (d : Dev) : Dev :=
  match d.psr.ops with
  | o :: rest =>
    let r := (d.psrJournal o).psrApply o
    let d1 := ({ r.2 with psr := { r.2.psr with ops := rest } }).psrPending
    let d2 := if o.group then d1.wf Reg.PSR_GRP_CMD Fld.PSR_GRP_CMD_GO 0 else d1
    if o.host then d2.psrResult (if r.1 then rsDone else rsWorn) else d2
  | [] => d

/-- When power is lost the operation in progress is done as a whole or not at all, which a draw decides; the others are lost. -/
def Dev.psrPowerLost (d : Dev) : Dev :=
  match d.psr.ops with
  | o :: _ =>
    let d1 := if d.draw.toNat % 2 = 1 then ((d.psrJournal o).psrApply o).2 else d
    { d1.drawn with psr := { d1.psr with ops := [] } }
  | [] => d

/-! ### Stage 3 (R463, R464) -/

/-- A corrected word is written back, which wears it. -/
def Dev.psrCorrected (d : Dev) (n : Nat) : Dev :=
  if d.psrLocked n then d
  else
    let k := d.psrWear n + 1
    let d1 : Dev := { d with psr := { d.psr with wear := sput (fun _ => 0) d.psr.wear n k } }
    if k = endurance then d1.raise (notice cPsrWorn 0x1302 n) else d1

/-- An uncorrectable word reads as shipped, and PSR_BAD shows it. -/
def Dev.psrBad (d : Dev) (n : Nat) : Dev :=
  let d1 : Dev := { d with psr := { d.psr with words := sput psrShipped d.psr.words n (psrShipped n) } }
  (d1.wr (Reg.PSR_BAD (n / 64)) (d1.rd (Reg.PSR_BAD (n / 64)) ||| BitVec.ofNat 64 (2 ^ (n % 64)))).raise (notice cPsrWorn 0x1303 n)

def svnOf (w : Word) : Nat := fget w Fld.PSR_ARB_SVN

/-- The anti-rollback value: the larger copy. -/
def Dev.arbValue (d : Dev) : Nat := max (svnOf (d.psrWord 7)) (svnOf (d.psrWord 8))

/-- A copy that is lower or bad is rewritten. -/
def Dev.arbRewrite (d : Dev) : Dev :=
  let w := BitVec.ofNat 64 d.arbValue
  [7, 8].foldl (fun (e : Dev) n => if e.psrWord n = w then e else (e.psrSet n w).2) d

/-! ### The commands -/

def execPsrWrite (v : View) (n : Fin 1024) (w : Word) (s : State) : Host.Outcome State Fault Refusal := hostDone s (Reg.PSR_WORD n) (opPsrWrite v n w)
def execPsrGroupCommit (v : View) (n : BitVec 4) (s : State) : Host.Outcome State Fault Refusal := hostDone s Reg.PSR_GRP_CMD (opPsrGroup v n.toNat)
def execPsrOpComplete (s : State) : Host.Outcome State Fault Refusal := done s (opPsrComplete s.dev)

end Sys2Proof.Machine
end

