-- ==== Sys2Proof/Machine/Boot.lean ====
section
/-!
DEFINITION. Start-up (R443 to R457, R468): boot stages and failures, firmware slots, netboot, power-good and reset signals, and the commands of
BOOT_CMD.
-/
namespace Sys2Proof.Machine

/-! ### Stages (R446) -/

/-- Does the boot sequence run: always-on power and CLKIN, no reset held, no trip, chrysalis state, back-off or loss of the main rails? -/
def Dev.booting (d : Dev) : Bool :=
  d.boot.pgAon && !d.boot.held && !d.boot.porstLow && !d.pwr.trip && !d.chrysalis && d.boot.backoffAt.isNone && !d.boot.mainFell && !d.ready

/-- Is stage 6 waiting for PG_MAIN or CONTINUE? -/
def Dev.bootWaits (d : Dev) : Bool :=
  d.rf Reg.BOOT_STAT Fld.BOOT_STAT_WAIT_MAIN == 1 || d.rf Reg.BOOT_STAT Fld.BOOT_STAT_WAIT_CONT == 1

def Dev.attemptNo (d : Dev) : Nat := d.rf Reg.BOOT_STAT Fld.BOOT_STAT_ATTEMPT
def Dev.source (d : Dev) : Nat := d.rf Reg.BOOT_STAT Fld.BOOT_STAT_SOURCE

/-- The next stage begins; stage 6 waits for PG_MAIN, and under HOLD for CONTINUE (R448); stage 8 opens the ports that the role brings up (R23). -/
def Dev.enterStage (d : Dev) (n : Nat) : Dev :=
  let d1 : Dev := { d.wf Reg.BOOT_STAT Fld.BOOT_STAT_STAGE n with boot := { d.boot with stageAt := d.ps } }
  if n = 6 then
    d1.upd [(Reg.BOOT_STAT, Fld.BOOT_STAT_WAIT_MAIN, b2n !d.boot.pgMain),
      (Reg.BOOT_STAT, Fld.BOOT_STAT_WAIT_CONT, b2n (fget (d.effWord 5) Fld.PSR_BOOT_POLICY_HOLD == 1 && !d.boot.cont))]
  else if n = 8 then d1.openPorts
  else d1

/-! ### Failures (R447, R455, R457) -/

/-- The back-off of failed attempt a, in seconds. -/
def backoffS (a : Nat) : Nat := if 7 ≤ a then 64 else 2 ^ (a - 1)
/-- 1 s in ps. -/
def second : Nat := 1000 * ms

/-- The persistent word of the last failure is written at most once in 3,600 s, and only when its stage or code changes. -/
def Dev.writeLastFail (d : Dev) (code : Nat) : Dev :=
  let w := d.psrWord 19
  let due : Bool := match d.boot.failWrote with | some t => t + 3600 * second ≤ d.ps | none => true
  if due ∧ !(fget w Fld.PSR_BOOT_LASTFAIL_STAGE = d.stage ∧ fget w Fld.PSR_BOOT_LASTFAIL_CODE = code) then
    { d with boot := { d.boot with failWrote := some d.ps } }.psrFirm 19
      (BitVec.ofNat 64 (d.stage * 2 ^ 48 + code * 2 ^ 40 + d.source * 2 ^ 32 + d.attemptNo))
  else d

/-- The boot fails with a code of Table 15-3: the failure is recorded, the main rails go unused, and the back-off begins. -/
def Dev.bootFail (d : Dev) (code : Nat) : Dev :=
  let d1 := d.upd [(Reg.BOOT_FAIL, Fld.BOOT_FAIL_STAGE, d.stage), (Reg.BOOT_FAIL, Fld.BOOT_FAIL_CODE, code), (Reg.BOOT_FAIL, Fld.BOOT_FAIL_ATTEMPT, d.attemptNo)]
  let d2 := d1.writeLastFail code
  let d3 := if 6 ≤ d.stage then d2.powerDown else d2
  { d3 with boot := { d3.boot with backoffAt := some (d.ps + backoffS d.attemptNo * second) } }

/-! ### Firmware (R449 to R451) -/

/-- The largest firmware image. -/
def fwMax : Nat := 12582912

/-- Bytes of a slot. -/
def Dev.fwBytes (d : Dev) (s off n : Nat) : List Byte := (List.range n).map fun i => sget (fun _ => 0#8) d.boot.slots (s * 2 ^ 24 + off + i)

/-- The digest of Yalhan's key, held in ROM. -/
def yalhanDigest : List Byte := (List.range 64).map Config.yalhanKey

/-- The first failing check of Table 15-5, as its RESULT, over an image of n bytes that a reader gives. -/
def Dev.fwCheck (d : Dev) (n : Nat) (read : Nat → Nat → List Byte) : Option Nat :=
  let num := fun (off len : Nat) => leNat (read off len)
  let sig := num 16 8
  let blk := read sig 384
  if read 0 4 != [0x59#8, 0x47#8, 0x46#8, 0x57#8] ∨ num 4 1 ≠ 1 then some 2
  else if num 12 2 ≠ 0x5840 ∨ !bit (num 14 2) 4 then some 3
  else if sig % 64 ≠ 0 ∨ fwMax < sig + 384 ∨ n < sig + 384 then some 4
  else if !sigKeyOk blk ∨ sigKey blk != yalhanDigest then some 5
  else if !sigOk blk (sha512 (read 0 sig)) then some 6
  else if num 8 4 < d.arbValue then some 7
  else none

/-- The image runs: BOOT_STAT, BOOT_FW, BOOT_DIGEST and MR1 (R484), then stage 6. -/
def Dev.runFirmware (d : Dev) (source : Nat) (read : Nat → Nat → List Byte) : Dev :=
  let num := fun (off len : Nat) => leNat (read off len)
  let digest := sha512 (read 0 (num 16 8))
  let d1 := d.upd [(Reg.BOOT_STAT, Fld.BOOT_STAT_SOURCE, source), (Reg.BOOT_FW, Fld.BOOT_FW_SVN, num 8 4), (Reg.BOOT_FW, Fld.BOOT_FW_MAJOR, num 5 1),
    (Reg.BOOT_FW, Fld.BOOT_FW_MINOR, num 6 1), (Reg.BOOT_FW, Fld.BOOT_FW_PATCH, num 7 1)]
  let d2 := (List.range 8).foldl (fun (e : Dev) i => e.wr (Reg.BOOT_DIGEST i) (BitVec.ofNat 64 (leAt digest (8 * i) 8))) d1
  (d2.extendMr (Reg.SEC_MR 1) digest).enterStage 6

/-- Check a slot: BOOT_SLOT shows the outcome, and a failure is recorded. -/
def Dev.checkSlot (d : Dev) (s : Nat) : Bool × Dev :=
  let num := fun (off len : Nat) => leNat (d.fwBytes s off len)
  let show_ := fun (r : Nat) => d.upd [(Reg.BOOT_SLOT s, Fld.BOOT_SLOT_SVN, num 8 4), (Reg.BOOT_SLOT s, Fld.BOOT_SLOT_RESULT, r),
    (Reg.BOOT_SLOT s, Fld.BOOT_SLOT_WRITES_HI, sget (fun _ => 0) d.boot.slotWrites s / 2 ^ 14), (Reg.BOOT_SLOT s, Fld.BOOT_SLOT_MAJOR, num 5 1),
    (Reg.BOOT_SLOT s, Fld.BOOT_SLOT_MINOR, num 6 1), (Reg.BOOT_SLOT s, Fld.BOOT_SLOT_PATCH, num 7 1)]
  match d.fwCheck fwMax (d.fwBytes s) with
  | some r => (false, (show_ r).raise (notice cSecurity 0x1311 (s + r * 256)))
  | none => (true, show_ 1)

/-- The slot that stage 4 checks first (R451). -/
def Dev.firstSlot (d : Dev) : Nat := fget (d.effWord 6) Fld.PSR_FW_SLOT_PREFERRED

/-- The limit of a stage in ms: 150 for each slot that stage 4 tries (Table 15-2). -/
def Dev.stageLimit (d : Dev) : Nat :=
  match d.stage with
  | 1 => 1
  | 2 => 5
  | 3 => 20
  | 4 => if (d.fwCheck fwMax (d.fwBytes d.firstSlot)).isNone then 150 else 300
  | 5 => 90000
  | 6 => 400
  | 7 => 3000
  | _ => 1500

def opStageTimeout (d : Dev) : Dev :=
  if d.booting ∧ !d.bootWaits ∧ d.stage < 9 ∧ d.boot.stageAt + d.stageLimit * ms ≤ d.ps then d.bootFail 1 else d

/-! ### Netboot (R454) -/

def Dev.mgmtPorts (d : Dev) : List Nat := filterBelow 4 fun e => bit (d.hpRoles e) 2

/-- The next MGMT port is tried, or netboot has failed on every one. -/
def Dev.nextNetPort (d : Dev) : Dev :=
  match d.mgmtPorts.find? fun e => !d.boot.netFailed.contains e with
  | some e => ({ d with boot := { d.boot with
      net := some e, netUrl := false, netData := [], netBlock := 0, netSize := 0, netAt := 0, stageAt := d.ps } }).note "DHCPV6_SOLICIT" [e]
  | none => { d with boot := { d.boot with net := none } }.bootFail 5

/-- Netboot fails on a port. -/
def Dev.netPortFails (d : Dev) (e : Nat) : Dev := { d with boot := { d.boot with netFailed := e :: d.boot.netFailed } }.nextNetPort

/-- Is netboot in progress on port e? -/
def Dev.netOn (d : Dev) (e : Nat) : Bool := d.booting && d.stage == 5 && d.boot.net == some e

/-- A DHCPv6 reply: a URL that begins "tftp://" is asked for with a block size of 4,096. -/
def opDhcpv6 (e : Nat) (url : List Byte) (d : Dev) : Dev :=
  if d.netOn e ∧ !d.boot.netUrl ∧ url.take 7 = [0x74#8, 0x66#8, 0x74#8, 0x70#8, 0x3A#8, 0x2F#8, 0x2F#8] then
    { d with boot := { d.boot with netUrl := true } }.note "TFTP_RRQ" [e, 4096]
  else d

/-- The image is complete: the first that passes runs from working memory. -/
def Dev.netImage (d : Dev) (e : Nat) : Dev :=
  let read := fun (off n : Nat) => (d.boot.netData.drop off).take n
  match d.fwCheck d.boot.netData.length read with
  | some r => (d.raise (notice cSecurity 0x1311 (3 + r * 256))).netPortFails e
  | none => d.runFirmware 2 read

/-- TFTP_DATA: an option acknowledgement, or a block. -/
def opTftpData (e : Nat) (oack : Option Nat) (block : Nat) (data : List Byte) (d : Dev) : Dev :=
  if d.netOn e ∧ d.boot.netUrl then
    let b := d.boot
    match oack with
    | some n =>
      if b.netBlock ≠ 0 ∨ b.netSize ≠ 0 then d
      else if 512 ≤ n ∧ n ≤ 4096 then { d with boot := { b with netSize := n } }.note "TFTP_ACK" [e, 0]
      else (({ d with boot := { b with netSize := 512 } }).note "TFTP_ERROR" [e, 8]).note "TFTP_RRQ" [e, 512]
    | none =>
      let size := if b.netSize = 0 then 512 else b.netSize
      if block = b.netBlock + 1 ∧ data.length ≤ size then
        let d1 := { d with boot := { b with
          netSize := size, netBlock := block, netData := b.netData ++ data, netAt := if b.netBlock = 0 then d.ps else b.netAt } }.note "TFTP_ACK" [e, block]
        if fwMax < d1.boot.netData.length then d1.netPortFails e
        else if data.length < size then d1.netImage e
        else d1
      else if block = b.netBlock then d.note "TFTP_ACK" [e, block]
      else d
  else d

def opNetTimeout (e : Nat) (d : Dev) : Dev :=
  let b := d.boot
  if d.netOn e ∧ ((!b.netUrl ∧ b.stageAt + 30 * second ≤ d.ps) ∨ (b.netBlock ≠ 0 ∧ b.netAt + 60 * second ≤ d.ps)) then d.netPortFails e else d

/-! ### The work of each stage (Table 15-2) -/

/-- Registers that persistent words load: port roles, the operator view's keys, and from stage 3 on the node ID. -/
def Dev.loadWords (d : Dev) : Dev :=
  let w := (d.effWord 1).toNat
  (d.upd ((List.range 4).map fun e => (Reg.LNK_HP_STAT e, Fld.LNK_HP_STAT_ROLES, w / 2 ^ (3 * e) % 8))).wr (Reg.LNK_VIEW_KEY 0) (d.effWord 20)

def Dev.loadNode (d : Dev) : Dev :=
  let w := d.effWord 0
  if fget w Fld.PSR_NODE_VALID = 1 then
    d.upd [(Reg.GLB_NODE, Fld.GLB_NODE_VALID, 1), (Reg.GLB_NODE, Fld.GLB_NODE_ROLE, fget w Fld.PSR_NODE_ROLE),
      (Reg.GLB_NODE, Fld.GLB_NODE_NODE_ID, fget w Fld.PSR_NODE_NODE_ID)]
  else d

/-- A PLL locked, confirmed and selected at a frequency. -/
def Dev.pllUp (d : Dev) (k mhz : Nat) : Dev :=
  d.upd [(Reg.CLK_PLL_STAT k, Fld.CLK_PLL_STAT_TARGET_MHZ, mhz), (Reg.CLK_PLL_STAT k, Fld.CLK_PLL_STAT_CUR_MHZ, mhz), (Reg.CLK_PLL_STAT k, Fld.CLK_PLL_STAT_ON, 1),
    (Reg.CLK_PLL_STAT k, Fld.CLK_PLL_STAT_LOCK, 1), (Reg.CLK_MUX_STAT k, Fld.CLK_MUX_STAT_SEL, 1)]

/-- The frequency that firmware sets in a domain (Table 13-1). -/
def domainTarget (k : Nat) : Nat := if k < 20 then 1250 else if k = 35 then 800 else Config.domainMhz k

def Dev.stage2 (d : Dev) (puf : Bool) : Dev :=
  let d1 := if puf then d.wf Reg.SEC_STAT Fld.SEC_STAT_ID_VALID 1 else d.raise (notice cSecurity 0x1411 0)
  (d1.pllUp 35 (domainTarget 35)).enterStage 3

def Dev.stage3 (d : Dev) (corrected bad : List Nat) : Dev :=
  let d1 := bad.foldl (fun (e : Dev) n => e.psrBad n) (corrected.foldl (fun (e : Dev) n => e.psrCorrected n) d)
  if bad.contains 7 ∧ bad.contains 8 then d1.bootFail 2
  else
    let d2 := d1.arbRewrite
    let d3 : Dev := { d2 with boot := { d2.boot with eff := d2.psr.words } }
    let d4 := d3.upd [(Reg.PSR_STAT, Fld.PSR_STAT_JWEAR, d3.journalWear), (Reg.PSR_STAT, Fld.PSR_STAT_JOURNAL_WORN, b2n d3.journalWorn)]
    (d4.loadWords.loadNode).enterStage 4

def Dev.stage4 (d : Dev) : Dev :=
  let first := d.firstSlot
  let r1 := d.checkSlot first
  if r1.1 then r1.2.runFirmware first (d.fwBytes first)
  else
    let r2 := r1.2.checkSlot (1 - first)
    if r2.1 then r2.2.runFirmware (1 - first) (d.fwBytes (1 - first))
    else if fget (d.effWord 5) Fld.PSR_BOOT_POLICY_NETBOOT = 1 then (r2.2.enterStage 5).nextNetPort
    else r2.2.bootFail 4

/-- Capacity of an LP6 module in GiB (R175). -/
def Lp6Size.gib : Lp6Size → Nat
  | .gib64 => 64
  | .gib128 => 128
  | .gib256 => 256
/-- The working module of each LP6 port, in GiB, 0 for none. -/
def lp6Modules (mods : List (Option Lp6Size)) : List Nat := (List.range 8).map fun k => ((mods[k]?).join.map Lp6Size.gib).getD 0
/-- S of R175: the capacity of the smallest working module, 0 where no port has one. -/
def lp6Smallest (mods : List (Option Lp6Size)) : Nat :=
  match (lp6Modules mods).filter (· != 0) with | [] => 0 | x :: xs => xs.foldl min x
/-- Stage 6: the PLLs run and the memories are trained (R175, R203). A stack that fails ends the boot with a code of its own, so all eight are here. -/
def Dev.stage6 (d : Dev) (mods : List (Option Lp6Size)) : Dev :=
  let sizes := lp6Modules mods
  let s := lp6Smallest mods
  (((List.range 35).foldl (fun (e : Dev) k => e.pllUp k (domainTarget k)) d).upd [(Reg.MEM_CFG, Fld.MEM_CFG_T1_STACKS, 0xFF),
    (Reg.MEM_CFG, Fld.MEM_CFG_T1_GRANULES, 32), (Reg.MEM_CFG, Fld.MEM_CFG_LP6_PORTS, sizes.zipIdx.foldl (fun a q => if q.1 = 0 then a else a + 2 ^ q.2) 0),
    (Reg.MEM_CFG, Fld.MEM_CFG_T2_GRANULES, if sizes.contains 0 then 0 else s / 8), (Reg.MEM_CFG, Fld.MEM_CFG_LP6_GIB, s)]).enterStage 7

/-! ### Self-test marks and the chrysalis state (R473, R479 to R481) -/

/-- The policy in force by word 3 and the role: 1 FLAG, 2 WITHDRAW. -/
def Dev.bistPolicy (d : Dev) : Nat :=
  let w := fget (d.effWord 3) Fld.PSR_BIST_POLICY_POLICY
  if w = 1 ∨ w = 2 then w else if 2 ≤ d.role then 2 else 1

/-- A failed test marks its die and is recorded, for the partition that owns the comb and as severe as the policy makes it (R520, R521); under FLAG the partition that owns the comb gets a FAULT event. `group` is none at start-up. -/
def Dev.markFail (d : Dev) (group : Option Nat) (f : BistFail) : Dev :=
  let cell := f.cell.elim 0x1FFF fun c => c.val
  let cause := if group.isSome then 0x1402 else 0x1401
  let g := group.getD 0
  let die := f.die.toNat
  let detail := die * 2 ^ 40 + g * 2 ^ 32 + f.unit.toNat * 2 ^ 16 + cell
  let comb := match f.cell with | some c => combOf c.val | none => if die < 32 then die % 16 else 0
  let d1 := d.wr Reg.GLB_DIE_FAIL (d.rd Reg.GLB_DIE_FAIL ||| BitVec.ofNat 64 (2 ^ die))
  let d2 := d1.raise { notice cBist cause detail with
    cell := f.cell.map fun c => c.val, comb := comb, part := if die < 32 then d.ownerOf (die % 16) else none,
    sev := if d.rf Reg.BIST_STAT Fld.BIST_STAT_POLICY = 2 then svDevice else svNotice }
  let d3 := d2.upd [(Reg.BIST_LAST_FAIL, Fld.BIST_LAST_FAIL_KIND, if group.isSome then 2 else 1), (Reg.BIST_LAST_FAIL, Fld.BIST_LAST_FAIL_DIE, die),
    (Reg.BIST_LAST_FAIL, Fld.BIST_LAST_FAIL_UNIT, f.unit.toNat), (Reg.BIST_LAST_FAIL, Fld.BIST_LAST_FAIL_GROUP, g), (Reg.BIST_LAST_FAIL, Fld.BIST_LAST_FAIL_CELL, cell)]
  if d.rf Reg.BIST_STAT Fld.BIST_STAT_POLICY = 1 ∧ die < 32 then
    match d.ownerOf (die % 16) with
    | some p => d3.event p 0x09 0xFF 0 0 (cBist * 2 ^ 56 + cause * 2 ^ 40)
    | none => d3
  else d3

/-- The chrysalis state: attempts abort, peers hear WITHDRAW 1 and RLEAVE, and every die but MG powers down. -/
def Dev.enterChrysalis (d : Dev) (cause : Nat) : Dev :=
  let d1 := ((d.abortAll ⟨cBist, cause, false, d.pos, cBist⟩).withdrawAll 1).ringRemove
  d1.powerDown.upd [(Reg.GLB_LEVEL, Fld.GLB_LEVEL_READY, 0), (Reg.BIST_STAT, Fld.BIST_STAT_CHRYSALIS, 1)]

/-! ### What a comb loses (Table 13-4) -/

/-- The shadow of the partition of comb k is no longer whole. -/
def Dev.shadowLost (d : Dev) (k : Nat) : Dev :=
  match d.ownerOf k with
  | some p =>
    let d1 := d.wf (Reg.MOLT_STAT p) Fld.MOLT_STAT_SHADOW_VALID 0
    if d1.moltState p = mLoaded then d1.setMoltState p mIdle else d1
  | none => d

/-- SRAM, banks, bound registers, program stores and registers of comb k are lost; its mesh region and its DBG counters, which MG holds, are not. -/
def Dev.loseComb (d : Dev) (k : Nat) : Dev :=
  ({ d with
    mem := d.mem.filter (fun q => !(q.1 < 0x80000000 && combOf (q.1 / 0x40000) == k)),
    fab := { d.fab with
      cells := d.fab.cells.filter (fun q => combOf q.1 != k), seqs := d.fab.seqs.filter (fun q => q.1 / 4 != k),
      bnd := d.fab.bnd.filter (fun q => q.1 / 64 != k), issues := d.fab.issues.filter (fun (i : Issue) => i.comb != k) } }).shadowLost k

/-- Stage 7: the tests are destructive (R472), and every comb is OFF afterwards. -/
def Dev.stage7 (d : Dev) (fails : List BistFail) : Dev :=
  let d1 := d.upd [(Reg.BIST_STAT, Fld.BIST_STAT_POLICY, d.bistPolicy), (Reg.BIST_STAT, Fld.BIST_STAT_START_MS, (d.ps - d.boot.stageAt) / ms)]
  let d2 := fails.foldl (fun (e : Dev) f => e.markFail none f) d1
  let d3 := (List.range 16).foldl (fun (e : Dev) k => (e.loseComb k).combOff k) d2
  if d.bistPolicy = 2 ∧ !fails.isEmpty then d3.enterChrysalis 0x1401 else d3.enterStage 8

/-! ### READY (R468) -/

/-- The policy digest of MR2 (Table 16-4). -/
def Dev.policyBytes (d : Dev) : List Byte := (List.range 11).flatMap fun n => toLe 8 (d.psrWord n).toNat

/-- Create partition p from its persistent words, as the i-th of n. -/
def Dev.defaultPart (d : Dev) (p i n : Nat) : Dev :=
  let a := (d.psrWord (21 + 2 * p)).toNat
  let b := (d.psrWord (22 + 2 * p)).toNat
  let w := fun (e : Dev) (off v : Nat) => e.wr off (BitVec.ofNat 64 v)
  let part := fun (e : Dev) (off total : Nat) (f c : Fld) => e.upd [(off, f, i * (total / n)), (off, c, total / n)]
  let d1 := w (w (w (w d (Reg.PART_COMBS p) (a / 2 ^ 32 % 2 ^ 16)) (Reg.PART_T1 p) (a % 2 ^ 32)) (Reg.PART_T2 p) (b / 2 ^ 32)) (Reg.PART_CAP p) (b / 2 ^ 20 % 2 ^ 12)
  let d2 := d1.upd [(Reg.PART_SHARE p, Fld.PART_SHARE_HOST, b / 2 ^ 15 % 32), (Reg.PART_SHARE p, Fld.PART_SHARE_FABRIC, b / 2 ^ 10 % 32),
    (Reg.PART_SHARE p, Fld.PART_SHARE_BROOD, b / 2 ^ 5 % 32), (Reg.PART_SHARE p, Fld.PART_SHARE_T2, b % 32)]
  let d3 := part (part (part d2 (Reg.PART_REQ p) 16384 Fld.PART_REQ_FIRST Fld.PART_REQ_COUNT) (Reg.PART_CTX p) 64 Fld.PART_CTX_FIRST Fld.PART_CTX_COUNT)
    (Reg.PART_QP p) 4096 Fld.PART_QP_FIRST Fld.PART_QP_COUNT
  match d3.createCheck p with
  | some k => (d3.partRefused p k).partResult p 0 k prRefused
  | none => d3.beginCreate p

/-- Partitions whose AUTO bit is 1. -/
def Dev.autoParts (d : Dev) : List Nat := filterBelow 16 fun p => fget (d.psrWord (21 + 2 * p)) ⟨63, 1⟩ == 1

/-- READY: MR2, isolation and the default partitions; the first slice falls due 2 s later; in a colony or swarm heartbeats are supervised from now on (R433). -/
def Dev.becomeReady (d : Dev) : Dev :=
  let d1 := (d.extendMr (Reg.SEC_MR 2) (sha512 d.policyBytes)).upd
    [(Reg.GLB_LEVEL, Fld.GLB_LEVEL_READY, 1), (Reg.BOOT_T_READY, ⟨0, 32⟩, min ((d.ps - d.boot.resetAt) / ms) 0xFFFFFFFF),
     (Reg.PART_GLB, Fld.PART_GLB_ISOLATE, fget (d.effWord 5) Fld.PSR_BOOT_POLICY_ISOLATE)]
  let ps := d1.autoParts
  let d2 := ps.zipIdx.foldl (fun (e : Dev) q => e.defaultPart q.1 q.2 ps.length) d1
  let d3 : Dev := { d2 with bist := { d2.bist with nextAt := d2.ps + 2 * second } }
  if 2 ≤ d.role then { d3.wf Reg.PWR_STAT Fld.PWR_STAT_SUPERVISED 1 with pwr := { d3.pwr with beatAt := d3.ps } } else d3

/-- Codes of Table 15-3 that the hardware reports at the end of a stage. -/
def reportedCode (c : Nat) : Bool := [3, 6, 7, 8, 9].contains c

/-- BOOT_STAGE_END. Stage 5 ends by its transfer, not here. -/
def opStageEnd (o : StageOut) (d : Dev) : Dev :=
  if d.booting ∧ !d.bootWaits then
    if reportedCode o.code.toNat then d.bootFail o.code.toNat
    else
      match d.stage with
      | 1 => ((d.extendMr (Reg.SEC_MR 0) ((List.range 64).map Config.romDigest)).loadWords).enterStage 2
      | 2 => d.stage2 o.puf
      | 3 => d.stage3 (o.corrected.map (·.val)) (o.bad.map (·.val))
      | 4 => d.stage4
      | 6 => d.stage6 o.lp6
      | 7 => d.stage7 o.bist
      | 8 => d.enterStage 9
      | 9 => d.becomeReady
      | _ => d
  else d

/-! ### Power and reset signals (R443 to R445, R504, R505) -/

/-- PG_AON rises with CLKIN present for 1 ms. -/
def opPowerOn (d : Dev) : Dev := if d.boot.pgAon ∨ d.clk.lost then d else { d with boot := { d.boot with pgAon := true } }.restart 0

/-- PG_AON falls, or VMG is lost: the device stops. -/
def opPgAonFall (d : Dev) : Dev :=
  if d.boot.pgAon then
    let d1 := d.psrPowerLost.restart 0
    { d1 with boot := { d1.boot with pgAon := false } }
  else d

def opPorstLow (d : Dev) : Dev := if d.boot.pgAon then { d with boot := { d.boot with porstLow := true } }.restart 1 else d
def opPorst (d : Dev) : Dev := if d.boot.pgAon then { d with boot := { d.boot with porstLow := false } }.restart 1 else d

/-- The main rails fail at or after stage 6: every attempt ends without a commit, everything but the standby path powers down, and the by-pass engages. -/
def Dev.mainGone (d : Dev) : Dev :=
  let d1 := d.powerDown.wf Reg.GLB_LEVEL Fld.GLB_LEVEL_READY 0
  { d1 with boot := { d1.boot with mainFell := true } }

/-- Are the main rails in use, so that their fall ends what runs? -/
def Dev.mainUsed (d : Dev) : Bool := 6 ≤ d.stage && !d.boot.mainFell && !d.pwr.trip && !d.chrysalis && d.boot.backoffAt.isNone && d.rf Reg.BOOT_STAT Fld.BOOT_STAT_WAIT_MAIN == 0

/-- PG_MAIN falls; while PG_AON is low only its level is known (R504). -/
def opPgMainFall (d : Dev) : Dev :=
  let d1 : Dev := { d with boot := { d.boot with pgMain := false } }
  if d.boot.pgAon ∧ d.boot.pgMain ∧ d.mainUsed then d1.mainGone else d1

def opPgMainRise (d : Dev) : Dev :=
  let d1 : Dev := { d with boot := { d.boot with pgMain := true } }
  if !d.boot.pgAon then d1
  else if d.boot.mainFell then d1.restart 2
  else if d.rf Reg.BOOT_STAT Fld.BOOT_STAT_WAIT_MAIN = 1 then { d1.wf Reg.BOOT_STAT Fld.BOOT_STAT_WAIT_MAIN 0 with boot := { d1.boot with stageAt := d.ps } }
  else d1

def opRailUndervoltage (r : Nat) (d : Dev) : Dev :=
  if d.boot.pgMain ∧ d.boot.pgAon ∧ d.mainUsed then (d.raise (notice cPower 0x1501 r)).mainGone else d

/-- The management watchdog expires: firmware serves it after stage 6 (Table 15-1). -/
def opMgmtWatchdog (d : Dev) : Dev :=
  if d.boot.pgAon ∧ 6 < d.stage ∧ !d.boot.held ∧ !d.boot.mainFell ∧ d.boot.backoffAt.isNone then d.restart 6 else d

def opBackoffEnd (d : Dev) : Dev :=
  match d.boot.backoffAt with
  | some t => if t ≤ d.ps then d.restart 7 else d
  | none => d

/-! ### BOOT_CMD (R448, R452, R453, R455) -/

def boReset : Nat := 1
def boRetry : Nat := 2
def boContinue : Nat := 3
def boWrite : Nat := 4
def boRaise : Nat := 5
def Dev.bootResult (d : Dev) (r : Nat) : Dev := (d.wf Reg.BOOT_CMD Fld.BOOT_CMD_OP 0).wf Reg.BOOT_CMD Fld.BOOT_CMD_RESULT r
def Dev.bootDone (d : Dev) : Dev := d.bootResult 2
def Dev.bootRefused (d : Dev) (op : Nat) : Dev := (d.raise (notice cHostProto 0x1321 op)).bootResult 3

/-- A command of BOOT_CMD: only the operator view gives one, and not while the device cannot be reached. -/
def Dev.bootCommand (d : Dev) (v : Nat) (go : Dev → Dev) : Dev := if v = 0 ∧ d.boot.pgAon ∧ !d.boot.held ∧ !d.boot.porstLow ∧ !d.pwr.trip then go d else d

def opReset (v : Nat) (d : Dev) : Dev := d.bootCommand v fun e => e.restart 3
def opRetryNow (v : Nat) (d : Dev) : Dev := d.bootCommand v fun e => if e.boot.backoffAt.isSome then e.restart 7 else e.bootRefused boRetry
def opContinue (v : Nat) (d : Dev) : Dev :=
  d.bootCommand v fun e =>
    if e.booting ∧ e.stage = 6 then
      { e.bootDone.wf Reg.BOOT_STAT Fld.BOOT_STAT_WAIT_CONT 0 with boot := { e.boot with cont := true, stageAt := if e.rf Reg.BOOT_STAT Fld.BOOT_STAT_WAIT_CONT = 1 then e.ps else e.boot.stageAt } }
    else e.bootRefused boContinue

/-- Does a range of T1 lie in a view's T1 region (R383): the granules of its partition, or for the operator view those that no partition owns, outside the
serving reserve? -/
def Dev.viewT1 (d : Dev) (v a len : Nat) : Bool :=
  t1Base ≤ a && a + len ≤ 0xFFE0000000 && granulesIn (t1Granule a) (t1Granule (a + (len - 1))) fun g =>
    if v = 0 then !((List.range 16).any fun p => d.partState p != psFree && bit (d.rd (Reg.PART_T1 p)).toNat g) else bit (d.rd (Reg.PART_T1 (v - 1))).toNat g

def Dev.fwSrc (d : Dev) : Nat := (d.rd Reg.BOOT_FW_SRC).toNat % 2 ^ 48
def Dev.fwLen (d : Dev) : Nat := (d.rd Reg.BOOT_FW_LEN).toNat % 2 ^ 24
def Dev.fwWrites (d : Dev) (s : Nat) : Nat := sget (fun _ => 0) d.boot.slotWrites s

def opFwWrite (v s : Nat) (d : Dev) : Dev :=
  d.bootCommand v fun e0 =>
    let e := e0.wf Reg.BOOT_CMD Fld.BOOT_CMD_SLOT s
    if e.source = s ∨ !e.ready ∨ e.fwLen < 256 ∨ fwMax < e.fwLen ∨ !e.viewT1 0 e.fwSrc e.fwLen ∨ 10000 ≤ e.fwWrites s ∨ e.boot.fwWrite.isSome then e.bootRefused boWrite
    else { (e.bootResult 1).wf (Reg.BOOT_SLOT s) Fld.BOOT_SLOT_RESULT 8 with boot := { e.boot with fwWrite := some ⟨s, e.fwSrc, e.fwLen⟩ } }

/-- FW_WRITE_END: the image stands in the slot, and the slot is checked. -/
def opFwWriteEnd (d : Dev) : Dev :=
  match d.boot.fwWrite with
  | some w =>
    let base := w.slot * 2 ^ 24
    let other := d.boot.slots.filter fun q => q.1 / 2 ^ 24 != w.slot
    let slots := (d.bytes w.src w.len).zipIdx.foldl (fun m q => sput (fun _ => 0#8) m (base + q.2) q.1) other
    let d1 : Dev := { d with boot := { d.boot with
      slots := slots, slotWrites := sput (fun _ => 0) d.boot.slotWrites w.slot (d.fwWrites w.slot + 1), fwWrite := none } }
    (d1.checkSlot w.slot).2.bootDone
  | none => d

/-- ARB_RAISE: the running firmware's SVN goes into both copies when it is higher. -/
def opArbRaise (v : Nat) (d : Dev) : Dev :=
  d.bootCommand v fun e =>
    let svn := e.rf Reg.BOOT_FW Fld.BOOT_FW_SVN
    if e.source = 3 then e.bootRefused boRaise
    else if e.arbValue < svn then ((e.psrFirm 7 (BitVec.ofNat 64 svn)).psrFirm 8 (BitVec.ofNat 64 svn)).bootDone
    else e.bootDone

/-! ### The commands -/

def execPowerOn (s : State) : Host.Outcome State Fault Refusal := done s (opPowerOn s.dev)
def execPorstN (s : State) : Host.Outcome State Fault Refusal := done s (opPorst s.dev)
def execPorstNLow (s : State) : Host.Outcome State Fault Refusal := done s (opPorstLow s.dev)
def execPgAonFall (s : State) : Host.Outcome State Fault Refusal := done s (opPgAonFall s.dev)
def execPgMainFall (s : State) : Host.Outcome State Fault Refusal := done s (opPgMainFall s.dev)
def execPgMainRise (s : State) : Host.Outcome State Fault Refusal := done s (opPgMainRise s.dev)
def execRailUndervoltage (r : Fin 8) (s : State) : Host.Outcome State Fault Refusal := done s (opRailUndervoltage r s.dev)
def execMgmtWatchdog (s : State) : Host.Outcome State Fault Refusal := done s (opMgmtWatchdog s.dev)
def execBootStageEnd (o : StageOut) (s : State) : Host.Outcome State Fault Refusal := done s (opStageEnd o s.dev)
def execBootStageTimeout (s : State) : Host.Outcome State Fault Refusal := done s (opStageTimeout s.dev)
def execDhcpv6Reply (e : HostPort) (url : List Byte) (s : State) : Host.Outcome State Fault Refusal := done s (opDhcpv6 e url s.dev)
def execTftpData (e : HostPort) (oack : Option (BitVec 16)) (block : BitVec 16) (data : List Byte) (s : State) : Host.Outcome State Fault Refusal :=
  done s (opTftpData e (oack.map (·.toNat)) block.toNat data s.dev)
def execNetbootPortTimeout (e : HostPort) (s : State) : Host.Outcome State Fault Refusal := done s (opNetTimeout e s.dev)
def execBackoffEnd (s : State) : Host.Outcome State Fault Refusal := done s (opBackoffEnd s.dev)
def execReset (v : View) (s : State) : Host.Outcome State Fault Refusal := done s (opReset v s.dev)
def execRetryNow (v : View) (s : State) : Host.Outcome State Fault Refusal := done s (opRetryNow v s.dev)
def execContinueBoot (v : View) (s : State) : Host.Outcome State Fault Refusal := done s (opContinue v s.dev)
def execFwWrite (v : View) (slot : Bool) (s : State) : Host.Outcome State Fault Refusal := done s (opFwWrite v (b2n slot) s.dev)
def execFwWriteEnd (s : State) : Host.Outcome State Fault Refusal := done s (opFwWriteEnd s.dev)
def execArbRaise (v : View) (s : State) : Host.Outcome State Fault Refusal := done s (opArbRaise v s.dev)

end Sys2Proof.Machine
end

