-- ==== Sys2Proof/Machine/Clock.lean ====
section
/-!
DEFINITION. Clocks (R392 to R404): the loss of CLKIN, PLLs and multiplexers, domain resets, the frequency counter and the clock monitor, and the power
states of combs.
-/
namespace Sys2Proof.Machine

/-! ### CLKIN (R393) -/

/-- CLKIN shows no edge for 10 µs: the internal oscillator takes over, every attempt ends without a commit, the switch drive goes, READY falls, and the
device stays in reset. -/
def opClkinLoss (d : Dev) : Dev :=
  if d.clk.lost ∨ !d.boot.pgAon then d
  else
    let d1 := { d with clk := { d.clk with lost := true } }.restart 4
    d1.upd [(Reg.CLK_IN_STAT, Fld.CLK_IN_STAT_INTOSC, 1), (Reg.CLK_IN_STAT, Fld.CLK_IN_STAT_PRESENT, 0),
      (Reg.CLK_IN_STAT, Fld.CLK_IN_STAT_LOSSES, min 65535 (d.rf Reg.CLK_IN_STAT Fld.CLK_IN_STAT_LOSSES + 1))]

/-- CLKIN has been present for 1 ms: a device held in reset starts from stage 1. -/
def opClkinReturn (d : Dev) : Dev :=
  if d.clk.lost then
    let d1 := d.upd [(Reg.CLK_IN_STAT, Fld.CLK_IN_STAT_INTOSC, 0), (Reg.CLK_IN_STAT, Fld.CLK_IN_STAT_PRESENT, 1)]
    let d2 : Dev := { d1 with clk := { d1.clk with lost := false } }
    if d.boot.held then { d2 with boot := { d2.boot with held := false, stageAt := d.ps, resetAt := d.ps } } else d2
  else d

/-! ### Sharing the frequency counter (R396, R400) -/

/-- Combs whose PLL the always-on domain confirms after a wake from OFF. -/
def Dev.confirming (d : Dev) : List Nat := filterBelow 16 fun k => d.wakingFrom k == some 0 && d.rf (Reg.CLK_PLL_STAT k) Fld.CLK_PLL_STAT_LOCK == 1

/-- Does the always-on domain hold the counter? -/
def Dev.counterHeld (d : Dev) : Bool := d.clk.monHolds || !d.confirming.isEmpty

/-- The always-on domain takes the counter: a software measurement pauses, and PAUSES counts it. -/
def Dev.pauseCounter (d : Dev) : Dev :=
  match d.clk.fc with
  | some r =>
    if r then d
    else { d with clk := { d.clk with fc := some true } }.addf Reg.CLK_FC_RES Fld.CLK_FC_RES_PAUSES 1
  | none => d

/-- The counter is free again: a paused measurement goes on. -/
def Dev.resumeCounter (d : Dev) : Dev :=
  if d.counterHeld then d
  else match d.clk.fc with
    | some _ => { d with clk := { d.clk with fc := some false } }
    | none => d

/-- FC_MEASURE: a write of CLK_FC_CMD through any view. -/
def opFcMeasure (w : Word) (d : Dev) : Dev :=
  let src := fget w Fld.CLK_FC_CMD_SRC
  let ref := fget w Fld.CLK_FC_CMD_REF
  let k := fget w Fld.CLK_FC_CMD_K
  if d.counterHeld then d.wf Reg.CLK_FC_RES Fld.CLK_FC_RES_STATUS 3
  else if d.clk.fc.isSome then d
  else
    let d1 := d.wr Reg.CLK_FC_CMD (w &&& 0x1FFFF)
    if 59 ≤ src ∨ 59 ≤ ref ∨ k < 8 ∨ 24 < k then d1.wf Reg.CLK_FC_RES Fld.CLK_FC_RES_STATUS 4
    else { d1 with clk := { d1.clk with fc := some false } }.wr Reg.CLK_FC_RES (BitVec.ofNat 64 (2 ^ 61))

/-- FC_DONE: the measurement ends; one that the monitor has paused cannot. -/
def opFcDone (count : Nat) (d : Dev) : Dev :=
  match d.clk.fc with
  | some r =>
    if r then d
    else { d with clk := { d.clk with fc := none } }.upd [(Reg.CLK_FC_RES, Fld.CLK_FC_RES_STATUS, 2), (Reg.CLK_FC_RES, Fld.CLK_FC_RES_COUNT, count)]
  | none => d

/-! ### Reload after OFF (Table 13-4) -/

/-- Cells of comb k in the footprint of an image. -/
def Dev.combFoot (d : Dev) (i : Img) (k : Nat) : List Nat := (d.footCells i).filter fun c => combOf c == k

/-- After OFF the molt controller reloads the active instar into comb k, at the partition's present generation, and its sequencers start at ENTRY. -/
def Dev.reloadComb (d : Dev) (p k : Nat) : Dev :=
  match d.activeHandle p, d.activeImg p with
  | some h, some i =>
    let ps := d.instarRecs i (d.rf (Reg.MOLT_STAT p) Fld.MOLT_STAT_ACTIVE_INSTAR)
    let gen := BitVec.ofNat 8 (d.rf (Reg.MOLT_STAT p) Fld.MOLT_STAT_GEN)
    let ox := 32 * (i.origin % 4)
    let oy := 16 * (i.origin / 4)
    let cells := d.combFoot i k
    let d1 := cells.foldl (fun (e : Dev) c =>
      e.setCell c { Cell.zero with gen := gen, active := (cellRecs ps (cellX c - ox) (cellY c - oy)).foldl applyRec [] }) d
    (d1.startCells i cells).startSeqs h [k] true
  | _, _ => d

/-- After RET the cells of comb k start as a flip starts them: registers zero, banks and SRAM kept. -/
def Dev.restartComb (d : Dev) (p k : Nat) : Dev :=
  match d.activeImg p with
  | some i =>
    let cells := d.combFoot i k
    (cells.foldl (fun (e : Dev) c => e.modCell c fun x => { renewCell x false with
      gen := x.gen, shadow := x.shadow, shadowValid := x.shadowValid, shadowBad := x.shadowBad }) d).startCells i cells
  | none => d

/-! ### PLLs, multiplexers and domain resets (R396 to R398) -/

/-- PLL_LOCK: the PLL reports lock and the switch to it is requested; for a comb that wakes from OFF, 40.96 µs later, once the always-on domain has confirmed
the PLL. -/
def opPllLock (k : Nat) (d : Dev) : Dev :=
  if d.rf (Reg.CLK_PLL_STAT k) Fld.CLK_PLL_STAT_ON = 1 ∧ d.rf (Reg.CLK_PLL_STAT k) Fld.CLK_PLL_STAT_LOCK = 0 then
    let d1 := d.upd [(Reg.CLK_PLL_STAT k, Fld.CLK_PLL_STAT_LOCK, 1),
      (Reg.CLK_PLL_STAT k, Fld.CLK_PLL_STAT_CUR_MHZ, d.rf (Reg.CLK_PLL_STAT k) Fld.CLK_PLL_STAT_TARGET_MHZ), (Reg.CLK_MUX_STAT k, Fld.CLK_MUX_STAT_SWITCHING, 1)]
    let d2 : Dev := { d1 with clk := { d1.clk with muxReq := sput (fun _ => none) d1.clk.muxReq k (some (if d.wakingFrom k = some 0 then d1.ps + 40960 * ns else d1.ps)) } }
    if d2.counterHeld then d2.pauseCounter else d2
  else d

/-- A domain reset (Table 13-2): a comb loses all its state, a commit domain that uses it aborts, counted, and it wakes as from OFF; any other domain restarts the
device. -/
def Dev.domainReset (d : Dev) (k : Nat) : Dev :=
  if k < 16 then
    let d1 := match d.ownerOf k with
      | some p =>
        match d.curCtx p with
        | some c => if d.usesComb p k then d.abortCtx p c ⟨cClkMux, 0x1101, true, d.pos, cClkMux⟩ else d
        | none => d
      | none => d
    let d2 := (d1.loseComb k).combOff k
    if (d2.ownerOf k).isSome then d2.beginWake k else d2
  else d.restart 5

/-- A domain without a clock (R397, R401): the fault, then the reset that the always-on domain applies, at once or for a comb when firmware asks. During a
boot it is a failure of the boot. -/
def Dev.hang (d : Dev) (k cause detail : Nat) : Dev :=
  let d1 := (d.upd [(Reg.CLK_MUX_STAT k, Fld.CLK_MUX_STAT_HANG, 1), (Reg.CLK_MUX_STAT k, Fld.CLK_MUX_STAT_SWITCHING, 0), (Reg.CLK_MUX_STAT k, Fld.CLK_MUX_STAT_SEL, 2)])
  let d2 : Dev := { d1 with clk := { d1.clk with muxReq := sput (fun _ => none) d1.clk.muxReq k none } }
  if !d.ready then (d2.raise { notice cClkMux cause detail with sev := svDevice }).bootFail 8
  else if k < 16 then
    let d3 := d2.combFault k { notice cClkMux cause detail with comb := k }
    if d3.rf Reg.CLK_MON_CTL Fld.CLK_MON_CTL_AUTO_COMB = 1 then d3.domainReset k else d3
  else (d2.raise { notice cClkMux cause detail with sev := svDevice }).domainReset k

/-- MUX_HANG: 100 µs after the request the switch is not complete. -/
def opMuxHang (k : Nat) (d : Dev) : Dev :=
  match sget (fun _ => none) d.clk.muxReq k with
  | some t => if t + 100 * us ≤ d.ps then d.hang k 0x1101 k else d
  | none => d

/-- A write of 1 to a bit of CLK_DRST; the bit clears when the reset is done. -/
def opDomainReset (v k : Nat) (d : Dev) : Dev := if v = 0 then d.domainReset k else d

/-! ### The clock monitor (R400, R401) -/

def opMonitorPoll (d : Dev) : Dev :=
  if d.rf Reg.CLK_MON_CTL Fld.CLK_MON_CTL_ENABLE = 1 ∧ !d.counterHeld ∧ d.boot.pgAon ∧ !d.boot.held ∧ (d.clk.monAt = 0 ∨ d.clk.monAt + 10 * ms ≤ d.ps) then
    { d with clk := { d.clk with monHolds := true, monAt := d.ps } }.pauseCounter
  else d

/-- Is a count of a poll, over 1,024 edges of CLKIN, more than 2 % off a target in kHz? -/
def offTarget (count khz : Nat) : Bool :=
  2 * khz * 1024 < 100 * (count * 100000 - khz * 1024) || 2 * khz * 1024 < 100 * (khz * 1024 - count * 100000)

/-- Domains that run on their PLL and whose count is off their present target. -/
def Dev.offDomains (d : Dev) (counts : List (BitVec 48)) : List Nat :=
  filterBelow 36 fun k => d.rf (Reg.CLK_MUX_STAT k) Fld.CLK_MUX_STAT_SEL == 1 &&
    offTarget (nthNat counts k)
      (if k < 16 then pllKhz (d.rf (Reg.CLK_PLL_STAT k) Fld.CLK_PLL_STAT_CUR_MHZ) else 1000 * d.rf (Reg.CLK_PLL_STAT k) Fld.CLK_PLL_STAT_CUR_MHZ)

/-- MONITOR_POLL_END. -/
def opMonitorPollEnd (counts : List (BitVec 48)) (d : Dev) : Dev :=
  if d.clk.monHolds then
    let off := d.offDomains counts
    let d1 := (({ d with clk := { d.clk with monHolds := false } }).resumeCounter.addf Reg.CLK_MON_STAT Fld.CLK_MON_STAT_POLLS 1).wf Reg.CLK_MON_STAT Fld.CLK_MON_STAT_DEV
      (off.foldl (fun a k => a + 2 ^ k) 0)
    off.foldl (fun (e : Dev) k => e.hang k 0x1102 (k + nthNat counts k % 2 ^ 32 * 2 ^ 16)) d1
  else d

/-! ### Comb power states (R402 to R404) -/

/-- A comb in a higher state begins to enter RET (1) or OFF (0). -/
def Dev.beginEntry (d : Dev) (k target : Nat) : Dev :=
  if target < d.combPs k ∧ (d.enteringTo k).isNone ∧ (d.wakingFrom k).isNone then
    { d with clk := { d.clk with entering := sput (fun _ => none) d.clk.entering k (some target) } }.wf (Reg.CLK_COMB_PS k) Fld.CLK_COMB_PS_MOVING 1
  else d

/-- May the combs of p sleep: nothing uses them, no resident context is runnable (R295), no slice runs on them? -/
def Dev.maySleep (d : Dev) (p : Nat) : Bool := d.partUsable p && !d.partBusy p && !(d.residents p).any (fun c => d.runnable p c) && !d.sliceOn p

def opRetEntry (p : Nat) (d : Dev) : Dev :=
  let n := d.rf (Reg.CLK_SLEEP p) Fld.CLK_SLEEP_RET_US
  match sget (fun _ => none) d.clk.idleSince p with
  | some t =>
    if d.maySleep p ∧ n ≠ 0 ∧ t + n * us ≤ d.ps then
      let d1 := (d.partCombs p).foldl (fun (e : Dev) k => if 2 ≤ e.combPs k then e.beginEntry k 1 else e) d
      { d1 with clk := { d1.clk with retSince := sput (fun _ => none) d1.clk.retSince p (some ((sget (fun _ => none) d.clk.retSince p).getD d.ps)) } }
    else d
  | none => d

def opOffEntry (p : Nat) (d : Dev) : Dev :=
  let n := d.rf (Reg.CLK_SLEEP p) Fld.CLK_SLEEP_OFF_MS
  match sget (fun _ => none) d.clk.retSince p with
  | some t => if d.maySleep p ∧ n ≠ 0 ∧ t + n * ms ≤ d.ps then (d.partCombs p).foldl (fun (e : Dev) k => if e.combPs k = 1 then e.beginEntry k 0 else e) d else d
  | none => d

/-- COMB_TRANSITION_DONE: the entry is complete, and a wake that waited follows. -/
def opTransitionDone (k : Nat) (d : Dev) : Dev :=
  match d.enteringTo k with
  | some t =>
    let d1 : Dev := { d with clk := { d.clk with entering := sput (fun _ => none) d.clk.entering k none } }
    let d2 := d1.upd [(Reg.CLK_COMB_PS k, Fld.CLK_COMB_PS_STATE, t), (Reg.CLK_COMB_PS k, Fld.CLK_COMB_PS_MOVING, 0)]
    let waits := d.clk.wakeNext.contains k
    let d3 := if t = 0 then (d2.loseComb k).combOff k else d2
    if waits then { d3 with clk := { d3.clk with wakeNext := d3.clk.wakeNext.erase k } }.beginWake k else d3
  | none => d

/-- Shadow loads of timed molts of p whose time has come (R165): they wait until the combs are awake and no slice runs on them. -/
def Dev.launchLoads (d : Dev) (p : Nat) : Dev :=
  (List.range 32).foldl (fun (e : Dev) n =>
    let a := e.slotAct n Fld.TIME_LAUNCH_ACT_ACTION
    if slotLive (e.slotState n) && e.slotAct n Fld.TIME_LAUNCH_ACT_PART == p && (a == laMolt || a == laModel) && e.combsAwake p && !e.sliceOn p &&
        e.slotT n ≤ e.sysTime.toNat + guardOf (e.slotAct n Fld.TIME_LAUNCH_ACT_SCOPE) + preloadTicks then
      if a = laMolt then e.preload p (e.launchSt n).handle (e.slotAct n Fld.TIME_LAUNCH_ACT_INSTAR) else e.preload p (e.slotAct n Fld.TIME_LAUNCH_ACT_HANDLE) 0
    else e) d

/-- Has the always-on domain confirmed the PLL of comb k: locked, and its measurement over (R396)? -/
def Dev.pllConfirmed (d : Dev) (k : Nat) : Bool :=
  d.rf (Reg.CLK_PLL_STAT k) Fld.CLK_PLL_STAT_LOCK == 1 && (sget (fun _ => none) d.clk.muxReq k).all fun t => decide (t ≤ d.ps)

/-- COMB_WAKE_DONE: from OFF only once the PLL has locked and been confirmed. What waited for the combs goes on. -/
def opWakeDone (k : Nat) (d : Dev) : Dev :=
  match d.wakingFrom k with
  | some from_ =>
    if from_ = 0 ∧ !d.pllConfirmed k then d
    else
      let d1 : Dev := { d with clk := { d.clk with
        waking := sput (fun _ => none) d.clk.waking k none, muxReq := sput (fun _ => none) d.clk.muxReq k none } }
      let d2 := (d1.upd [(Reg.CLK_COMB_PS k, Fld.CLK_COMB_PS_STATE, 2), (Reg.CLK_COMB_PS k, Fld.CLK_COMB_PS_MOVING, 0), (Reg.CLK_MUX_STAT k, Fld.CLK_MUX_STAT_SEL, 1),
        (Reg.CLK_MUX_STAT k, Fld.CLK_MUX_STAT_SWITCHING, 0)]).addf (Reg.CLK_COMB_PS k) Fld.CLK_COMB_PS_WAKES 1
      let d3 := d2.resumeCounter
      match d3.ownerOf k with
      | some p =>
        let d4 := if from_ = 0 then d3.reloadComb p k else d3.restartComb p k
        if d4.combsAwake p then
          let d5 := d4.launchLoads p
          match d5.chosenOf p with
          | some c => d5.switchMolt p c
          | none => d5
        else d4
      | none => d3
  | none => d

/-! ### The commands -/

def execClkinLoss (s : State) : Host.Outcome State Fault Refusal := done s (opClkinLoss s.dev)
def execClkinReturn (s : State) : Host.Outcome State Fault Refusal := done s (opClkinReturn s.dev)
def execPllLock (k : DomIdx) (s : State) : Host.Outcome State Fault Refusal := done s (opPllLock k s.dev)
def execMuxHang (k : DomIdx) (s : State) : Host.Outcome State Fault Refusal := done s (opMuxHang k s.dev)
def execDomainReset (v : View) (k : DomIdx) (s : State) : Host.Outcome State Fault Refusal := hostDone s Reg.CLK_DRST (opDomainReset v k)
def execFcMeasure (_v : View) (w : Word) (s : State) : Host.Outcome State Fault Refusal := hostDone s Reg.CLK_FC_CMD (opFcMeasure w)
def execFcDone (n : BitVec 48) (s : State) : Host.Outcome State Fault Refusal := done s (opFcDone n.toNat s.dev)
def execMonitorPoll (s : State) : Host.Outcome State Fault Refusal := done s (opMonitorPoll s.dev)
def execMonitorPollEnd (counts : List (BitVec 48)) (s : State) : Host.Outcome State Fault Refusal := done s (opMonitorPollEnd counts s.dev)
def execCombRetEntry (p : PartIdx) (s : State) : Host.Outcome State Fault Refusal := done s (opRetEntry p s.dev)
def execCombOffEntry (p : PartIdx) (s : State) : Host.Outcome State Fault Refusal := done s (opOffEntry p s.dev)
def execCombTransitionDone (k : CombIdx) (s : State) : Host.Outcome State Fault Refusal := done s (opTransitionDone k s.dev)
def execCombWakeDone (k : CombIdx) (s : State) : Host.Outcome State Fault Refusal := done s (opWakeDone k s.dev)

end Sys2Proof.Machine
end

