-- ==== Sys2Proof/Machine/Bist.lean ====
section
/-!
DEFINITION. Periodic self-test slices (R474 to R481). A slice is transparent: what its cells hold does not change (R475).
-/
namespace Sys2Proof.Machine

def Dev.sliceNext (d : Dev) : Nat := d.rf Reg.BIST_STAT Fld.BIST_STAT_NEXT
def Dev.isDue (d : Dev) : Bool := d.rf Reg.BIST_STAT Fld.BIST_STAT_DUE == 1 && d.bist.slice.isNone && d.ready

/-- SLICE_DUE. -/
def opSliceDue (d : Dev) : Dev :=
  if d.ready ∧ d.rf Reg.BIST_CTL Fld.BIST_CTL_ENABLE = 1 ∧ d.bist.slice.isNone ∧ d.rf Reg.BIST_STAT Fld.BIST_STAT_DUE = 0 ∧ d.bist.nextAt ≤ d.ps then
    { d.upd [(Reg.BIST_STAT, Fld.BIST_STAT_DUE, 1), (Reg.BIST_STAT, Fld.BIST_STAT_DEFERRED, 0)] with bist := { d.bist with fellAt := d.ps, woke := none } }
  else d

/-- Is comb k marked, and therefore held OFF, because no partition owns it (R480)? -/
def Dev.heldOff (d : Dev) (k : Nat) : Bool := (d.ownerOf k).isNone && (bit (d.rd Reg.GLB_DIE_FAIL).toNat k || bit (d.rd Reg.GLB_DIE_FAIL).toNat (16 + k))

/-- A slice without headroom is deferred; BIST_DEFERS counts it once. -/
def Dev.deferSlice (d : Dev) : Dev :=
  if d.rf Reg.BIST_STAT Fld.BIST_STAT_DEFERRED = 1 then d
  else (d.wf Reg.BIST_STAT Fld.BIST_STAT_DEFERRED 1).bump Reg.BIST_DEFERS 1

/-- The slice of group g starts, once its comb is awake; a comb in RET or OFF is woken first. -/
def Dev.beginSlice (d : Dev) (g : Nat) (forced : Option Nat) : Dev :=
  let k := groupComb g
  if d.combPs k < 2 ∨ (d.enteringTo k).isSome then
    let back := match d.enteringTo k with | some t => t | none => d.combPs k
    { d.beginWake k with bist := { d.bist with woke := some (d.bist.woke.getD back) } }
  else
    let d1 := d.upd [(Reg.BIST_STAT, Fld.BIST_STAT_DUE, 0), (Reg.BIST_STAT, Fld.BIST_STAT_DEFERRED, 0)]
    let d2 : Dev := { d1 with bist := { d1.bist with slice := some ⟨g, d.bist.woke.getD 2⟩, woke := none } }
    match forced with
    | some p =>
      let limit := (if d.partCap p = 0 then sget (fun _ => 0) d.pwr.avgPart p else d.partCap p * 1000) - 60000
      { d2.bump Reg.BIST_FORCED 1 with pwr := { d2.pwr with sliceLimit := sput (fun _ => none) d2.pwr.sliceLimit p (some limit) } }
    | none => d2

/-- SLICE_START: at a step boundary of the owner, while nothing uses the comb and no timed molt of the partition is armed. -/
def opSliceStart (d : Dev) : Dev :=
  let g := d.sliceNext
  if !d.isDue ∨ d.heldOff (groupComb g) then d
  else
    match d.ownerOf (groupComb g) with
    | some p =>
      if d.partUsable p ∧ !d.attemptIn p ∧ !d.partBusy p ∧ !d.timedMolt p then
        if d.headroom (some p) then d.beginSlice g none
        else if d.bist.fellAt + 10 * second ≤ d.ps then d.beginSlice g (some p)
        else d.deferSlice
      else d
    | none => if d.headroom none then d.beginSlice g none else d.deferSlice

/-- The pass goes on with the next group; the next slice falls due 2 s from now. -/
def Dev.afterSlice (d : Dev) (g : Nat) : Dev :=
  let d1 := if g = 255 then d.addf Reg.BIST_STAT Fld.BIST_STAT_PASSES 1 else d
  { d1.upd [(Reg.BIST_STAT, Fld.BIST_STAT_NEXT, (g + 1) % 256), (Reg.BIST_STAT, Fld.BIST_STAT_DUE, 0), (Reg.BIST_STAT, Fld.BIST_STAT_DEFERRED, 0)] with
    bist := { d1.bist with slice := none, woke := none, nextAt := d.ps + 2 * second } }

/-- A comb that was woken for a slice returns to its former state. -/
def Dev.sleepAgain (d : Dev) (k : Nat) (back : Option Nat) : Dev := match back with | some t => if t < 2 then d.beginEntry k t else d | none => d

/-- SLICE_SKIP: 10 s without headroom on a comb that no partition owns; a comb held OFF cannot be tested and is skipped at once. -/
def opSliceSkip (d : Dev) : Dev :=
  let g := d.sliceNext
  let k := groupComb g
  if d.isDue ∧ (d.ownerOf k).isNone ∧ (d.heldOff k ∨ (!d.headroom none ∧ d.bist.fellAt + 10 * second ≤ d.ps)) then
    ((((d.wf (Reg.BIST_GROUP g) Fld.BIST_GROUP_RESULT 3).bump Reg.BIST_SKIPPED 1).sleepAgain k d.bist.woke).afterSlice g)
  else d

/-- SYSTIME in whole seconds. -/
def Dev.seconds (d : Dev) : Nat := d.sysTime.toNat / 1250000000

/-- The pre-wakes that waited for the slice (R301). -/
def Dev.lateWake (d : Dev) : Dev := d.bist.prewake.foldl (fun (e : Dev) k => e.beginWake k) { d with bist := { d.bist with prewake := [] } }

/-- SLICE_END: the result, then what waited for the slice. -/
def opSliceEnd (fail : Option BistFail) (d : Dev) : Dev :=
  match d.bist.slice with
  | some s =>
    let k := groupComb s.group
    let owner := d.ownerOf k
    let d1 := d.upd [(Reg.BIST_GROUP s.group, Fld.BIST_GROUP_RESULT, if fail.isSome then 2 else 1), (Reg.BIST_GROUP s.group, Fld.BIST_GROUP_T_S, d.seconds)]
    let d2 := ((d1.addf (Reg.BIST_GROUP s.group) Fld.BIST_GROUP_PASSES 1).bump Reg.BIST_SLICES 1).afterSlice s.group
    let d3 : Dev := match owner with
      | some p => { d2 with pwr := { d2.pwr with sliceLimit := sput (fun _ => none) d2.pwr.sliceLimit p none } }
      | none => d2
    let d4 := match fail with | some f => d3.markFail (some s.group) f | none => d3
    if fail.isSome ∧ d.rf Reg.BIST_STAT Fld.BIST_STAT_POLICY = 2 then d4.enterChrysalis 0x1402
    else
      let d5 := (d4.sleepAgain k (some s.back)).lateWake
      match owner with
      | some p =>
        let d6 := if d5.combsAwake p then d5.launchLoads p else d5
        (match d6.chosenOf p with | some c => d6.switchMolt p c | none => d6)
      | none => d5
  | none => d

def execSliceDue (s : State) : Host.Outcome State Fault Refusal := done s (opSliceDue s.dev)
def execSliceStart (s : State) : Host.Outcome State Fault Refusal := done s (opSliceStart s.dev)
def execSliceSkip (s : State) : Host.Outcome State Fault Refusal := done s (opSliceSkip s.dev)
def execSliceEnd (fail : Option BistFail) (s : State) : Host.Outcome State Fault Refusal := done s (opSliceEnd fail s.dev)

end Sys2Proof.Machine
end

