-- ==== Sys2Proof/Machine/Edge.lean ====
section
/-!
DEFINITION. The edge dies' share of REMOTE streams (R342, R343), brood-wide work counters (R129), stage handoffs (R350, R351), and remote waits (R341); the TILE
and QCREDIT packets that reach a cell or an edge die.
-/
namespace Sys2Proof.Machine

/-! ### Target words (Table 11-7) -/

def tgKind (b : Nat) : Nat := b / 2 ^ 46 % 4
def tgPos (b : Nat) : Nat := b / 2 ^ 43 % 8
def tgX (b : Nat) : Nat := b / 2 ^ 33 % 128
def tgY (b : Nat) : Nat := b / 2 ^ 27 % 64
def tgTc (b : Nat) : Nat := b / 2 ^ 25 % 4
def tgQueue (b : Nat) : Nat := b / 2 ^ 21 % 16
def tgIndex (b : Nat) : Nat := b % 65536

/-- TAG of a tile that an edge engine sends, and of one that a remote cell produced: column, row and task context of the producer below bit 15 (log entry
43). -/
def tagEngine : Nat := 0x4000
def tagRemote (x y tc : Nat) : Nat := 0x8000 + x * 256 + y * 4 + tc

/-- The IO die of an edge port (Table 1-3), and the port by which an IO die sends to a cell. -/
def ioOf (c : Nat) : Nat := if cellX c = 0 then 0 else 1
def ioPort (c : Nat) : Nat := cellAt (if cellX c < 64 then 0 else 127) (cellY c % 32)

/-! ### Arrival of a tile at a cell (R43, R52) -/

/-- The consumer's issue of a LINK or REMOTE stream counts a tile that lands, and ends with END_OF_STREAM. -/
def Dev.countLanded (d : Dev) (c q : Nat) (eos : Bool) : Dev :=
  match d.queueIssue c q with
  | some i =>
    if i.sd.kind = skLink ∨ i.sd.kind = skRemote then
      d.modIssue i.uid fun j =>
        let k := { j with landed := j.landed + 1 }
        if eos then k.finish else k
    else d
  | none => d

/-- A TILE ejects at a cell. -/
def Dev.tileAtCell (d : Dev) (p : Packet) : Dev :=
  d.eject 1 p fun e =>
    let x := e.cell p.dst
    let eos := (hdrOf p.payload).eos
    let prod : Producer := if p.tag < 0x4000 then .cell p.src p.tag else .edge p.src p.tag p.addr
    if (x.queue p.queue).slots.length < queueDepth x.active p.queue then
      (e.landTile p.dst p.queue p.payload prod eos).countLanded p.dst p.queue eos
    else e

/-! ### Tiles from an IO die to a cell -/

/-- An IO die injects a TILE for queue q of a cell. -/
def Dev.edgeTile (d : Dev) (c tc q tag node p : Nat) (tile : List Byte) : Dev :=
  let port := ioPort c
  d.injectEdge port (((mkPkt 1 (d.cell c).gen.toNat c port tag node tile).withTc tc q).withPart p)

/-- The credit of a tile that an IO die has taken from the mesh. -/
def Dev.edgeCredit (d : Dev) (p : Packet) : Dev :=
  d.injectEdge p.dst ((mkPkt 6 p.gen p.src p.dst p.tag p.queue []).withPart p.part)

/-- The producing issue of a tile that leaves the mesh: the newest of the task context and output that its TAG names. -/
def Dev.edgeIssue (d : Dev) (p : Packet) : Option Issue :=
  match (d.partOfComb (combOf p.src)).bind d.activeImg with
  | some img =>
    (d.fab.issues.filter fun i => i.cell == p.src && i.tc == p.tag / 16 % 4 && i.chain.isNone && i.queue == 0xFF &&
      outputOf d img (d.cell p.src) i.tc i.descIdx == some (p.tag % 16)).getLast?
  | none => none

/-! ### REMOTE streams between cells (R343) -/

/-- The cell and task context whose REMOTE stream feeds a queue of this device, by the image that every participant runs (log entry 43). -/
def Dev.remoteProducer (d : Dev) (i : Img) (x y tc q : Nat) : Option (Nat × Nat × Nat) :=
  d.fab.cells.findSome? fun r =>
    (List.range 4).findSome? fun t =>
      if (producerRecs d i r.2 t).any fun s => match d.desc i (s.n 0 2) with
          | some sd => sd.kind == skRemote && tgKind sd.base == 0 && tgPos sd.base == d.pos && tgX sd.base == x && tgY sd.base == y && tgTc sd.base == tc &&
              tgQueue sd.base == q
          | none => false
      then some (cellX r.1 - 32 * (i.origin % 4), cellY r.1 - 16 * (i.origin / 4), t) else none

/-- A TILE from another participant enters the mesh with the consumer's active generation, at its footprint coordinates. -/
def Dev.remoteTileIn (d : Dev) (p node x y tc q : Nat) (tile : List Byte) : Dev :=
  match d.activeImg p with
  | some i =>
    let c := Dev.footCell i x y
    let tag := match d.remoteProducer i x y tc q with | some (px, py, pt) => tagRemote px py pt | none => tagEngine
    d.edgeTile c tc q tag node p tile
  | none => d

/-- A tile of a CELL target leaves for its participant. -/
def Dev.remoteTileOut (d : Dev) (p : Packet) (base : Nat) : Dev :=
  if tgPos base = d.pos then d.remoteTileIn p.part d.node (tgX base) (tgY base) (tgTc base) (tgQueue base) p.payload
  else
    match d.curCtx p.part with
    | some c => d.send 0x10 (d.posNode (tgPos base)) { d.ctxPkt c (d.att c).epoch
        [(33, 1, tgTc base + 16 * tgQueue base), (34, 1, tgX base), (35, 1, tgY base), (36, 1, tgPos base)] with payload := p.payload }
    | none => d

/-- REMOTE_TILE, when its epoch is that of the receiver's attempt. -/
def takeTile (x : FrPkt) (d : Dev) : Dev :=
  match d.pktCtx x with
  | some (p, c) =>
    let r := d.epochTake p c x.epoch.toNat
    if r.1 ∧ d.curCtx p = some c then
      r.2.remoteTileIn p x.src.toNat (argN x 34 1) (argN x 35 1) (argN x 33 1 % 4) (argN x 33 1 / 16) (x.payload.take tileWire)
    else r.2
  | none => d

/-- Credits come back to the task context and output of this device whose REMOTE stream targets the queue. -/
def Dev.remoteCredits (d : Dev) (p pos x y tc q n : Nat) : Dev :=
  match d.activeImg p with
  | some i =>
    let c := Dev.footCell i x y
    match (producerRecs d i (d.cell c) tc).find? fun s => match d.desc i (s.n 0 2) with
        | some sd => sd.kind == skRemote && tgKind sd.base == 0 && tgPos sd.base == pos && tgQueue sd.base == q
        | none => false with
    | some s =>
      match outputOf d i (d.cell c) tc (s.n 0 2) with
      | some o =>
        ((d.modTc c tc fun y => y.setOut o { y.out o with credits := (y.out o).credits + n }).trySeparate c tc o).wake c (.output (16 * tc + o))
      | none => d
    | none => d
  | none => d

/-- REMOTE_QCREDIT: a credit of another attempt is discarded. -/
def takeQcredit (x : FrPkt) (d : Dev) : Dev :=
  match d.pktCtx x with
  | some (p, c) =>
    if x.epoch.toNat = (d.att c).epoch ∧ d.curCtx p = some c then
      d.remoteCredits p (posOf x) (argN x 34 1) (argN x 35 1) (argN x 33 1 % 4) (argN x 33 1 / 16) (argN x 37 1)
    else d
  | none => d

/-- The consumer's credit for a tile of a remote cell leaves for its producer. -/
def Dev.creditOut (d : Dev) (p : Packet) : Dev :=
  let t := p.tag % 0x8000
  let q := p.addr % 16
  let node := p.addr / 16
  if node = d.node then d.remoteCredits p.part d.pos (t / 256) (t / 4 % 64) (t % 4) q 1
  else
    match d.curCtx p.part with
    | some c => d.send 0x11 node (d.ctxPkt c (d.att c).epoch [(33, 1, t % 4 + 16 * q), (34, 1, t / 256), (35, 1, t / 4 % 64), (36, 1, node % 8), (37, 1, 1)])
    | none => d

/-! ### Brood-wide work counters (R129) -/

/-- A request for a brood-wide counter at the lead. -/
def takeWkcReq (x : FrPkt) (d : Dev) : Dev :=
  match d.pktCtx x with
  | some (p, c) =>
    let r := d.epochTake p c x.epoch.toNat
    let e := r.2
    if r.1 then
      let addr := argN x 34 6
      let n := addr / 2 ^ 40
      match e.homeOf p n with
      | some (h, wide) =>
        if wide ∧ e.isLead then
          match e.serveWkc (wkcKey true p n) addr with
          | .ok (v, e1) => e1.send 0x13 x.src.toNat (e1.ctxPkt c x.epoch.toNat [(34, 6, v), (40, 2, argN x 40 2)])
          | .error cause => e.cellFault h cCounter cause (wkcDetail addr cause)
        else e.cellFault h cCounter 0x0824 (wkcDetail addr 0x0824)
      | none => e.stepFault p (some c) (notice cCounter 0x0824 (wkcDetail addr 0x0824))
    else e
  | none => d

/-- The value of a counter reaches the sequencer that waits for it. -/
def Dev.wkcDone (d : Dev) (k i v : Nat) : Dev :=
  let s := d.seq k i
  match s.wait with
  | .wkc rd => d.setSeq k i { s with wait := .none, pc := s.pc + 4, x := if rd = 0 then s.x else sput (fun _ => 0#64) s.x rd (BitVec.ofNat 64 v) }
  | _ => d

def isCounterWait (k i : Nat) (w : RemoteWait) : Bool := match w.kind with | .counter k1 i1 _ => k1 == k && i1 == i | _ => false

/-- A reply for a brood-wide counter: TAG names the sequencer as 4·comb + sequencer. A reply more than 200 µs after its request never enters the mesh (R53). -/
def takeWkcResp (x : FrPkt) (d : Dev) : Dev :=
  match d.pktCtx x with
  | some (p, c) =>
    let r := d.epochTake p c x.epoch.toNat
    let e := r.2
    let k := argN x 40 2 / 4 % 16
    let i := argN x 40 2 % 4
    if r.1 ∧ e.lnk.waits.any (fun w => isCounterWait k i w && e.ps ≤ w.since + 200 * us) then
      ({ e with lnk := { e.lnk with waits := e.lnk.waits.filter fun w => !isCounterWait k i w } }).wkcDone k i (argN x 34 6)
    else e
  | none => d

/-! ### Stage handoffs (R350, R351) -/

def Dev.hoffBase (d : Dev) (c : Nat) : Nat := d.rf (Reg.LNK_HOFF c) Fld.LNK_HOFF_BASE
def Dev.hoffSize (d : Dev) (c : Nat) : Nat := d.rf (Reg.LNK_HOFF c) Fld.LNK_HOFF_HSIZE

/-- A tile of a HANDOFF target leaves for the next stage's lead: its index is INDEX plus SEQ. -/
def Dev.handoffOut (d : Dev) (p : Packet) (base : Nat) : Dev :=
  match d.curCtx p.part with
  | some c =>
    if d.hasNext c then
      d.send 0x50 (d.rf (Reg.LNK_STAGE c) Fld.LNK_STAGE_NEXT) { d.ctxPkt c (d.att c).epoch
        [(34, 4, tgIndex base + (hdrOf p.payload).seq), (40, 8, (d.handoff c).sent)] with payload := p.payload }
    else d
  | none => d

def Dev.fromPrev (d : Dev) (c : Nat) (x : FrPkt) : Bool := d.hasPrev c && d.rf (Reg.LNK_STAGE c) Fld.LNK_STAGE_PREV == x.src.toNat

/-- HANDOFF_TILE: written into the receive area, or the handoff is bad. -/
def takeHandoffTile (x : FrPkt) (d : Dev) : Dev :=
  match d.pktCtx x with
  | some (p, c) =>
    let i := argN x 34 4
    let n := argN x 40 8
    if d.fromPrev c x then
      if i < d.hoffSize c then
        (d.chargeMem p (d.hoffBase c) tileWire).setBytes (d.hoffBase c + tileBytes * (d.hoffSize c + i)) (slotBytes (x.payload.take tileWire))
      else d.setHandoff c { d.handoff c with bad := if (d.handoff c).bad.contains n then (d.handoff c).bad else n :: (d.handoff c).bad }
    else d
  | none => d

/-- HANDOFF_COMMIT: the handoff is complete, and its copy begins when the consume area is free. -/
def takeHandoffCommit (x : FrPkt) (d : Dev) : Dev :=
  match d.pktCtx x with
  | some (_, c) =>
    if d.fromPrev c x then (d.setHandoff c { d.handoff c with complete := (d.handoff c).complete ++ [argN x 40 8], src := x.src.toNat }).startHandoffCopy c else d
  | none => d

/-- HANDOFF_COPY_END: the handoff counts as committed and unconsumed. -/
def opHandoffCopyEnd (c : Nat) (d : Dev) : Dev :=
  let h := d.handoff c
  match h.copying with
  | some n =>
    let len := tileBytes * d.hoffSize c
    let d1 := match d.partOfCtx c with | some p => d.chargeMem p (d.hoffBase c) (2 * len) | none => d
    let d2 := (d1.setBytes (d.hoffBase c) (d.bytes (d.hoffBase c + len) len)).setHandoff c { h with copying := none, consume := some n, usable := true }
    match d.partOfCtx c with | some p => d2.checkPreempt p | none => d2
  | none => d

/-- HANDOFF_ACK from the next stage. -/
def takeHandoffAck (x : FrPkt) (d : Dev) : Dev :=
  match d.pktCtx x with
  | some (p, c) =>
    if d.hasNext c ∧ d.rf (Reg.LNK_STAGE c) Fld.LNK_STAGE_NEXT = x.src.toNat then
      (d.setHandoff c { d.handoff c with acked := max (d.handoff c).acked (argN x 40 8 + 1) }).checkPreempt p
    else d
  | none => d

/-! ### Edge engines that answer through a REMOTE stream (R342) -/

/-- Is an issue the receiving end of an edge engine's stream with the given kind of target? -/
def receives (i : Issue) (p kind : Nat) : Bool :=
  i.part == p && i.sd.kind == skRemote && i.sd.producer == 0xFFFF && tgKind i.sd.base == kind && !i.ended && i.chain.isNone

/-- Room for one more tile in the queue of a receiving issue, tiles in the mesh counted. -/
def Dev.roomFor (d : Dev) (i : Issue) : Bool :=
  let x := d.cell i.cell
  (x.queue i.queue).slots.length + (i.sent - i.landed) < queueDepth x.active i.queue

/-- Send the next tile of an engine's stream to a receiving issue. -/
def Dev.engineSend (d : Dev) (i : Issue) (tile : List Byte) : Dev :=
  (d.modIssue i.uid fun j => { j with sent := j.sent + 1 }).edgeTile i.cell i.tc i.queue tagEngine 0 i.part tile

/-- The handoff buffer feeds a stream with the tiles of the consume area from INDEX on; the last one carries END_OF_STREAM, a stream of zero
extent one EMPTY tile (R117). -/
def Dev.pumpHandoff (d : Dev) (p : Nat) : Nat → Dev
  | 0 => d
  | n + 1 =>
    let e := d.pumpHandoff p n
    match e.curCtx p with
    | some c =>
      (e.fab.issues.filter fun i => receives i p 2).foldl (fun (f : Dev) i =>
        let g := (f.cell i.cell).gen.toNat
        if f.roomFor i ∧ i.sent < i.total then
          let t := f.bytes (f.hoffBase c + tileBytes * (tgIndex i.sd.base + i.sent)) tileWire
          f.engineSend i (reHdr t { hdrOf t with
            streamId := i.sd.streamId, seq := i.sent, gen := g, epoch := f.epochAt i.cell, eos := i.sent + 1 == i.total && !i.sd.eosSeparate })
        else if f.roomFor i ∧ i.sent = i.total ∧ (i.sd.eosSeparate ∨ i.total = 0) then
          f.engineSend i (emptyTile i.sd.format 0 i.sd.streamId i.total g (f.epochAt i.cell) true i.sd.speculative)
        else f) e
    | none => e

end Sys2Proof.Machine
end

