-- ==== Sys2Proof/Machine/Coll.lean ====
section
/-!
DEFINITION. Collective engines (R344 to R349), the TILE packets that reach a cell or leave by an outer port, credits, and the end of remote waits (R341).
-/
namespace Sys2Proof.Machine

/-! ### The collective table and groups (R344, R345) -/

/-- A tensor of the weight manifest by its identity: address and tile slots. -/
def Dev.manifest (d : Dev) (i : Img) (id : Nat) : Option (Nat × Nat) :=
  match d.section? i 7 with
  | some s =>
    ((List.range (s.len / 64)).find? fun k => d.imgNum i (s.off + 64 * k) 4 == id).map fun k =>
      (i.place.getD (d.imgNum i (s.off + 64 * k + 4) 1) 0 + d.imgNum i (s.off + 64 * k + 8) 8, d.imgNum i (s.off + 64 * k + 16) 8)
  | none => none

/-- A record of the collective table (Table 11-8). -/
structure CollRec where
  op : Nat
  scope : Nat
  fmtIn : Nat
  fmtOut : Nat
  edge : Nat
  group : Nat
  sMax : Nat
  area : Nat
  tiles : Nat
  deriving DecidableEq, Repr

def Dev.collRec (d : Dev) (i : Img) (idx : Nat) : Option CollRec :=
  match d.manifest i 0xC0000000 with
  | some (a, n) =>
    if idx < n then
      let w := fun (k : Nat) => d.num (a + tileBytes * idx + 320 + 4 * k) 4
      some ⟨w 0 % 16, w 0 / 16 % 2, w 0 / 256 % 256, w 0 / 65536 % 256, w 0 / 32 % 2, w 1 % 256, w 2 % 65536, w 3 % 65536, w 4⟩
    else none
  | none => none

/-- Is the record valid? -/
def Dev.collRecOk (d : Dev) (i : Img) (r : CollRec) : Bool :=
  1 ≤ r.op && r.op ≤ 4 && (fmtShape r.fmtIn).isSome && (fmtShape r.fmtOut).isSome && 1 ≤ r.sMax && (d.desc i r.area).isSome &&
    (if r.op ≤ 2 then 1 ≤ r.fmtIn && r.fmtIn ≤ 3 && 1 ≤ r.fmtOut && r.fmtOut ≤ 3 else r.fmtIn == r.fmtOut)

/-- The node IDs of group g in rank order. -/
def Dev.collNodes (d : Dev) (p g : Nat) : List Nat :=
  let e := (d.rd (Reg.LNK_CG_BASE p)).toNat + 16 * g
  (List.range (min (d.num e 4) 262145)).map fun r => d.num (d.num (e + 8) 8 + 4 * r) 4

/-- Does a node lie in the commit domain of context c? -/
def Dev.inDomain (d : Dev) (c node : Nat) : Bool :=
  node == d.node || (d.broodCtx c && node / 8 == d.node / 8 && (sget (fun _ => []) d.lnk.participants c).contains (node % 8))

def Dev.groupOk (d : Dev) (c scope : Nat) (nodes : List Nat) : Bool :=
  1 ≤ nodes.length && nodes.length ≤ 262144 && nodes.contains d.node && nodes.eraseDups.length == nodes.length && (scope == 1 || nodes.all (d.inDomain c))

/-! ### State of a group -/

def CollGroup.zero : CollGroup := ⟨none, none, 0, []⟩
def Dev.group (d : Dev) (k : Nat) : CollGroup := sget (fun _ => CollGroup.zero) d.lnk.groups k
def Dev.setGroup (d : Dev) (k : Nat) (g : CollGroup) : Dev := { d with lnk := { d.lnk with groups := sput (fun _ => CollGroup.zero) d.lnk.groups k g } }
def Dev.setActive (d : Dev) (k : Nat) (a : CollIssue) : Dev := d.setGroup k { d.group k with active := some a }

/-- TRY: attempts of the present step. -/
def Dev.tryOf (d : Dev) (c : Nat) : Nat := (d.att c).epoch - (d.att c).lastCommitted

/-- Tile slots of one bank (Table 11-9). -/
def collBank (op s n : Nat) : Nat :=
  if op = 1 then s + n * ceilDiv s n + s else if op = 2 then s + n * ceilDiv s n else if op = 3 then n * s else 2 * s

/-- Everything that an issue sends to rank r, as far as it exists: (phase, tile index, tile). -/
def CollIssue.piecesFor (a : CollIssue) (r : Nat) : List (Nat × Nat × List Byte) :=
  let n := a.nodes.length
  let ins := a.inputs.zipIdx.map fun q => (q.2, q.1)
  if a.op ≤ 2 then
    (ins.filter fun q => q.1 % n == r).map (fun q => (0, q.1, q.2)) ++ (if a.op = 1 then a.results.map fun q => (1, q.1, q.2) else [])
  else if a.op = 3 then ins.map fun q => (0, q.1, q.2)
  else (ins.filter fun q => q.1 / (a.s / n) == r).map fun q => (0, q.1, q.2)

/-- Send one piece to a rank. -/
def Dev.sendPiece (d : Dev) (p g r : Nat) (a : CollIssue) (q : Nat × Nat × List Byte) : Dev :=
  let x := d.ctxPkt a.ctx a.stamp [(33, 1, a.scope + 2 * q.1), (34, 2, a.index), (36, 4, q.2.1), (40, 1, g), (41, 1, a.cindex), (44, 4, a.s)]
  d.send 0x40 (a.nodes.getD r 0) { x with domain := BitVec.ofNat 16 (d.rd (Reg.LNK_DOMAIN p)).toNat, tryCount := BitVec.ofNat 8 (d.tryOf a.ctx), payload := q.2.2 }

/-- Ranks other than this one. -/
def CollIssue.others (a : CollIssue) : List Nat := (List.range a.nodes.length).filter (· != a.rank)

def CollIssue.piece (a : CollIssue) (phase rank tile : Nat) : Option (List Byte) :=
  (a.pieces.find? fun q => q.phase == phase && q.rank == rank && q.tile == tile).map (·.data)

/-- Tile t as rank j put it in: its own or a piece. -/
def CollIssue.input (a : CollIssue) (j t : Nat) : Option (List Byte) := if j = a.rank then a.inputs[t]? else a.piece 0 j t

/-- The tiles that this rank owns in a reduction. -/
def CollIssue.owned (a : CollIssue) : List Nat := if a.op ≤ 2 then (List.range a.s).filter fun t => t % a.nodes.length == a.rank else []

/-! ### Reduction (R346) -/

/-- One element of a tile as FP32. -/
def tileF32 (h : Hdr) (tile : List Byte) (r k : Nat) : W32 :=
  let line := if h.kaxis = 0 then r else k
  let red := if h.kaxis = 0 then k else r
  toF32 ((codeValue h.format 0 (tileCode h tile line red)).getD .nan)

/-- Tile t from every rank, combined elementwise by T over the ranks in order and rounded once; none where extents disagree or do not fit the output. -/
def reduceTiles (fmt : Nat) (ts : List (List Byte)) : Option (List Byte) :=
  let h := hdrOf (ts.headD [])
  let shape := tileShape fmt h.kaxis
  let ok := ts.all fun t => let q := hdrOf t; q.kaxis == h.kaxis && hdrRows q == hdrRows h && hdrCols q == hdrCols h && q.empty == h.empty
  if ok && hdrRows h ≤ shape.1 && hdrCols h ≤ shape.2 then
    some (cvtTile h fmt h.kaxis (if h.empty then 0 else hdrRows h) (if h.empty then 0 else hdrCols h) fun r k =>
      (valueCode fmt (f32 (tree (ts.map fun t => tileF32 (hdrOf t) t r k))), 0))
  else none

/-! ### Outputs (Table 11-9) -/

def CollIssue.outputs (a : CollIssue) : Nat :=
  let n := a.nodes.length
  if a.op = 2 then (a.s + n - 1 - a.rank) / n else if a.op = 3 then n * a.s else a.s

/-- Output m of this rank: its SEQ and tile, when it is there. -/
def CollIssue.output (a : CollIssue) (m : Nat) : Option (Nat × List Byte) :=
  let n := a.nodes.length
  let res := fun (t : Nat) => (a.results.find? fun q => q.1 == t).map (·.2)
  if a.op = 1 then (if m % n = a.rank then res m else a.piece 1 (m % n) m).map fun t => (m, t)
  else if a.op = 2 then (res (a.rank + m * n)).map fun t => (a.rank + m * n, t)
  else if a.op = 3 then (a.input (m / a.s) (m % a.s)).map fun t => (m, t)
  else (a.input (m / (a.s / n)) (a.rank * (a.s / n) + m % (a.s / n))).map fun t => (m, t)

/-- Ranks from which a piece is still to come. -/
def CollIssue.awaited (a : CollIssue) : List Nat :=
  let n := a.nodes.length
  a.others.filter fun j =>
    if a.s = 0 then false
    else if a.op ≤ 2 then a.owned.any (fun t => (a.piece 0 j t).isNone) || (a.op == 1 && (List.range a.s).any fun t => t % n == j && (a.piece 1 j t).isNone)
    else if a.op = 3 then (List.range a.s).any fun t => (a.piece 0 j t).isNone
    else (List.range (a.s / n)).any fun k => (a.piece 0 j (a.rank * (a.s / n) + k)).isNone

/-! ### The engine -/

def isCollWait (p g : Nat) (w : RemoteWait) : Bool := match w.kind with | .collective p1 g1 => p1 == p && g1 == g | _ => false
def Dev.endWait (d : Dev) (t : RemoteWait → Bool) : Dev := { d with lnk := { d.lnk with waits := d.lnk.waits.filter fun w => !t w } }
/-- The wait of a group's issue starts, or progresses. -/
def Dev.collWait (d : Dev) (p g : Nat) (a : CollIssue) : Dev :=
  let e := d.endWait (isCollWait p g)
  match a.awaited with
  | j :: _ =>
    let k := match e.activeImg p with | some i => i.origin | none => 0
    { e with lnk := { e.lnk with waits := e.lnk.waits ++ [⟨.collective p g, k, a.nodes.getD j 0, e.ps⟩] } }
  | [] => e

def Dev.collFault (d : Dev) (p c cls cause detail : Nat) : Dev := d.stepFault p (some c) (notice cls cause detail)

/-- Reduce owned tile t if every rank's piece is there; the owner of an ALL_REDUCE tile sends the result to every other rank. -/
def Dev.reduceOwned (d : Dev) (p g t : Nat) : Dev :=
  match (d.group (256 * p + g)).active with
  | some a =>
    let ts := (List.range a.nodes.length).filterMap fun j => a.input j t
    if ts.length = a.nodes.length ∧ !(a.results.any fun q => q.1 == t) then
      match reduceTiles a.fmtOut ts with
      | some tile =>
        let b := { a with results := a.results ++ [(t, tile)] }
        let e := d.setActive (256 * p + g) b
        if a.op = 1 then b.others.foldl (fun (f : Dev) r => f.sendPiece p g r b (1, t, tile)) e else e
      | none => d.collFault p a.ctx cConfig 0x0F21 a.index
    else d
  | none => d

/-- Deliver outputs in ascending SEQ while they are there and the receiving queue has room; after the last the issue is complete and its bank retained (R349). -/
def Dev.collDeliver (p g : Nat) : Nat → Dev → Dev
  | 0, d => d
  | n + 1, d =>
    let k := 256 * p + g
    match (d.group k).active with
    | some a =>
      match d.fab.issues.find? fun i => receives i p 1 && tgIndex i.sd.base == a.index with
      | some i =>
        let gen := (d.cell i.cell).gen.toNat
        let last := if a.outputs = 0 then 1 else a.outputs + b2n (i.sd.eosSeparate && i.total != 0)
        if a.s = 0 ∨ !d.roomFor i then d
        else if a.outputs ≤ a.delivered then
          let e := if a.delivered < last then
              d.engineSend i (emptyTile i.sd.format 0 i.sd.streamId a.outputs gen (d.epochAt i.cell) true i.sd.speculative)
            else d
          (e.setGroup k { e.group k with active := none, kept := some { a with delivered := last } }).endWait (isCollWait p g)
        else
          match a.output a.delivered with
          | some (seq, t) =>
            let b := { a with delivered := a.delivered + 1 }
            let tile := reHdr t { hdrOf t with
              streamId := i.sd.streamId, seq := seq, slot := 0xFFFF, slotGen := 0, gen := gen, epoch := d.epochAt i.cell,
              speculative := i.sd.speculative, eos := b.delivered == last }
            let e := (d.setActive k b).engineSend i tile
            if b.delivered = last then (e.setGroup k { e.group k with active := none, kept := some b }).endWait (isCollWait p g)
            else Dev.collDeliver p g n e
          | none => d
      | none => d
    | none => d

/-- Go on with a group: reductions, then deliveries. -/
def Dev.collAdvance (d : Dev) (p g : Nat) : Dev :=
  match (d.group (256 * p + g)).active with
  | some a => Dev.collDeliver p g (a.outputs + 1) (a.owned.foldl (fun (e : Dev) t => e.reduceOwned p g t) d)
  | none => d

/-- A piece with the stamp of the active issue. -/
def Dev.acceptPiece (d : Dev) (p g : Nat) (x : FrPkt) : Dev :=
  match (d.group (256 * p + g)).active with
  | some a =>
    match a.nodes.findIdx? (· == x.src.toNat) with
    | some j =>
      let phase := argN x 33 1 / 2 % 4
      let t := argN x 36 4
      if argN x 44 4 ≠ a.s then d.collFault p a.ctx cConfig 0x0F21 a.index
      else
        let b := { a with
          tries := sput (fun _ => 0) a.tries j (max (sget (fun _ => 0) a.tries j) x.tryCount.toNat),
          pieces := if (a.piece phase j t).isSome then a.pieces else a.pieces ++ [⟨phase, j, t, x.payload.take tileWire⟩] }
        ((d.setActive (256 * p + g) b).collWait p g b).collAdvance p g
    | none => d.bump Reg.LNK_COLL_STALE 1
  | none => d

/-- Stamps are ordered by EPOCH or T first, then by CINDEX. -/
def stampLt (a b : Nat × Nat) : Bool := a.1 < b.1 || (a.1 == b.1 && a.2 < b.2)
def pktStamp (x : FrPkt) : Nat × Nat := (x.epoch.toNat, argN x 41 1)
def CollIssue.st (a : CollIssue) : Nat × Nat := (a.stamp, a.cindex)

/-- Held pieces of a group that the active issue now takes, or that are older than it. -/
def Dev.takeHeld (d : Dev) (p g : Nat) : Dev :=
  match (d.group (256 * p + g)).active with
  | some a =>
    let mine := fun (q : Nat × FrPkt) => d.partOfDomain q.2.domain.toNat == some p && argN q.2 40 1 == g && !stampLt a.st (pktStamp q.2)
    let now := d.lnk.heldPieces.filter mine
    let e : Dev := { d with lnk := { d.lnk with heldPieces := d.lnk.heldPieces.filter fun q => !mine q } }
    now.foldl (fun (f : Dev) q => if pktStamp q.2 = a.st then f.acceptPiece p g q.2 else f.bump Reg.LNK_COLL_STALE 1) e
  | none => d

/-- The inputs of an issue are complete: the checks of S, formats and area, then its pieces go out. -/
def Dev.collReady (d : Dev) (p g : Nat) (a0 : CollIssue) (r : CollRec) : Dev :=
  let n := a0.nodes.length
  let a := { a0 with s := a0.inputs.length }
  let b2 := 2 * collBank a.op a.s n
  if a.s = 0 ∨ r.sMax < a.s ∨ (a.op = 4 ∧ a.s % n ≠ 0) ∨ !(a.inputs.all fun t => (hdrOf t).format == r.fmtIn && hdrValid (hdrOf t)) then
    d.collFault p a.ctx cConfig 0x0F21 a.index
  else if r.tiles < b2 then d.collFault p a.ctx cResource 0x0F23 (a.index + b2 * 65536)
  else
    let e := (d.setActive (256 * p + g) a).collWait p g a
    let e1 := a.others.foldl (fun (f : Dev) j => (a.piecesFor j).foldl (fun (h : Dev) q => h.sendPiece p g j a q) f) e
    (e1.takeHeld p g).collAdvance p g

/-- One input tile of collective idx for its group; a tile of a later issue waits until the group is free. -/
def Dev.collFeed (d : Dev) (p c idx : Nat) (sep : Bool) (tile : List Byte) : Dev :=
  match d.activeImg p with
  | none => d
  | some img =>
    match d.collRec img idx with
    | none => d.collFault p c cConfig 0x0F21 idx
    | some r =>
      let k := 256 * p + r.group
      let h := hdrOf tile
      let put := fun (e : Dev) (a : CollIssue) =>
        let b := if sep && h.eos then a else { a with inputs := a.inputs ++ [tile] }
        if h.eos then e.collReady p r.group b r else e.setActive k b
      match (d.group k).active with
      | some a =>
        if a.index = idx ∧ a.s = 0 then put d a
        else d.setGroup k { d.group k with waiting := (d.group k).waiting ++ [(idx, sep, tile)] }
      | none =>
        let nodes := d.collNodes p r.group
        if !d.collRecOk img r then d.collFault p c cConfig 0x0F21 idx
        else if !d.groupOk c r.scope nodes then d.collFault p c cConfig 0x0F22 r.group
        else if r.scope = 1 ∧ (d.att c).launchT.isNone then d.collFault p c cConfig 0x0F25 (h.streamId * 2 ^ 32)
        else
          let stamp := if r.scope = 1 then ((d.att c).launchT.getD 0) else (d.att c).epoch
          let a : CollIssue := ⟨c, idx, stamp, (d.group k).issued % 256, r.scope, r.op, r.fmtIn, r.fmtOut, 0, nodes, (nodes.findIdx? (· == d.node)).getD 0, [], [], [], 0, []⟩
          let e := d.setGroup k { d.group k with active := some a, issued := (d.group k).issued + 1 }
          put e a

/-- Feed the tiles that wait for a group that has become free. -/
def Dev.collWaiting (p c g : Nat) : Nat → Dev → Dev
  | 0, d => d
  | n + 1, d =>
    let k := 256 * p + g
    match (d.group k).waiting with
    | (idx, sep, tile) :: rest =>
      let free := match (d.group k).active with | none => true | some a => a.index == idx && a.s == 0
      if free then Dev.collWaiting p c g n ((d.setGroup k { d.group k with waiting := rest }).collFeed p c idx sep tile) else d
    | [] => d

/-- Go on with every group of a partition, and with the tiles that wait behind. -/
def Dev.pumpColl (d : Dev) (p : Nat) : Dev :=
  match d.curCtx p with
  | some c =>
    (d.lnk.groups.filter fun q => q.1 / 256 == p).foldl (fun (e : Dev) q =>
      let g := q.1 % 256
      Dev.collWaiting p c g (e.group q.1).waiting.length (e.collAdvance p g)) d
  | none => d

/-- Everything that an edge engine may send into the mesh now. -/
def Dev.pumpEdges (d : Dev) (p : Nat) : Dev := (d.pumpColl p).pumpHandoff p 64

/-- A tile of a COLLECTIVE target, of the attempt in EXECUTE. -/
def Dev.collInput (d : Dev) (p : Packet) (i : Issue) : Dev :=
  match d.curCtx p.part with
  | some c =>
    if d.executing c then
      (d.collFeed p.part c (tgIndex i.sd.base) (i.sd.eosSeparate && i.total != 0) p.payload).pumpEdges p.part
    else d
  | none => d

/-! ### Packets of collectives (R348, R349) -/

/-- The stamp that a group has reached: its active issue's, else its last completed one's. -/
def CollGroup.reached (g : CollGroup) : Option (Nat × Nat) := match g.active with | some a => some a.st | none => g.kept.map CollIssue.st

/-- The IO die of the engine that a piece reaches. -/
def Dev.pieceEdge (d : Dev) (p : Nat) (x : FrPkt) : Nat :=
  match (d.activeImg p).bind fun i => d.collRec i (argN x 34 2) with | some r => r.edge | none => 0

/-- Must a piece be held: its stamp is higher, or the issue of its stamp still gathers its inputs? -/
def Dev.mustHold (d : Dev) (p : Nat) (x : FrPkt) : Bool :=
  let g := d.group (256 * p + argN x 40 1)
  match g.active with
  | some a => stampLt a.st (pktStamp x) || (a.s == 0 && a.st == pktStamp x)
  | none => match g.reached with | some s => stampLt s (pktStamp x) | none => true

/-- A piece that finds 256 held at its IO die is not taken, so its sender sends it again. -/
def Dev.pieceRefused (d : Dev) (x : FrPkt) : Bool :=
  match d.partOfDomain x.domain.toNat with
  | some p => d.mustHold p x && 256 ≤ (d.lnk.heldPieces.filter fun q => q.1 == d.pieceEdge p x).length
  | none => false

/-- COLL_DATA. -/
def takeCollData (x : FrPkt) (d : Dev) : Dev :=
  match d.partOfDomain x.domain.toNat with
  | none => d
  | some p =>
    let g := argN x 40 1
    let k := 256 * p + g
    let c := x.ctx.toNat
    let d1 := if argN x 33 1 % 2 = 0 ∧ d.partOfCtx c = some p ∧ (d.att c).epoch < x.epoch.toNat then d.abortCtx p c ⟨0x42, 0, false, d.pos, 0⟩ else d
    if d1.mustHold p x then { d1 with lnk := { d1.lnk with heldPieces := d1.lnk.heldPieces ++ [(d1.pieceEdge p x, x)] } }
    else if ((d1.group k).active.map CollIssue.st) = some (pktStamp x) then (d1.acceptPiece p g x).pumpEdges p
    else
      match (d1.group k).kept with
      | some a =>
        match a.nodes.findIdx? (· == x.src.toNat) with
        | some j =>
          if a.st = pktStamp x ∧ sget (fun _ => 0) a.tries j < x.tryCount.toNat then
            let b := { a with tries := sput (fun _ => 0) a.tries j x.tryCount.toNat }
            (b.piecesFor j).foldl (fun (e : Dev) q => e.sendPiece p g j b q) (d1.setGroup k { d1.group k with kept := some b })
          else d1.bump Reg.LNK_COLL_STALE 1
        | none => d1.bump Reg.LNK_COLL_STALE 1
      | none => d1.bump Reg.LNK_COLL_STALE 1

/-- COLL_ABORT. -/
def takeCollAbort (x : FrPkt) (d : Dev) : Dev :=
  match d.partOfDomain x.domain.toNat with
  | none => d
  | some p =>
    match (d.group (256 * p + argN x 40 1)).active with
    | some a => if a.st = pktStamp x then d.collFault p a.ctx cRemoteTimeout 0x0F03 (argN x 40 1 * 2 ^ 56 + x.src.toNat) else d
    | none => d

/-! ### The end of a remote wait (R341) -/

/-- The node that a wait on a REMOTE queue awaits: the previous stage for a handoff's stream, else the lead, else the lowest other participant (log
entry 44). -/
def Dev.queueNode (d : Dev) (c : Nat) (i : Option Issue) : Nat :=
  if i.any (fun j => tgKind j.sd.base == 2) then d.rf (Reg.LNK_STAGE c) Fld.LNK_STAGE_PREV
  else if d.isLead then d.posNode ((d.partners c).headD d.pos)
  else d.posNode (d.lnk.lead.getD d.pos)

/-- The task contexts that wait on a queue marked as fed from another device (R62), whether or not a stream stands on it; without one the stream ID of the wait is a free value (log entry 44). -/
def Dev.queueWaits (d : Dev) : List RemoteWait :=
  d.fab.cells.flatMap fun r => r.2.tcs.filterMap fun q =>
    match q.2.st, q.2.wait with
    | .waitIn, .queue n =>
      match queueRec r.2.active n, (d.partOfComb (combOf r.1)).bind d.curCtx with
      | some z, some c =>
        let i := d.queueIssue r.1 n
        if bit (z.b 3) 0 then some ⟨.queue r.1 q.1 (match i with | some j => j.sd.streamId | none => d.draw.toNat % 65536), combOf r.1, d.queueNode c i, q.2.since⟩ else none
      | _, _ => none
    | _, _ => none

/-- Every remote wait. -/
def Dev.remoteWaits (d : Dev) : List RemoteWait := d.lnk.waits ++ d.queueWaits

/-- The devices that a wait awaits: of a collective, every rank from which a piece is still to come. -/
def Dev.awaitedNodes (d : Dev) (w : RemoteWait) : List Nat :=
  match w.kind with
  | .collective p g => match (d.group (256 * p + g)).active with | some a => a.awaited.map fun j => a.nodes.getD j 0 | none => [w.node]
  | _ => [w.node]

/-- REMOTE_WAIT_TIMEOUT of the i-th wait. -/
def opRemoteWaitTimeout (i : Nat) (d : Dev) : Dev :=
  match d.remoteWaits[i]? with
  | none => d
  | some w =>
    if d.ps < w.since + 50 * us then d
    else
      let down := (d.awaitedNodes w).find? fun n => (d.peer n).unreachAt.isSome
      let own := fun (p cause detail : Nat) (e : Dev) =>
        if let some n := down then e.stepFault p (e.curCtx p) (notice cLinkDown 0x0F11 n)
        else e.stepFault p (e.curCtx p) { notice cRemoteTimeout cause detail with comb := w.comb }
      match w.kind with
      | .collective p g =>
        match (d.group (256 * p + g)).active with
        | some a =>
          let e := own p 0x0F02 (g * 2 ^ 56 + w.node) (d.endWait (isCollWait p g))
          a.others.foldl (fun (f : Dev) r => f.send 0x41 (a.nodes.getD r 0)
            { f.ctxPkt a.ctx a.stamp [(33, 1, a.scope), (34, 2, a.index), (40, 1, g), (41, 1, a.cindex)] with
              domain := BitVec.ofNat 16 (f.rd (Reg.LNK_DOMAIN p)).toNat }) e
        | none => d
      | .counter k q n => match d.partOfComb k with | some p => own p 0x0F01 (n * 2 ^ 32 + w.node) (d.endWait (isCounterWait k q)) | none => d
      | .queue _ _ s => match d.partOfComb w.comb with | some p => own p 0x0F01 (s * 2 ^ 32 + w.node) d | none => d

/-! ### TILE and QCREDIT -/

/-- A TILE ejects at a cell, or reaches an edge die: a REMOTE stream's by its target word, any other's at the expert engine's queue, from which it comes as
CHOICE_TILE or EXPERT_OUTPUT_TILE. -/
def opTile (p : Packet) (d : Dev) : Dev :=
  if !p.outer then d.tileAtCell p
  else if p.flit.kind.toNat ≠ 1 ∨ !kindOk p then (d.leave p).refuseInj p.dst
  else
    let e := d.leave p
    match e.edgeIssue p with
    | some i =>
      if i.sd.kind = skRemote then
        if tgKind i.sd.base = 0 then e.remoteTileOut p i.sd.base
        else if tgKind i.sd.base = 1 then (e.edgeCredit p).collInput p i
        else (e.edgeCredit p).handoffOut p i.sd.base
      else (e.edgeCredit p).note "expertTile" [ioOf p.dst, p.part, p.queue]
    | none => e.edgeCredit p

/-- A QCREDIT reaches a cell or forager, or an edge die whose tile took the slot. -/
def opCredit (p : Packet) (d : Dev) : Dev :=
  if !p.outer then opQcredit p d
  else if p.flit.kind.toNat ≠ 6 ∨ !kindOk p then (d.leave p).refuseInj p.dst
  else
    let e := d.leave p
    if 0x8000 ≤ p.tag then e.creditOut p else e.pumpEdges p.part

def execTile (p : Packet) (s : State) : Host.Outcome State Fault Refusal := done s (opTile p s.dev)
def execQcredit (p : Packet) (s : State) : Host.Outcome State Fault Refusal := done s (opCredit p s.dev)
def execRemoteWaitTimeout (i : Nat) (s : State) : Host.Outcome State Fault Refusal := done s (opRemoteWaitTimeout i s.dev)
def execHandoffCopyEnd (c : CtxIdx) (s : State) : Host.Outcome State Fault Refusal := done s (match s.dev.partOfCtx c with
  | some p => (opHandoffCopyEnd c s.dev).pumpEdges p
  | none => opHandoffCopyEnd c s.dev)

end Sys2Proof.Machine
end

