-- ==== Sys2Proof/Machine/Expert.lean ====
section
/-!
DEFINITION. Expert dispatch engines (R264 to R286): layer records, choice tiles and entries at the source, the merge and admission at the home, outputs and returns,
the combine map, and waits.
-/
namespace Sys2Proof.Machine

/-! ### Layer records (R265, R266) -/

/-- An expert of a layer record. -/
structure ExpRec where
  home : Nat
  loc : Nat
  cap : Nat
  inDesc : Nat
  outQueue : Nat
  notify : Nat
  deriving DecidableEq, Repr

/-- A layer record (Table 9-1). -/
structure LayerRec where
  k : Nat
  edge : Nat
  queue : Nat
  act : Nat
  ret : Nat
  hTiles : Nat
  outTiles : Nat
  gMax : Nat
  target : Nat
  experts : List ExpRec
  deriving DecidableEq, Repr

/-- Address and tile count of the expert table. -/
def Dev.expTable (d : Dev) (p : Nat) : Option (Nat × Nat) := (d.activeImg p).bind fun i => d.manifest i 0xE0000000

def Dev.layerAddr (d : Dev) (p t : Nat) : Nat := match d.expTable p with | some (a, _) => a + tileBytes * t | none => 0

def Dev.layerRec (d : Dev) (p t : Nat) : LayerRec :=
  let w := fun (n : Nat) => d.num (d.layerAddr p t + 320 + 4 * n) 4
  ⟨w 0 / 256 % 16, w 0 / 8192 % 2, w 0 / 16384 % 16, w 1 % 65536, w 1 / 65536, w 2 % 65536, w 2 / 65536, w 3 % 65536, w 4,
    (List.range (w 0 % 256)).map fun e =>
      ⟨w (16 + 4 * e) % 8, w (16 + 4 * e) / 8 % 8, w (16 + 4 * e) / 65536, w (17 + 4 * e) % 65536, w (17 + 4 * e) / 65536 % 16, w (18 + 4 * e) % 4096⟩⟩

/-- Brood position of an expert's home: in an image of one device, this device. -/
def Dev.homePos (d : Dev) (c : Nat) (e : ExpRec) : Nat := if d.broodCtx c then e.home else d.pos

/-- The positions whose streams a home merges. -/
def Dev.xptMembers (d : Dev) (c : Nat) : List Nat := if d.broodCtx c then filterBelow 8 (bit d.members) else [d.pos]

/-- The first word of a record that fails R264. -/
def Dev.badLayer (d : Dev) (p c : Nat) (r : LayerRec) : Option Nat :=
  let n := r.experts.length
  let descs := match d.activeImg p with | some i => d.descCount i | none => 0
  let homeOk := fun (e : ExpRec) => if d.broodCtx c then bit d.members e.home else e.home == 0
  let key := fun (e : ExpRec) => 8 * e.home + e.loc
  if n = 0 ∨ 64 < n ∨ r.k = 0 ∨ min 8 n < r.k ∨ (!d.broodCtx c ∧ 8 < n) then some 0
  else if descs ≤ r.act ∨ descs ≤ r.ret then some 1
  else
    (r.experts.zipIdx).findSome? fun q =>
      if !homeOk q.1 || ((r.experts.take q.2).any fun z => key z == key q.1) then some (16 + 4 * q.2)
      else if descs ≤ q.1.inDesc then some (17 + 4 * q.2) else none

/-- A fault of engine e (R285): its port field names the engine. -/
def Dev.xptFault (d : Dev) (p c e cls cause detail : Nat) : Dev := d.stepFault p (some c) { notice cls cause detail with port := e }

/-- Read a layer record: the record, or the device after its fault. -/
def Dev.readLayer (d : Dev) (p c e t : Nat) : Except Dev LayerRec :=
  let a := d.layerAddr p t
  let tile := d.bytes a tileWire
  if !(tileCrcOk tile && hdrValid (hdrOf tile)) then .error (d.xptFault p c e cTileCheck 0x0D07 (t * 2 ^ 52 + a))
  else
    let r := d.layerRec p t
    match d.badLayer p c r with
    | some w => .error (d.xptFault p c e cConfig 0x0D01 (t * 2 ^ 52 + w % 256))
    | none => .ok r

/-! ### State -/

def Dev.xsrc (d : Dev) (c : Nat) : List XptSource := sget (fun _ => []) d.xpt.src c
def Dev.setXsrc (d : Dev) (c : Nat) (l : List XptSource) : Dev := { d with xpt := { d.xpt with src := sput (fun _ => []) d.xpt.src c l } }
def Dev.modXsrc (d : Dev) (c t : Nat) (f : XptSource → XptSource) : Dev := d.setXsrc c ((d.xsrc c).map fun s => if s.layer == t then f s else s)
def Dev.xhome (d : Dev) (c : Nat) : List XptHome := sget (fun _ => []) d.xpt.home c
def Dev.setXhome (d : Dev) (c : Nat) (l : List XptHome) : Dev := { d with xpt := { d.xpt with home := sput (fun _ => []) d.xpt.home c l } }
def Dev.modXhome (d : Dev) (c t : Nat) (f : XptHome → XptHome) : Dev := d.setXhome c ((d.xhome c).map fun s => if s.layer == t then f s else s)
def Dev.homeLayer (d : Dev) (c t : Nat) : Option XptHome := (d.xhome c).find? fun h => h.layer == t

/-- Send an expert packet to a position. -/
def Dev.xptSend (d : Dev) (c kind pos : Nat) (fs : List (Nat × Nat × Nat)) (data : List Byte) : Dev :=
  d.send kind (d.posNode pos) { d.ctxPkt c (d.att c).epoch fs with payload := data }

def keyFields (t slot token rank expert gen row : Nat) : List (Nat × Nat × Nat) :=
  [(34, 2, t), (36, 2, slot), (38, 2, token), (40, 1, rank), (41, 1, expert), (42, 2, gen), (44, 2, row)]

/-! ### Waits (R280) -/

/-- The oldest waiting entry of a position. -/
def XptHome.head (h : XptHome) (pos : Nat) : Option HomeEntry := h.waiting.find? fun e => e.pos == pos

/-- Positions of other devices that engine e awaits for a context: streams not ended without an entry, and homes of unresolved entries (R280). -/
def Dev.xptAwaited (d : Dev) (p c e : Nat) : List Nat :=
  filterBelow 8 fun q => q != d.pos &&
    ((d.xhome c).any (fun h => (d.layerRec p h.layer).edge == e && (d.xptMembers c).contains q && !h.ended.contains q && (h.head q).isNone) ||
     (d.xsrc c).any (fun s => let l := d.layerRec p s.layer
       l.edge == e && s.sent.any fun y => !y.resolved && d.homePos c (l.experts.getD y.expert ⟨0, 0, 0, 0, 0, 0⟩) == q))

/-- A wait of engine e begins now, unless one runs already. -/
def Dev.xptBegin (d : Dev) (p c e : Nat) : Dev :=
  if (d.xptAwaited p c e).isEmpty then { d with xpt := { d.xpt with progress := sput (fun _ => 0) d.xpt.progress (2 * c + e) d.ps } } else d

/-- Something that engine e waits for has come: the longest wait is kept for XPT_WAIT. -/
def Dev.xptProgress (d : Dev) (c e : Nat) : Dev :=
  let gap := d.ps - sget (fun _ => 0) d.xpt.progress (2 * c + e)
  { d with xpt := { d.xpt with
    progress := sput (fun _ => 0) d.xpt.progress (2 * c + e) d.ps, longest := sput (fun _ => 0) d.xpt.longest c (max gap (sget (fun _ => 0) d.xpt.longest c)) } }

/-! ### Rows of tiles -/

/-- One row of a tile as a packet carries it: format, KAXIS with KEXT of a row that goes on past column 63, COLS_M1 and a zero byte, then the elements and the row's scale bytes (log entry 45). -/
def rowOf (tile : List Byte) (r : Nat) : List Byte :=
  let h := hdrOf tile
  match fmtShape h.format with
  | some (w, kt, _) =>
    let n := (tileShape h.format h.kaxis).2 * w / 8
    let scales := if (mxFmt h.format).isNone then []
      else if h.kaxis = 0 then (tile.drop (64 + r * (kt / 32))).take (kt / 32)
      else (List.range (tileShape h.format 1).2).map fun k => tile.getD (64 + k * (kt / 32) + r / 32) 0#8
    toLe 1 h.format ++ toLe 1 (h.kaxis * 128 + (if h.kaxis = 0 then h.kext * 64 else 0)) ++ toLe 1 h.cols ++ zeros 1 ++ (tile.drop (320 + r * n)).take n ++ scales
  | none => []

/-- Bytes of one row as a packet carries it. -/
def rowLen (fmt kaxis : Nat) : Nat :=
  match fmtShape fmt with
  | some (w, kt, _) => 4 + (tileShape fmt kaxis).2 * w / 8 + (if (mxFmt fmt).isNone then 0 else if kaxis = 0 then kt / 32 else (tileShape fmt 1).2)
  | none => 4

/-- Put a carried row into row r of a tile's areas. -/
def putRow (tile : List Byte) (r : Nat) (row : List Byte) : List Byte :=
  let fmt := byteAt row 0
  let kaxis := byteAt row 1 / 128
  match fmtShape fmt with
  | some (w, kt, _) =>
    let n := (tileShape fmt kaxis).2 * w / 8
    let t1 := putAt tile (320 + r * n) ((row.drop 4).take n)
    let sc := row.drop (4 + n)
    if (mxFmt fmt).isNone then t1
    else if kaxis = 0 then putAt t1 (64 + r * (kt / 32)) (sc.take (kt / 32))
    else ((List.range (tileShape fmt 1).2).foldl (fun (t : List Byte) k => putAt t (64 + k * (kt / 32) + r / 32) [sc.getD k 0#8]) t1)
  | none => tile

/-- The rows of a packet's payload, one per tile. -/
def splitRows : Nat → List Byte → List (List Byte)
  | 0, _ => []
  | n + 1, bs => let l := rowLen (byteAt bs 0) (byteAt bs 1 / 128); bs.take l :: splitRows n (bs.drop l)

/-- KEXT of the tile that a carried row came from. -/
def rowKext (row : List Byte) : Nat := byteAt row 1 / 64 % 2

/-- A tile that an engine writes: SLOT 0xFFFF, the present epoch and GEN, and a CRC. -/
def Dev.xptTile (d : Dev) (p c fmt kaxis kext cols rows seq : Nat) (body : List Byte) : List Byte :=
  reHdr body { hdrOf (zeros 64) with
    format := fmt, kaxis := kaxis, kext := kext, rows := rows, cols := cols, slot := 0xFFFF, seq := seq, epoch := (d.att c).epoch % 2 ^ 32,
    gen := d.rf (Reg.MOLT_STAT p) Fld.MOLT_STAT_GEN }

def Dev.descBase (d : Dev) (p n : Nat) : Nat := match (d.activeImg p).bind fun i => d.desc i n with | some sd => sd.base | none => 0
def Dev.descFmt (d : Dev) (p n : Nat) : Nat := match (d.activeImg p).bind fun i => d.desc i n with | some sd => sd.format | none => 0x01

/-- The tile of row group g and index h in the layout that ACT_DESC walks. -/
def Dev.actAddr (d : Dev) (p : Nat) (r : LayerRec) (g h : Nat) : Nat :=
  match (d.activeImg p).bind fun i => (d.desc i r.act).map fun sd => (i, sd) with
  | some (i, sd) =>
    match (walk sd (d.readCounts i.origin sd))[g * r.hTiles + h]? with
    | some v => tileAddr sd v
    | none => sd.base + tileBytes * (g * r.hTiles + h)
  | none => 0

/-! ### The home engine (R271 to R273) -/

def hkey (e : HomeEntry) : Nat := (e.slot * 4096 + e.token) * 8 + e.rank

/-- Entry n of an expert: its rows go into the input area (R272). -/
def Dev.writeInput (d : Dev) (p c : Nat) (r : LayerRec) (x : ExpRec) (n : Nat) (data : List Byte) : Dev :=
  ((splitRows r.hTiles data).zipIdx).foldl (fun (e : Dev) q =>
    let a := e.descBase p x.inDesc + tileBytes * (n / 64 * r.hTiles + q.2)
    let body := if n % 64 = 0 then zeros tileWire else e.bytes a tileWire
    let t := e.xptTile p c (byteAt q.1 0) (byteAt q.1 1 / 128) (rowKext q.1) (byteAt q.1 2 % 64) (n % 64) (n / 64 * r.hTiles + q.2) (putRow body (n % 64) q.1)
    (e.chargeMem p a tileWire).setBytes a (slotBytes t)) d

/-! ### The source engine: resolution of entries (R276, R277) -/

/-- The tile of the return area that holds rank r of row group g of output h. -/
def retTile (l : LayerRec) (r g h : Nat) : Nat := (r * l.gMax + g) * l.outTiles + h

/-- Write an accepted row: a tile that receives its first row of the attempt begins as zeros. -/
def Dev.writeReturn (d : Dev) (p c : Nat) (l : LayerRec) (first : Bool) (rank row : Nat) (data : List Byte) : Dev :=
  ((splitRows l.outTiles data).zipIdx).foldl (fun (e : Dev) q =>
    let n := retTile l rank (row / 64) q.2
    let a := e.descBase p l.ret + tileBytes * n
    let fmt := byteAt q.1 0
    let kaxis := byteAt q.1 1 / 128
    let body := if first then zeros tileWire else e.bytes a tileWire
    (e.chargeMem p a tileWire).setBytes a (slotBytes (e.xptTile p c fmt kaxis (rowKext q.1) (byteAt q.1 2 % 64) (((tileShape fmt kaxis).1 - 1) % 64) n (putRow body (row % 64) q.1)))) d

/-- A return or DROP for an entry of the present attempt: checks 2 and 3 of R276, then the entry is resolved. -/
def Dev.resolve (d : Dev) (p c t slot token rank gen row : Nat) (data : Option (List Byte)) : Dev :=
  let src := (d.xsrc c).find? fun s => s.layer == t
  let hit := fun (q : SentEntry) => q.slot == slot && q.token == token && q.rank == rank && !q.resolved
  let l := d.layerRec p t
  match src with
  | some s =>
    if gen = d.slotGenIn p c slot ∧ s.sent.any hit then
      let d := d.xptBegin p c l.edge
      let first := !(s.sent.any fun q => q.kept && q.rank == rank && q.srcRow / 64 == row / 64)
      let e := match data with | some b => d.writeReturn p c l first rank row b | none => d
      (e.modXsrc c t fun z => { z with sent := z.sent.map fun q => if hit q then { q with resolved := true, kept := data.isSome } else q }).xptProgress c l.edge
    else d.xptFault p c l.edge cConfig 0x0D05 (slot * 2 ^ 32 + gen * 65536 + token)
  | none => d.xptFault p c l.edge cConfig 0x0D05 (slot * 2 ^ 32 + gen * 65536 + token)

/-! ### The merge -/

/-- Take entries in key order while every stream that has not ended holds one. -/
def Dev.merge (p c t : Nat) (l : LayerRec) : Nat → Dev → Dev
  | 0, d => d
  | n + 1, d =>
    match (if d.executing c then d.homeLayer c t else none) with
    | none => d
    | some h =>
      let ms := d.xptMembers c
      let heads := ms.filterMap h.head
      if !(ms.all fun q => h.ended.contains q || (h.head q).isSome) then d
      else
        match heads with
        | [] => d
        | f :: rest =>
          let low := rest.foldl (fun a e => if hkey e < hkey a then e else a) f
          if 1 < (heads.filter fun e => hkey e == hkey low).length then
            d.xptFault p c l.edge cConfig 0x0D04 (low.slot * 2 ^ 32 + low.rank * 65536 + low.token)
          else
            let x := l.experts.getD low.expert ⟨0, 0, 0, 0, 0, 0⟩
            let ne := (h.admitted.filter fun e => e.expert == low.expert).length
            let w := h.waiting.erase low
            if ne < x.cap then
              Dev.merge p c t l n ((d.modXhome c t fun z => { z with waiting := w, admitted := z.admitted ++ [low] }).writeInput p c l x ne low.data)
            else
              let e := d.modXhome c t fun z => { z with waiting := w, drops := z.drops ++ [low] }
              let e1 := if low.pos = d.pos then e.resolve p c t low.slot low.token low.rank low.slotGen low.srcRow none
                else e.xptSend c 0x32 low.pos (keyFields t low.slot low.token low.rank low.expert low.slotGen low.srcRow) []
              Dev.merge p c t l n e1

/-- The home side of a layer, its record read when the first entry or END arrives. -/
def Dev.openHome (d : Dev) (p c t : Nat) : Except Dev LayerRec :=
  match d.homeLayer c t with
  | some _ => .ok (d.layerRec p t)
  | none => d.readLayer p c (d.layerRec p t).edge t

def Dev.atHome (d : Dev) (p c t : Nat) (f : XptHome → XptHome) : Dev :=
  if !d.executing c then d
  else
  match d.openHome p c t with
  | .error e => e
  | .ok l =>
    let d0 := d.xptBegin p c l.edge
    let d1 := if (d0.homeLayer c t).isSome then d0 else d0.setXhome c (d0.xhome c ++ [⟨t, [], [], [], [], false, [], []⟩])
    let d2 := (d1.modXhome c t f).xptProgress c l.edge
    Dev.merge p c t l (match d2.homeLayer c t with | some h => h.waiting.length + 1 | none => 0) d2

/-- An entry reaches its home. -/
def Dev.homeEntry (d : Dev) (p c t : Nat) (e : HomeEntry) : Dev := d.atHome p c t fun h => { h with waiting := h.waiting ++ [e] }
/-- A stream ends at a home. -/
def Dev.homeEnd (d : Dev) (p c t pos : Nat) : Dev := d.atHome p c t fun h => { h with ended := if h.ended.contains pos then h.ended else h.ended ++ [pos] }

/-- XPT_ENTRY. -/
def takeEntry (x : FrPkt) (d : Dev) : Dev :=
  match d.pktCtx x with
  | some (p, c) =>
    let r := d.epochTake p c x.epoch.toNat
    if r.1 ∧ r.2.executing c then
      r.2.homeEntry p c (argN x 34 2)
        ⟨argN x 36 2, argN x 38 2, argN x 40 1, argN x 41 1, argN x 42 2, argN x 44 2, posOf x, x.payload⟩
    else r.2
  | none => d

/-- XPT_END. -/
def takeEnd (x : FrPkt) (d : Dev) : Dev :=
  match d.pktCtx x with
  | some (p, c) =>
    let r := d.epochTake p c x.epoch.toNat
    if r.1 ∧ r.2.executing c then r.2.homeEnd p c (argN x 34 2) (posOf x) else r.2
  | none => d

/-! ### Choice tiles (R268 to R270) -/

/-- Row r of a choice tile (Table 9-3): the row and its LAYER. -/
def choiceRow (tile : List Byte) (r : Nat) : ChoiceRow × Nat :=
  let w := fun (n : Nat) => leAt tile (320 + 4 * (32 * r + n)) 4
  (⟨w 16 % 65536, w 17 % 4096, w 18 % 65536, w 19 % 2 == 1, (List.range 8).map w, (List.range 8).map fun k => BitVec.ofNat 32 (w (8 + k))⟩, w 19 / 65536 % 4096)

def noExpert : Nat := 0xFFFFFFFF
/-- Ranks of a row that name an expert. -/
def ChoiceRow.ranks (q : ChoiceRow) : List (Nat × Nat) := (q.exps.zipIdx.map fun z => (z.2, z.1)).filter fun z => z.2 != noExpert

/-- Checks 2 to 5 of a row: class, cause and detail of the first that fails. -/
def rowCheck (t : Nat) (l : LayerRec) (prev : Option ChoiceRow) (q : ChoiceRow) : Option (Nat × Nat × Nat) :=
  let slot := q.slot
  let n := l.experts.length
  let okEnds := (List.range 8).all fun r =>
    let v := q.exps.getD r noExpert
    (v == noExpert || (v < n && r < l.k)) && (r == 0 || v == noExpert || q.exps.getD (r - 1) noExpert != noExpert)
  let twice := q.ranks.find? fun z => q.ranks.any fun y => y.1 < z.1 && y.2 == z.2
  let asc := match prev with | some o => o.slot < slot || (o.slot == slot && o.token < q.token) | none => true
  if !asc then some (cConfig, 0x0D03, slot * 2 ^ 32 + q.token)
  else if 64 * l.gMax ≤ q.srcRow then some (cBounds, 0x0D06, t * 2 ^ 52 + q.srcRow)
  else if q.skip then none
  else if !okEnds then some (cBounds, 0x0D02, t * 2 ^ 52 + slot * 2 ^ 32 + q.token)
  else twice.map fun z => (cConfig, 0x0D04, slot * 2 ^ 32 + z.1 * 65536 + q.token)

/-- The activation tiles of a source row that the engine has not read before in this attempt. -/
def Dev.newTiles (d : Dev) (p c t : Nat) (l : LayerRec) (row : Nat) : List Nat :=
  let seen := match (d.xsrc c).find? fun s => s.layer == t with | some s => s.checked | none => []
  ((List.range l.hTiles).map fun h => d.actAddr p l (row / 64) h).filter fun a => !seen.contains a

/-- The entry data of a source row: one row of each activation tile, which is checked when it is first read (R270). -/
def Dev.entryData (d : Dev) (p c e t : Nat) (l : LayerRec) (row : Nat) : Except Dev (List Byte) :=
  match (d.newTiles p c t l row).find? fun a => let tile := d.bytes a tileWire; !(tileCrcOk tile && hdrValid (hdrOf tile)) with
  | some a => .error (d.xptFault p c e cTileCheck 0x0D07 (t * 2 ^ 52 + a))
  | none => .ok ((List.range l.hTiles).flatMap fun h => rowOf (d.bytes (d.actAddr p l (row / 64) h) tileWire) (row % 64))

/-- The entries of a row go to the homes of its experts. -/
def Dev.sendEntries (d : Dev) (p c t : Nat) (l : LayerRec) (q : ChoiceRow) (gen : Nat) (data : List Byte) : Dev :=
  (if q.skip then [] else q.ranks).foldl (fun (e : Dev) z =>
    let x := l.experts.getD z.2 ⟨0, 0, 0, 0, 0, 0⟩
    if !e.executing c then e
    else
    let e1 := (e.charge p aT1 data.length).modXsrc c t fun s => { s with sent := s.sent ++ [⟨q.slot, q.token, z.1, z.2, gen, q.srcRow, false, false⟩] }
    if e.homePos c x = e.pos then e1.homeEntry p c t ⟨q.slot, q.token, z.1, z.2, gen, q.srcRow, e.pos, data⟩
    else e1.xptSend c 0x30 (e.homePos c x) (keyFields t q.slot q.token z.1 z.2 gen q.srcRow) data) (d.xptBegin p c l.edge)

/-- One row of a choice tile of a stream whose layer is t (none before its first row). -/
def Dev.takeRow (d : Dev) (p c e : Nat) (tile : List Byte) (st : Option Nat) (r : Nat) : Option Nat × Dev :=
  let (q, t) := choiceRow tile r
  let gen := leAt tile (320 + 4 * (32 * r + 16)) 4 / 65536
  let tiles := match d.expTable p with | some (_, n) => n | none => 0
  let moved : Bool := match st with | some u => u != t | none => false
  if tiles ≤ t ∨ moved then (st, d.xptFault p c e cBounds 0x0D02 (t * 2 ^ 52 + q.slot * 2 ^ 32 + q.token))
  else
    match (match st with | some _ => .ok (d.layerRec p t) | none => d.readLayer p c e t : Except Dev LayerRec) with
    | .error z => (st, z)
    | .ok l =>
      let d1 := if (d.xsrc c).any (fun s => s.layer == t) then d else d.setXsrc c (d.xsrc c ++ [⟨t, [], [], [], false, false⟩])
      let prev := ((d1.xsrc c).find? fun s => s.layer == t).bind fun s => s.rows.getLast?
      match rowCheck t l prev q with
      | some (cls, cause, detail) => (some t, d1.xptFault p c e cls cause detail)
      | none =>
        let d2 := d1.modXsrc c t fun s => { s with rows := s.rows ++ [q] }
        if q.skip || q.ranks.isEmpty then (some t, d2)
        else
          match d2.entryData p c e t l q.srcRow with
          | .error z => (some t, z)
          | .ok data => (some t, (d2.modXsrc c t fun s => { s with checked := s.checked ++ d2.newTiles p c t l q.srcRow }).sendEntries p c t l q gen data)

/-- The end of a choice stream: END to every position that homes an expert of the layer. -/
def Dev.endSource (d : Dev) (p c t : Nat) (l : LayerRec) : Dev :=
  let d1 := if (d.xsrc c).any (fun s => s.layer == t) then d else d.setXsrc c (d.xsrc c ++ [⟨t, [], [], [], false, false⟩])
  let d2 := d1.modXsrc c t fun s => { s with ended := true }
  ((l.experts.map fun x => d.homePos c x).eraseDups).foldl (fun (e : Dev) q =>
    if !e.executing c then e else if q = e.pos then e.homeEnd p c t q else e.xptSend c 0x33 q [(34, 2, t)] []) d2

/-- The layer whose choice stream feeds queue q of engine e: the one in progress, else the lowest not yet ended. -/
def Dev.queueLayer (d : Dev) (p c e q : Nat) : Option Nat :=
  let feeds := fun (t : Nat) => (d.layerRec p t).edge == e && (d.layerRec p t).queue == q
  match (d.xsrc c).find? fun s => !s.ended && feeds s.layer with
  | some s => some s.layer
  | none =>
    let n := match d.expTable p with | some (_, n) => n | none => 0
    (List.range n).find? fun t => feeds t && !((d.xsrc c).any fun s => s.layer == t && s.ended)

/-- CHOICE_TILE at engine e on queue q for the current attempt of partition p. -/
def opChoiceTile (e p q : Nat) (tile : List Byte) (d : Dev) : Dev :=
  match d.curCtx p with
  | none => d
  | some c =>
    let h := hdrOf tile
    if !(d.phase c == phExecute) then d
    else
      let open_ := ((d.xsrc c).find? fun s => !s.ended && (d.layerRec p s.layer).edge == e && (d.layerRec p s.layer).queue == q).map (·.layer)
      if !(tileCrcOk tile && hdrValid h) then d.xptFault p c e cTileCheck 0x0D07 ((open_.getD 0) * 2 ^ 52)
      else
        let r := (if h.empty then [] else List.range (hdrRows h)).foldl (fun (a : Option Nat × Dev) i =>
          if a.2.executing c then a.2.takeRow p c e tile a.1 i else a) (open_, d)
        if h.eos ∧ r.2.executing c then
          match (match r.1 with | some t => some t | none => r.2.queueLayer p c e q) with
          | some t =>
            match (match r.1 with | some _ => .ok (r.2.layerRec p t) | none => r.2.readLayer p c e t : Except Dev LayerRec) with
            | .error z => z
            | .ok l => r.2.endSource p c t l
          | none => r.2
        else r.2

/-! ### Notifications (R273, R277) -/

/-- A SUMMARY to a summary register of a sequencer named by footprint comb, sequencer and register. -/
def Dev.notifySeq (d : Dev) (p target v : Nat) : Dev :=
  match d.activeImg p with
  | some i =>
    let c := seqCell (i.origin + target % 16) (target / 16 % 4)
    d.injectEdge (ioPort c) (((mkPkt 8 (d.cell c).gen.toNat c (ioPort c) 0 (target / 256 % 16 * 2 ^ 32 + v % 2 ^ 32) []).withTc 0 15).withPart p)
  | none => d

/-- Has every stream ended and every entry been taken? -/
def Dev.mergeDone (d : Dev) (c : Nat) (h : XptHome) : Bool := (d.xptMembers c).all h.ended.contains && h.waiting.isEmpty

/-- EXPERT_ADMIT_NOTIFY: the admitted count of each expert that is homed here. -/
def opAdmitNotify (c t : Nat) (d : Dev) : Dev :=
  match d.partOfCtx c, d.homeLayer c t with
  | some p, some h =>
    if d.executing c ∧ d.mergeDone c h ∧ !h.notified then
      let l := d.layerRec p t
      (l.experts.zipIdx).foldl (fun (e : Dev) q =>
        if e.homePos c q.1 = e.pos then e.notifySeq p q.1.notify (h.admitted.filter fun z => z.expert == q.2).length else e)
        (d.modXhome c t fun z => { z with notified := true })
    else d
  | _, _ => d

/-- The words of a combine map row (R277). -/
def mapWords (s : XptSource) (i : Nat) : List Nat :=
  match s.rows.find? fun q => q.srcRow == i with
  | some q =>
    let rs := if q.skip then [] else q.ranks
    let chosen := rs.foldl (fun a z => a + 2 ^ z.1) 0
    let kept := rs.foldl (fun a z => a + (if s.sent.any fun y => y.slot == q.slot && y.token == q.token && y.rank == z.1 && y.kept then 2 ^ z.1 else 0)) 0
    ((List.range 8).map fun r => if rs.any (fun z => z.1 == r) then (q.ws.getD r 0).toNat else 0) ++ [kept + 256 * chosen + 65536 * b2n q.skip]
  | none => []

/-- COMBINE_NOTIFY: tiles of the return area without a row become zero, the combine map is written, and the combine station hears the number of rows. -/
def opCombineNotify (c t : Nat) (d : Dev) : Dev :=
  match d.partOfCtx c, (d.xsrc c).find? fun s => s.layer == t with
  | some p, some s =>
    if d.executing c ∧ s.ended ∧ !s.notified ∧ s.sent.all (·.resolved) then
      let l := d.layerRec p t
      let base := d.descBase p l.ret
      let fmt := d.descFmt p l.ret
      let shape := tileShape fmt 0
      let bare := (List.range l.k).flatMap fun r => (List.range l.gMax).filterMap fun g =>
        if s.sent.any fun y => y.kept && y.rank == r && y.srcRow / 64 == g then none else some (r, g)
      let d1 := bare.foldl (fun (e : Dev) q => (List.range l.outTiles).foldl (fun (f : Dev) h =>
        let n := retTile l q.1 q.2 h
        (f.chargeMem p base tileWire).setBytes (base + tileBytes * n)
          (slotBytes (f.xptTile p c fmt 0 ((shape.2 - 1) / 64) ((shape.2 - 1) % 64) ((shape.1 - 1) % 64) n (zeros tileWire)))) e) d
      let d2 := (List.range (2 * l.gMax)).foldl (fun (e : Dev) m =>
        let n := l.k * l.gMax * l.outTiles + m
        let body := (List.range 32).flatMap fun i => let w := mapWords s (32 * m + i); (List.range 32).flatMap fun k => toLe 4 (w.getD k 0)
        (e.chargeMem p base tileWire).setBytes (base + tileBytes * n) (slotBytes (e.xptTile p c 0x20 0 0 31 31 n (zeros 320 ++ body)))) d1
      (d2.modXsrc c t fun z => { z with notified := true }).notifySeq p l.target s.rows.length
    else d
  | _, _ => d

/-! ### Outputs and returns (R275, R276) -/

/-- A return or DROP at the source, with the epoch rule of R276. -/
def takeReturn (drop : Bool) (x : FrPkt) (d : Dev) : Dev :=
  match d.pktCtx x with
  | some (p, c) =>
    let e := x.epoch.toNat
    let cur := (d.att c).epoch
    if cur < e then d.abortCtx p c ⟨0x42, 0, false, d.pos, 0⟩
    else if e < cur ∨ d.phase c ≠ phExecute then d.bump (Reg.XPT_STALE c) 1
    else
      d.resolve p c (argN x 34 2) (argN x 36 2) (argN x 38 2) (argN x 40 1) (argN x 42 2) (argN x 44 2)
        (if drop then none else some x.payload)
  | none => d

/-- The rows of group g of expert e go back to the sources of its admitted entries. -/
def Dev.returnRows (d : Dev) (p c t : Nat) (l : LayerRec) (h : XptHome) (e g : Nat) : Dev :=
  let tiles := (List.range l.outTiles).map fun k => (((sget (fun _ => []) h.outs e).find? fun q => q.1 == g * l.outTiles + k).map (·.2)).getD []
  (((h.admitted.filter fun z => z.expert == e).drop (64 * g)).take 64).zipIdx.foldl (fun (f : Dev) q =>
    let data := tiles.flatMap fun b => rowOf b q.2
    let z := q.1
    if !f.executing c then f
    else if z.pos = f.pos then f.resolve p c t z.slot z.token z.rank z.slotGen z.srcRow (some data)
    else f.xptSend c 0x31 z.pos (keyFields t z.slot z.token z.rank e z.slotGen z.srcRow) data) d

/-- The expert whose output tiles arrive on queue q of engine e: one whose station has heard its count and whose stream has not ended; else, for a tile that no expert
awaits, the first local expert that the table gives the queue. Layer, record and expert. -/
def Dev.outputOf (d : Dev) (p c e q : Nat) : Option (Nat × LayerRec × Nat) :=
  let awaits := (d.xhome c).findSome? fun m =>
    let l := d.layerRec p m.layer
    if l.edge == e && m.notified then
      (l.experts.zipIdx.find? fun x => x.1.outQueue == q && d.homePos c x.1 == d.pos && !m.outEnded.contains x.2).map fun x => (m.layer, l, x.2)
    else none
  let n := match d.expTable p with | some (_, n) => n | none => 0
  awaits.orElse fun _ => (List.range n).findSome? fun t =>
    let l := d.layerRec p t
    if l.edge == e then (l.experts.zipIdx.find? fun x => x.1.outQueue == q && d.homePos c x.1 == d.pos).map fun x => (t, l, x.2) else none

/-- EXPERT_OUTPUT_TILE at engine e on queue q. A tile before the count was told, or after END_OF_STREAM, is one too many (R275). -/
def opExpertOutput (e p q : Nat) (tile : List Byte) (d : Dev) : Dev :=
  match d.curCtx p with
  | none => d
  | some c =>
    let h := hdrOf tile
    if !(d.phase c == phExecute) then d
    else
      match d.outputOf p c e q with
      | none => d
      | some (t, l, x) =>
        if !(tileCrcOk tile && hdrValid h) then d.xptFault p c e cTileCheck 0x0D07 (t * 2 ^ 52)
        else
          let bad := fun (v : Nat) => d.xptFault p c e cBounds 0x0D06 (t * 2 ^ 52 + x * 2 ^ 46 + v % 2 ^ 32)
          match d.homeLayer c t with
          | none => bad h.seq
          | some m =>
            let ne := (m.admitted.filter fun z => z.expert == x).length
            let want := ceilDiv ne 64 * l.outTiles
            let got := (sget (fun _ => []) m.outs x)
            let fin := fun (f : Dev) => if h.eos then f.modXhome c t fun z => { z with outEnded := x :: z.outEnded } else f
            if !m.notified ∨ m.outEnded.contains x then bad h.seq
            else if h.empty ∧ h.eos then (if got.length = want then fin d else bad got.length)
            else if want ≤ h.seq ∨ got.any (fun z => z.1 == h.seq) then bad h.seq
            else if h.eos ∧ got.length + 1 ≠ want then bad (got.length + 1)
            else
              let m1 := { m with outs := sput (fun _ => []) m.outs x (got ++ [(h.seq, tile)]) }
              let d1 := d.modXhome c t fun _ => m1
              let g := h.seq / (max 1 l.outTiles)
              let whole := (List.range l.outTiles).all fun k => (sget (fun _ => []) m1.outs x).any fun z => z.1 == g * l.outTiles + k
              fin (if whole then d1.returnRows p c t l m1 x g else d1)

/-! ### Waits, commit, counters -/

/-- EXPERT_WAIT_TIMEOUT. -/
def opExpertWait (c e : Nat) (d : Dev) : Dev :=
  match d.partOfCtx c with
  | some p =>
    let w := d.xptAwaited p c e
    if d.phase c = phExecute ∧ !w.isEmpty ∧ sget (fun _ => 0) d.xpt.progress (2 * c + e) + 50 * us ≤ d.ps then
      match w.find? fun q => (d.peer (d.posNode q)).unreachAt.isSome with
      | some q => d.stepFault p (some c) { notice cLinkDown 0x0F11 (d.posNode q) with port := e }
      | none => d.xptFault p c e cRemoteTimeout 0x0D11 (w.foldl (fun a q => a + 2 ^ q) 0)
    else d
  | none => d

/-- What the commit of an attempt adds to the XPT registers, and the engines' state ends. -/
def Dev.xptCommit (d : Dev) (c : Nat) : Dev :=
  let src := d.xsrc c
  let home := d.xhome c
  let sent := (src.map fun s => s.sent.length).foldl (· + ·) 0
  let adm := (home.map fun h => h.admitted.length).foldl (· + ·) 0
  let drop := (home.map fun h => h.drops.length).foldl (· + ·) 0
  let skipped := (src.map fun s => (s.rows.filter fun q => !q.skip && !q.ranks.isEmpty &&
    !(s.sent.any fun y => y.slot == q.slot && y.token == q.token && y.kept)).length).foldl (· + ·) 0
  let last := (home.filter fun h => !h.drops.isEmpty).foldl (fun (a : Option XptHome) h => match a with | some b => if b.layer < h.layer then some h else some b | none => some h) none
  let d1 := (((d.bump (Reg.XPT_SENT c) sent).bump (Reg.XPT_ADMIT c) adm).bump (Reg.XPT_DROP c) drop).bump (Reg.XPT_TOKSKIP c) skipped
  let d2 := match last.bind fun h => (h.drops.foldl (fun (a : Option HomeEntry) e => match a with | some b => if hkey b < hkey e then some e else some b | none => some e) none).map fun e => (h.layer, e) with
    | some (t, e) => d1.wr (Reg.XPT_LAST c) (BitVec.ofNat 64 (t * 2 ^ 52 + e.expert * 2 ^ 46 + e.rank * 2 ^ 43 + e.slot * 65536 + e.token))
    | none => d1
  let d3 := d2.wr (Reg.XPT_WAIT c) (BitVec.ofNat 64 (min (sget (fun _ => 0) d.xpt.longest c / 10000) 0xFFFFFFFF))
  let d4 := (d3.setXsrc c []).setXhome c []
  { d4 with xpt := { d4.xpt with longest := sput (fun _ => 0) d4.xpt.longest c 0 } }

/-- XPT_CLR: every XPT counter is zero. -/
def opXptClr (v : Nat) (d : Dev) : Dev :=
  if v = 0 ∧ d.mainOn then
    let d1 := (List.range 7).foldl (fun (e : Dev) l => (e.wr (Reg.XPT_LINK_TX l) 0).wr (Reg.XPT_LINK_RX l) 0) d
    (List.range 64).foldl (fun (e : Dev) c =>
      [Reg.XPT_SENT c, Reg.XPT_ADMIT c, Reg.XPT_DROP c, Reg.XPT_TOKSKIP c, Reg.XPT_STALE c].foldl (fun (f : Dev) o => f.wr o 0) e) d1
  else d

def execChoiceTile (e : Fin 2) (p : PartIdx) (q : Fin 16) (tile : List Byte) (s : State) : Host.Outcome State Fault Refusal :=
  done s (opChoiceTile e p q tile s.dev)
def execExpertAdmitNotify (c : CtxIdx) (layer : BitVec 12) (s : State) : Host.Outcome State Fault Refusal := done s (opAdmitNotify c layer.toNat s.dev)
def execExpertOutputTile (e : Fin 2) (p : PartIdx) (q : Fin 16) (tile : List Byte) (s : State) : Host.Outcome State Fault Refusal :=
  done s (opExpertOutput e p q tile s.dev)
def execCombineNotify (c : CtxIdx) (layer : BitVec 12) (s : State) : Host.Outcome State Fault Refusal := done s (opCombineNotify c layer.toNat s.dev)
def execExpertWaitTimeout (c : CtxIdx) (e : Fin 2) (s : State) : Host.Outcome State Fault Refusal := done s (opExpertWait c e s.dev)
def execXptClr (v : View) (s : State) : Host.Outcome State Fault Refusal := hostDone s Reg.XPT_CTL (opXptClr v)

end Sys2Proof.Machine
end

