-- ==== Sys2Proof/Machine/FaultLog.lean ====
section
/-!
DEFINITION. The home dies of blocks and records (R16), and the collector of fault records (R522, R523, R525).
-/
namespace Sys2Proof.Machine

/-- Write record number n into its slot, count it, and advance WRITTEN. -/
def Dev.writeRec (d : Dev) (r : FaultRec) : Dev :=
  let n := d.rf Reg.FLT_STAT Fld.FLT_STAT_WRITTEN
  let i := n % 4096
  let w := r.w0.toNat
  let d1 := (((d.wr (Reg.FLT_REC i 0) r.w0).wr (Reg.FLT_REC i 1) r.epoch).wr (Reg.FLT_REC i 2) r.time).wr (Reg.FLT_REC i 3) r.detail
  let d2 := if bit w 61 then d1.bump (Reg.FLT_PART_CNT (w / 2 ^ 28 % 16)) 1 else d1
  (d2.bump (Reg.FLT_CLASS_CNT (w % 256)) 1).addf Reg.FLT_STAT Fld.FLT_STAT_WRITTEN 1

/-! ### The die that raises a record (R12, R16, R523) -/

def dieBd (n : Nat) : Nat := 16 + n
def dieIo0 : Nat := 36
def dieIo1 : Nat := 37
def dieCt : Nat := 38
def dieMg : Nat := 39

/-- The I/O die of a port code: brood links L0 to L3, F0 to F5 and the ring on IO0; L4 to L6, F6 to F11 and the host ports on IO1 (Table 1-3). -/
def portDie (port : Nat) : Nat :=
  if port ≤ 3 ∨ (16 ≤ port ∧ port ≤ 21) ∨ port = 32 ∨ port = 33 then dieIo0 else dieIo1

/-- The home die of a register by its control-space offset (Table 1-4). LNK and XPT are split: registers of one port lie with the port, the ring's on IO0, every other on IO1 (R16, R286). -/
def homeDie (off : Nat) : Nat :=
  if !mainHomed off then dieMg
  else if 0xD00000 ≤ off ∧ off < 0xE00000 then dieCt
  else if 0xE01000 ≤ off ∧ off < 0xE02000 then portDie (off / 256 % 16)
  else if 0xE02000 ≤ off ∧ off < 0xE03000 then portDie (16 + off / 256 % 16)
  else if 0xE03000 ≤ off ∧ off < 0xE04000 then dieIo0
  else if 0xF00100 ≤ off ∧ off < 0xF00170 then portDie ((off - 0xF00100) / 16)
  else dieIo1

def FaultRec.cause (r : FaultRec) : Nat := r.w0.toNat / 256 % 65536
def FaultRec.port (r : FaultRec) : Nat := r.w0.toNat / 2 ^ 53 % 256

/-- The die of a record by its cause: CDn and BDn by the record's comb, an I/O die by its port, a refused write of a locked register by the register's block. -/
def FaultRec.die (r : FaultRec) : Nat :=
  let comb := r.w0.toNat / 2 ^ 32 % 256
  let aborts := r.w0.toNat / 2 ^ 24 % 16 == 1
  let c := r.cause
  match c / 256 with
  | 0x3 | 0x4 => dieBd comb
  | 0x8 => if c / 16 = 0x82 then dieBd comb else comb
  | 0x9 => if c = 0x0915 then comb else if c = 0x0941 then (if aborts then dieBd comb else dieIo1) else dieMg
  | 0xA => if c = 0x0A01 ∧ aborts then dieBd comb else if c = 0x0A02 ∧ r.detail.toNat % 2 ^ 48 < t2Base then dieBd comb else dieCt
  | 0xB | 0xC => dieIo1
  | 0xD => dieIo0 + r.port % 2
  | 0xE => if c = 0x0E21 then homeDie (r.detail.toNat % 2 ^ 28) else if c = 0x0E11 then dieMg else dieIo1
  | 0xF => portDie r.port
  | 0x10 => if r.port = 0 then dieIo1 else portDie r.port
  | n => if n < 0xF then comb else dieMg

/-- The place of a record among those of one cycle: die, cause, cell, port. -/
def FaultRec.rank (r : FaultRec) : Nat :=
  let w := r.w0.toNat
  r.die * 2 ^ 40 + r.cause * 2 ^ 24 + (w / 2 ^ 47 % 64 * 128 + w / 2 ^ 40 % 128) * 2 ^ 8 + r.port

/-- Of the records at the queue's front that were detected in the cycle of the first one, the one that is written first. Records of one tick of SYSTIME are of one cycle (log entry 90). -/
def firstRec (r : FaultRec) (rest : List FaultRec) : FaultRec :=
  (rest.takeWhile fun q => q.time == r.time).foldl (fun a q => if q.rank < a.rank then q else a) r

/-- FAULT_RECORD_WRITE: the oldest waiting record, in the order of R523. -/
def opFaultRecordWrite (d : Dev) : Dev :=
  match d.fltq with
  | r :: rest => { d with fltq := (r :: rest).erase (firstRec r rest) }.writeRec (firstRec r rest)
  | [] => d

def execFaultRecordWrite (s : State) : Host.Outcome State Fault Refusal := done s (opFaultRecordWrite s.dev)

end Sys2Proof.Machine
end

