-- ==== Sys2Proof/Machine/Launch.lean ====
section
/-!
DEFINITION. Launch slots (R415 to R418, R29, R30, R165, R166): arming and its checks, verdicts, the guard check, and what happens at T.
-/
namespace Sys2Proof.Machine

/-! ### Slots -/

def Dev.slotPart (d : Dev) (n : Nat) : Nat := d.slotAct n Fld.TIME_LAUNCH_ACT_PART
def Dev.slotScope (d : Dev) (n : Nat) : Nat := d.slotAct n Fld.TIME_LAUNCH_ACT_SCOPE
def Dev.slotAction (d : Dev) (n : Nat) : Nat := d.slotAct n Fld.TIME_LAUNCH_ACT_ACTION
def Dev.slotCtx (d : Dev) (n : Nat) : Nat := d.slotAct n Fld.TIME_LAUNCH_ACT_CTX
def Dev.slotId (d : Dev) (n : Nat) : Nat := (d.rd (Reg.TIME_LAUNCH_ID n)).toNat
def Dev.slotDig (d : Dev) (n : Nat) : Nat := (d.rd (Reg.TIME_LAUNCH_DIG n)).toNat
def Dev.slotLiveAt (d : Dev) (n : Nat) : Bool := slotLive (d.slotState n)
def Dev.setSlotState (d : Dev) (n st : Nat) : Dev := d.wf (Reg.TIME_LAUNCH_STAT n) Fld.TIME_LAUNCH_STAT_STATE st
/-- T − G in ticks. -/
def Dev.slotGuard (d : Dev) (n : Nat) : Nat := d.slotT n - guardOf (d.slotScope n)
/-- Is the action a timed molt? -/
def timedMoltAct (a : Nat) : Bool := a == laMolt || a == laModel
/-- Handle and instar of a timed molt. -/
def Dev.slotTarget (d : Dev) (n : Nat) : Nat × Nat :=
  if d.slotAction n = laMolt then ((d.launchSt n).handle, d.slotAct n Fld.TIME_LAUNCH_ACT_INSTAR) else (d.slotAct n Fld.TIME_LAUNCH_ACT_HANDLE, 0)

/-! ### Participants (R415) -/

/-- Brood peers on used UP links. -/
def Dev.usedPeers (d : Dev) : List Nat :=
  (List.range 7).filterMap fun l => if portUsed d l ∧ portState d l = 3 then some (d.posNode (d.rf (portStat l) Fld.LNK_BL_STAT_PEER_POS)) else none

/-- The participants of a slot, this device among them. -/
def Dev.launchNodes (d : Dev) (n : Nat) : List Nat :=
  match d.slotScope n with
  | 0 => [d.node]
  | 1 => if d.rf Reg.GLB_LEVEL Fld.GLB_LEVEL_BROOD = 1 then (filterBelow 8 fun q => bit d.members q).map d.posNode else d.node :: d.usedPeers
  | _ => d.collNodes (d.slotPart n) (d.slotAct n Fld.TIME_LAUNCH_ACT_GROUP)

/-- The coordinator: the lead, or rank 0. -/
def Dev.coordinator (d : Dev) (n : Nat) : Option Nat :=
  if d.slotScope n = 1 then d.lnk.lead.map d.posNode else (d.launchSt n).nodes.head?

/-! ### Verdicts (Table 13-7) -/

def verdictBytes (v : Verdict) : List Byte :=
  toLe 8 v.id ++ toLe 1 (b2n v.ready) ++ toLe 1 v.cls ++ toLe 2 v.cause ++ toLe 4 v.origin ++ toLe 8 v.t ++ toLe 8 v.dig ++ zeros 32
def verdictOf (b : List Byte) : Verdict := ⟨leAt b 0 8, byteAt b 8 == 1, byteAt b 9, leAt b 10 2, leAt b 12 4, leAt b 16 8, leAt b 24 8⟩

def Dev.sendVerdict (d : Dev) (node : Nat) (v : Verdict) : Dev := if node = d.node then d else d.send 0x60 node { frEmpty with payload := verdictBytes v }
/-- A REFUSE to every participant but this device. -/
def Dev.tellAll (d : Dev) (nodes : List Nat) (v : Verdict) : Dev := nodes.eraseDups.foldl (fun (e : Dev) q => e.sendVerdict q v) d
def Dev.ownVerdict (d : Dev) (n : Nat) (ready : Bool) (cls cause : Nat) : Verdict := ⟨d.slotId n, ready, cls, cause, d.node, d.slotT n, d.slotDig n⟩

/-! ### Refusals (R29) -/

/-- The shadow load of a refused timed molt is cancelled, and the molt state is IDLE. -/
def Dev.dropTimedMolt (d : Dev) (n : Nat) : Dev :=
  let p := d.slotPart n
  if timedMoltAct (d.slotAction n) then
    let t := d.slotTarget n
    if (d.molt p).held = some n ∨ (d.slotT n ≤ d.sysTime.toNat + guardOf (d.slotScope n) + preloadTicks ∧ d.shadowHolds p t.1 t.2) then
      let d1 := (d.cancelLoad p).setMolt p { (d.cancelLoad p).molt p with held := none }
      if [mLoading, mLoaded, mHeld].contains (d1.moltState p) then d1.setMoltState p mIdle else d1
    else d
  else d

/-- The slot ends REFUSED with the class, cause and origin of the refusal. -/
def Dev.endRefused (d : Dev) (n cls cause origin : Nat) : Dev :=
  ((d.dropTimedMolt n).upd [(Reg.TIME_LAUNCH_STAT n, Fld.TIME_LAUNCH_STAT_STATE, lsRefused), (Reg.TIME_LAUNCH_STAT n, Fld.TIME_LAUNCH_STAT_CLASS, cls),
    (Reg.TIME_LAUNCH_STAT n, Fld.TIME_LAUNCH_STAT_CAUSE, cause), (Reg.TIME_LAUNCH_STAT n, Fld.TIME_LAUNCH_STAT_ORIGIN, origin)]).checkPreempt (d.slotPart n)

/-- A launch is cancelled: a context that it held may ask for a pre-emption. -/
def Dev.endCancelled (d : Dev) (n : Nat) : Dev := ((d.dropTimedMolt n).setSlotState n lsCancelled).checkPreempt (d.slotPart n)

/-- This device refuses the launch of slot n: it records its own cause and tells every participant. -/
def Dev.refuseLaunch (d : Dev) (n cls cause detail : Nat) : Dev :=
  let v := d.ownVerdict n false cls cause
  let d1 := (d.raise { notice cls cause detail with part := some (d.slotPart n) }).endRefused n cls cause d.node
  let d2 := if d.slotScope n = 0 then d1 else d1.tellAll (d.launchNodes n) v
  d2.setLaunchSt n { d2.launchSt n with refused := (d2.launchSt n).refused ++ [v] }

/-- A REFUSE carried from another device: one record with the slot and the origin. -/
def Dev.takeRefuse (d : Dev) (n : Nat) (v : Verdict) : Dev :=
  let d1 := (d.raise { notice v.cls v.cause (n + v.origin % 2 ^ 18 * 2 ^ 32) with part := some (d.slotPart n) }).endRefused n v.cls v.cause v.origin
  d1.setLaunchSt n { d1.launchSt n with refused := (d1.launchSt n).refused ++ [v] }

/-- LAUNCH_REFUSE: a verdict for a launch that a slot holds armed, or one to keep until its T has passed. -/
def takeVerdict (x : FrPkt) (d : Dev) : Dev :=
  let v := verdictOf x.payload
  match (List.range 32).find? fun n => d.slotLiveAt n && d.slotScope n != 0 && d.slotId n == v.id with
  | some n => if v.ready then d.setLaunchSt n { d.launchSt n with ready := v.origin :: (d.launchSt n).ready } else d.takeRefuse n v
  | none => if d.tim.kept.length < 256 ∧ d.sysTime.toNat < v.t then { d with tim := { d.tim with kept := d.tim.kept ++ [v] } } else d

/-- VERDICT_EXPIRY. -/
def opVerdictExpiry (d : Dev) : Dev := { d with tim := { d.tim with kept := d.tim.kept.filter fun v => d.sysTime.toNat < v.t } }

/-! ### Arming (R415, R416) -/

/-- Bits of TIME_LAUNCH_ACT that store. -/
def actMask : Word := 0x0FFFFFFCFFFFFFFF

/-- Is a write through view v to slot n refused because of another partition? `part` is the PART that a write of TIME_LAUNCH_ACT names. -/
def Dev.slotForeign (d : Dev) (v n : Nat) (part : Option Nat) : Bool :=
  v != 0 && ((d.slotLiveAt n && d.slotPart n != v - 1) || (match part with | some p => p != v - 1 | none => false))

def Dev.slotRefused (d : Dev) (v n cause : Nat) : Dev := d.refuse v (notice cHostProto cause n)

/-- The first failing check of R416: class, cause and detail. -/
def Dev.armCheck (d : Dev) (n : Nat) : Option (Nat × Nat × Nat) :=
  let a := d.slotAction n
  let sc := d.slotScope n
  let p := d.slotPart n
  let g := d.slotAct n Fld.TIME_LAUNCH_ACT_GROUP
  let h := 16 * p + (d.slotTarget n).1
  let dig := (d.rd (Reg.MOLT_HDIG h)).toNat
  if a < 1 ∨ 5 < a then some (cConfig, 0x1128, n + a * 256)
  else if sc = 1 ∧ d.rf Reg.GLB_LEVEL Fld.GLB_LEVEL_BROOD = 0 then some (cConfig, 0x1126, n)
  else if (sc = 2 ∧ d.role < 2) ∨ (sc = 3 ∧ d.role ≠ 3) then some (cConfig, 0x1124, n + sc * 256)
  else if 2 ≤ sc ∧ d.unsure then some (cTimeUnsure, 0x1111, min (if sc = 2 then d.colonyU else d.swarmU) 0xFFFFFFFF)
  else if 2 ≤ sc ∧ !d.groupOk 0 1 (d.launchNodes n) then some (cConfig, 0x1127, n + g * 256)
  else if timedMoltAct a ∧ (d.handleState h ≠ 2 ∨ dig ≠ d.slotDig n) then some (cConfig, 0x0911, dig)
  else if d.slotT n < d.sysTime.toNat + 2 * guardOf sc then some (cConfig, 0x1121, n)
  else none

/-- A slot that holds nothing live is armed with its registers. A kept REFUSE of the same launch refuses it at once; kept READYs count. -/
def Dev.arm (d : Dev) (n : Nat) : Dev :=
  let kept := d.tim.kept.filter fun v => v.id == d.slotId n && d.slotScope n != 0
  let c := d.slotCtx n
  let d1 := (d.wr (Reg.TIME_LAUNCH_STAT n) 0).setSlotState n lsArmed
  let d2 := d1.setLaunchSt n { LaunchSt.zero with nodes := d.launchNodes n, handle := d.rf (Reg.SCHED_CTX c) Fld.SCHED_CTX_HANDLE,
                                                  ready := (kept.filter (·.ready)).map (·.origin) }
  let d3 : Dev := { d2 with tim := { d2.tim with kept := d2.tim.kept.filter fun v => !kept.contains v } }
  match kept.find? fun v => !v.ready with
  | some v => d3.takeRefuse n v
  | none =>
    match d3.armCheck n with
    | some (cls, cause, detail) => d3.refuseLaunch n cls cause detail
    | none =>
      let d4 := d3.setSlotState n lsReady
      if d4.slotScope n = 0 then d4
      else match d4.coordinator n with
        | some q =>
          if q = d4.node then d4.setLaunchSt n { d4.launchSt n with ready := q :: (d4.launchSt n).ready }
          else d4.sendVerdict q (d4.ownVerdict n true 0 0)
        | none => d4

/-- LAUNCH_ARM: a write of TIME_LAUNCH_ACT with CMD ARM. -/
def opLaunchArm (v n : Nat) (w : Word) (d : Dev) : Dev :=
  if d.slotForeign v n (some (fget w Fld.TIME_LAUNCH_ACT_PART)) then d.slotRefused v n 0x1131
  else if d.slotLiveAt n then d.slotRefused v n 0x1133
  else (d.wr (Reg.TIME_LAUNCH_ACT n) (w &&& actMask)).arm n

/-- LAUNCH_CANCEL: a write of TIME_LAUNCH_ACT with CMD CANCEL; on a slot that holds no launch it stores its fields (R8). -/
def opLaunchCancel (v n : Nat) (w : Word) (d : Dev) : Dev :=
  let st := d.slotState n
  if d.slotForeign v n (some (fget w Fld.TIME_LAUNCH_ACT_PART)) then d.slotRefused v n 0x1131
  else if !slotLive st then d.wr (Reg.TIME_LAUNCH_ACT n) (w &&& actMask)
  else if d.slotScope n = 0 then (if st = lsArmed ∨ st = lsReady then d.endCancelled n else d)
  else if d.sysTime.toNat < d.slotGuard n then
    let v := d.ownVerdict n false cConfig 0x1125
    let d1 := (d.raise { notice cConfig 0x1125 n with part := some (d.slotPart n) }).endCancelled n
    (d1.tellAll (d.launchSt n).nodes v).setLaunchSt n { d.launchSt n with refused := (d.launchSt n).refused ++ [v] }
  else d.slotRefused v n 0x1132

/-! ### Before T (R165, R166, R416, R418) -/

/-- Combs of p are woken ahead of a launch; while a slice holds the step gap the pre-wake waits for its end (R301). -/
def Dev.preWake (d : Dev) (p : Nat) (ks : List Nat) : Dev :=
  if d.sliceOn p then { d with bist := { d.bist with prewake := d.bist.prewake ++ ks.filter fun k => !d.bist.prewake.contains k } }
  else ks.foldl (fun (e : Dev) k => e.beginWake k) d

/-- LAUNCH_PRELOAD: from T − G − 64 µs on; combs that sleep are woken first. -/
def opLaunchPreload (n : Nat) (d : Dev) : Dev :=
  let p := d.slotPart n
  if d.slotLiveAt n ∧ timedMoltAct (d.slotAction n) ∧ d.slotT n ≤ d.sysTime.toNat + guardOf (d.slotScope n) + preloadTicks then (if d.sliceOn p then d.preWake p (d.partCombs p) else (d.wakeCombs p).launchLoads p) else d

/-- The check of R166 for a timed molt: cause and detail of its failure. -/
def Dev.moltGuard (d : Dev) (n : Nat) : Option (Nat × Nat) :=
  let p := d.slotPart n
  let t := d.slotTarget n
  let busy := d.attemptIn p
  let has : Bool := match d.img? p t.1 with | some i => t.2 < d.instarCount i | none => false
  let shadow := d.rf (Reg.MOLT_STAT p) Fld.MOLT_STAT_SHADOW_VALID == 1 && d.shadowHolds p t.1 t.2 && has
  if d.slotAction n = laMolt ∧ d.rf (Reg.SCHED_CTX (d.slotCtx n)) Fld.SCHED_CTX_HANDLE ≠ t.1 then some (0x0911, (d.rd (Reg.MOLT_HDIG (16 * p + t.1))).toNat)
  else if busy ∨ !shadow then some (0x0914, b2n busy + 2 * b2n !shadow)
  else none

/-- The check of R418 for an action that names a context. -/
def Dev.ctxGuard (d : Dev) (n : Nat) : Bool :=
  let a := d.slotAction n
  (a != laStart && a != laColl) || (d.enabled (d.slotCtx n) && !(d.executing (d.slotCtx n) || d.phase (d.slotCtx n) == phCommit))

/-- Participants from which the coordinator holds no READY. -/
def Dev.missingReady (d : Dev) (n : Nat) : Nat := ((d.launchSt n).nodes.filter fun q => !(d.launchSt n).ready.contains q).length

/-- The guard check of a live slot: class, cause and detail of the refusal. -/
def Dev.guardCheck (d : Dev) (n : Nat) : Option (Nat × Nat × Nat) :=
  let sc := d.slotScope n
  if 2 ≤ sc ∧ d.unsure then some (cTimeUnsure, 0x1111, min (if sc = 2 then d.colonyU else d.swarmU) 0xFFFFFFFF)
  else
    match if timedMoltAct (d.slotAction n) then d.moltGuard n else if d.ctxGuard n then none else some (0x1122, n + d.slotCtx n * 256) with
    | some (cause, detail) => some (cConfig, cause, detail)
    | none =>
      if sc ≠ 0 ∧ d.coordinator n = some d.node ∧ d.missingReady n ≠ 0 then some (cConfig, 0x1123, n + d.missingReady n % 2 ^ 32 * 2 ^ 16) else none

/-- REFUSEs that this device holds for the launch of slot n. -/
def Dev.heldRefuses (d : Dev) (n : Nat) : List Verdict := (d.launchSt n).refused ++ d.tim.kept.filter fun v => v.id == d.slotId n && !v.ready

/-- LAUNCH_GUARD at T − G: the coordinator sends the REFUSEs that it holds again; a live slot makes its check, and a timed molt that passes is HELD. -/
def opLaunchGuard (n : Nat) (d : Dev) : Dev :=
  let st := d.slotState n
  if (d.launchSt n).guarded ∨ st = 0 ∨ st = lsFired ∨ d.sysTime.toNat < d.slotGuard n then d
  else
    let d1 := d.setLaunchSt n { d.launchSt n with guarded := true }
    let again := if d.slotScope n ≠ 0 ∧ d.coordinator n = some d.node then d.heldRefuses n else []
    let d2 := again.foldl (fun (e : Dev) v => e.tellAll (d.launchSt n).nodes v) d1
    if !slotLive st then d2
    else match d.guardCheck n with
      | some (cls, cause, detail) => d2.refuseLaunch n cls cause detail
      | none =>
        if timedMoltAct (d.slotAction n) then
          let p := d.slotPart n
          ((d2.setMolt p { d2.molt p with held := some n }).setMoltState p mHeld).setSlotState n lsHeld
        else d2

/-! ### At T (R417, R418) -/

/-- Has T come: by SYSTIME, or on a brood's scope by SYSTIME less TIME_BROOD_OFS? -/
def Dev.timeCome (d : Dev) (n : Nat) : Bool :=
  if d.slotScope n = 1 then (d.slotT n : Int) * 800 ≤ (d.sysTime.toNat : Int) * 800 - (d.rd Reg.TIME_BROOD_OFS).toInt else d.slotT n ≤ d.sysTime.toNat

/-- SQ.LAUNCH returns SYSTIME on every sequencer that waits for slot n. -/
def Dev.releaseLaunch (d : Dev) (n : Nat) : Dev :=
  let t := d.sysTime
  { d with fab := { d.fab with
    seqs := d.fab.seqs.map fun (q : Nat × SeqSt) =>
      match q.2.wait with
      | .launch rd slot =>
        if slot = n then (q.1, { q.2 with wait := .none, pc := q.2.pc + 4, x := if rd = 0 then q.2.x else sput (fun _ => 0#64) q.2.x rd t }) else q
      | _ => q } }

/-- Slot n fires with action a, once it is guarded and T has come. -/
def Dev.fire (d : Dev) (n a st : Nat) (act : Dev → Dev) : Dev :=
  if d.slotAction n = a ∧ d.slotState n = st ∧ (d.launchSt n).guarded ∧ d.timeCome n then act ((d.setSlotState n lsFired).releaseLaunch n) else d

/-- A HELD molt flips, when the cells have rested since their last generation change. -/
def opLaunchMolt (n : Nat) (d : Dev) : Dev :=
  let p := d.slotPart n
  if (d.molt p).held = some n ∧ d.genRested p then d.fire n laMolt lsHeld fun e => e.flip p else d

def opLaunchModelSwitch (n : Nat) (d : Dev) : Dev :=
  let p := d.slotPart n
  if (d.molt p).held = some n ∧ d.genRested p then
    d.fire n laModel lsHeld fun e => (e.wf (Reg.SCHED_CTX (d.slotCtx n)) Fld.SCHED_CTX_HANDLE (d.slotAct n Fld.TIME_LAUNCH_ACT_HANDLE)).flip p
  else d

/-- The context's attempt is owed: it starts at the first step boundary at which it can, ahead of every PRIO; at once where nothing hinders it. -/
def Dev.oweStart (d : Dev) (n : Nat) : Dev :=
  let p := d.slotPart n
  let c := d.slotCtx n
  let st := d.loopState c
  if st = lpRunning ∨ st = lpStopping then
    let d1 := (d.setLaunchSt n { d.launchSt n with owed := true }).checkPreempt p
    opAttemptStart c (opStepBoundary p d1)
  else d

def opLaunchStep (n : Nat) (d : Dev) : Dev := d.fire n laStart lsReady fun e => e.oweStart n
def opLaunchCollective (n : Nat) (d : Dev) : Dev := d.fire n laColl lsReady fun e => e.oweStart n

/-- The named combs of the partition move toward the target state, within R403. -/
def Dev.movePower (d : Dev) (p combs target : Nat) : Dev :=
  let ks := (d.partCombs p).filter fun k => bit combs k
  if 2 ≤ target then d.preWake p ks else ks.foldl (fun (e : Dev) k => if e.maySleep p then e.beginEntry k target else e) d

def opLaunchPower (n : Nat) (d : Dev) : Dev :=
  d.fire n laPower lsReady fun e => e.movePower (d.slotPart n) (d.slotAct n Fld.TIME_LAUNCH_ACT_COMBS) (d.slotAct n Fld.TIME_LAUNCH_ACT_PSTATE)

/-! ### The commands -/

def execLaunchArm (v : View) (n : SlotIdx) (w : Word) (s : State) : Host.Outcome State Fault Refusal := hostDone s (Reg.TIME_LAUNCH_ACT n) (opLaunchArm v n w)
def execLaunchCancel (v : View) (n : SlotIdx) (w : Word) (s : State) : Host.Outcome State Fault Refusal := hostDone s (Reg.TIME_LAUNCH_ACT n) (opLaunchCancel v n w)
def execVerdictExpiry (s : State) : Host.Outcome State Fault Refusal := done s (opVerdictExpiry s.dev)
def execLaunchPreload (n : SlotIdx) (s : State) : Host.Outcome State Fault Refusal := done s (opLaunchPreload n s.dev)
def execLaunchGuard (n : SlotIdx) (s : State) : Host.Outcome State Fault Refusal := done s (opLaunchGuard n s.dev)
def execLaunchMolt (n : SlotIdx) (s : State) : Host.Outcome State Fault Refusal := done s (opLaunchMolt n s.dev)
def execLaunchStepStart (n : SlotIdx) (s : State) : Host.Outcome State Fault Refusal := done s (opLaunchStep n s.dev)
def execLaunchCollective (n : SlotIdx) (s : State) : Host.Outcome State Fault Refusal := done s (opLaunchCollective n s.dev)
def execLaunchPowerState (n : SlotIdx) (s : State) : Host.Outcome State Fault Refusal := done s (opLaunchPower n s.dev)
def execLaunchModelSwitch (n : SlotIdx) (s : State) : Host.Outcome State Fault Refusal := done s (opLaunchModelSwitch n s.dev)

end Sys2Proof.Machine
end

