-- ==== Sys2Proof/Machine/Receive.lean ====
section
/-!
DEFINITION. The receiving side of delivery (R333 to R335): sequenced packets are checked, put in FSEQ order, acknowledged, and given to the partition that
holds their domain; then the commands that are arrivals of such packets. COMMIT_APPLIED, whose end answers the host reads that waited, is in RegWrite.
-/
namespace Sys2Proof.Machine

/-! ### Delivery -/

/-- What a partition-level packet of a kind does (Table 11-6). -/
def takePkt (kind : Nat) (x : FrPkt) (d : Dev) : Dev :=
  match kind with
  | 0x10 => takeTile x d
  | 0x11 => takeQcredit x d
  | 0x12 => takeWkcReq x d
  | 0x13 => takeWkcResp x d
  | 0x20 => takeServeTile x d
  | 0x21 => takeStart x d
  | 0x22 => takeVote x d
  | 0x23 => takeDecide x d
  | 0x24 => takeAck x d
  | 0x25 => takeAbort x d
  | 0x30 => takeEntry x d
  | 0x31 => takeReturn false x d
  | 0x32 => takeReturn true x d
  | 0x33 => takeEnd x d
  | 0x40 => takeCollData x d
  | 0x41 => takeCollAbort x d
  | 0x50 => takeHandoffTile x d
  | 0x51 => takeHandoffCommit x d
  | 0x52 => takeHandoffAck x d
  | _ => d

/-- Deliver a packet in its turn: LAUNCH_REFUSE is device-level; every other kind goes to the partition that holds its domain, or is discarded and
counted (R334). -/
def deliverPkt (kind : Nat) (x : FrPkt) (d : Dev) : Dev :=
  if kind = 0x60 then takeVerdict x d
  else if (d.partOfDomain x.domain.toNat).isNone then d.bump Reg.LNK_DOM_DROP 1
  else takePkt kind x d

/-- May a packet not be taken yet, so that it is not acknowledged (R348)? -/
def Dev.notTaken (d : Dev) (kind : Nat) (x : FrPkt) : Bool := kind == 0x40 && d.pieceRefused x

/-- Deliver held packets of a flow while the next one is there. -/
def Dev.deliverHeld (node cls : Nat) : Nat → Dev → Dev
  | 0, d => d
  | n + 1, d =>
    let r := d.flowRx node cls
    match r.held.find? fun q => q.2.fseq.toNat == r.next with
    | some q =>
      if d.notTaken q.1 q.2 then d.setFlowRx node cls { r with held := r.held.erase q }
      else Dev.deliverHeld node cls n (deliverPkt q.1 q.2 (d.setFlowRx node cls { r with next := (r.next + 1) % 2 ^ 32, held := r.held.erase q }))
    | none => d

/-- One more packet of a flow to acknowledge: an E2E_ACK goes out after 16 (R335). -/
def Dev.owedAck (d : Dev) (node cls : Nat) : Dev :=
  let r := d.flowRx node cls
  let d1 := d.setFlowRx node cls { r with toAck := r.toAck + 1, since := if r.toAck = 0 then d.ps else r.since }
  if 16 ≤ r.toAck + 1 then d1.sendAck node cls else d1

/-- A new session of a source ends the flows of its old one. -/
def Dev.newSession (d : Dev) (node session : Nat) : Dev :=
  (List.range 3).foldl (fun e cls =>
    if (e.flowRx node cls).session = session then e else e.setFlowRx node cls { FlowRx.zero with session := session }) d

/-- A sequenced packet arrives (R333, R335). One addressed to another node is the relay's (RELAY_FORWARD) and has no effect here. -/
def receive (kind : Nat) (x : FrPkt) (d : Dev) : Dev :=
  if !frOk kind x then d.badPkt
  else if x.dst.toNat ≠ d.node then d
  else
    let node := x.src.toNat
    let cls := x.cls.toNat
    let d1 := d.newSession node x.session.toNat
    let r := d1.flowRx node cls
    let off := (x.fseq.toNat + 2 ^ 32 - r.next) % 2 ^ 32
    if 2 ^ 31 ≤ off ∨ r.held.any (fun q => q.2.fseq == x.fseq) then (d1.bump Reg.LNK_DUP 1).owedAck node cls
    else if 255 < off then d1
    else if off = 0 then
      if d1.notTaken kind x then d1
      else (Dev.deliverHeld node cls 256 (deliverPkt kind x (d1.setFlowRx node cls { r with next := (r.next + 1) % 2 ^ 32 }))).owedAck node cls
    else (d1.setFlowRx node cls { r with held := r.held ++ [(kind, x)] }).owedAck node cls

/-- An expert packet arrives on port l: its bytes count on the link that brought it (R286). -/
def receiveXpt (kind l : Nat) (x : FrPkt) (d : Dev) : Dev :=
  receive kind x (if frOk kind x ∧ x.dst.toNat = d.node then d.xptBytes kind l true x.payload.length else d)

/-! ### The commands -/

def execRemoteTile (x : FrPkt) (s : State) : Host.Outcome State Fault Refusal := done s (receive 0x10 x s.dev)
def execRemoteQcredit (x : FrPkt) (s : State) : Host.Outcome State Fault Refusal := done s (receive 0x11 x s.dev)
def execRemoteWkcReq (x : FrPkt) (s : State) : Host.Outcome State Fault Refusal := done s (receive 0x12 x s.dev)
def execRemoteWkcResp (x : FrPkt) (s : State) : Host.Outcome State Fault Refusal := done s (receive 0x13 x s.dev)
def execServeTile (x : FrPkt) (s : State) : Host.Outcome State Fault Refusal := done s (receive 0x20 x s.dev)
def execStart (x : FrPkt) (s : State) : Host.Outcome State Fault Refusal := done s (receive 0x21 x s.dev)
def execVote (x : FrPkt) (s : State) : Host.Outcome State Fault Refusal := done s (receive 0x22 x s.dev)
def execDecideMsg (x : FrPkt) (s : State) : Host.Outcome State Fault Refusal := done s (receive 0x23 x s.dev)
def execAck (x : FrPkt) (s : State) : Host.Outcome State Fault Refusal := done s (receive 0x24 x s.dev)
def execAbort (x : FrPkt) (s : State) : Host.Outcome State Fault Refusal := done s (receive 0x25 x s.dev)
def execXptEntry (x : LinkPkt) (s : State) : Host.Outcome State Fault Refusal := done s (receiveXpt 0x30 x.port x.pkt s.dev)
def execXptReturn (x : LinkPkt) (s : State) : Host.Outcome State Fault Refusal := done s (receiveXpt 0x31 x.port x.pkt s.dev)
def execXptDrop (x : LinkPkt) (s : State) : Host.Outcome State Fault Refusal := done s (receiveXpt 0x32 x.port x.pkt s.dev)
def execXptEnd (x : LinkPkt) (s : State) : Host.Outcome State Fault Refusal := done s (receiveXpt 0x33 x.port x.pkt s.dev)
def execCollData (x : FrPkt) (s : State) : Host.Outcome State Fault Refusal := done s (receive 0x40 x s.dev)
def execCollAbort (x : FrPkt) (s : State) : Host.Outcome State Fault Refusal := done s (receive 0x41 x s.dev)
def execHandoffTile (x : FrPkt) (s : State) : Host.Outcome State Fault Refusal := done s (receive 0x50 x s.dev)
def execHandoffCommit (x : FrPkt) (s : State) : Host.Outcome State Fault Refusal := done s (receive 0x51 x s.dev)
def execHandoffAck (x : FrPkt) (s : State) : Host.Outcome State Fault Refusal := done s (receive 0x52 x s.dev)
def execLaunchRefuse (x : FrPkt) (s : State) : Host.Outcome State Fault Refusal := done s (receive 0x60 x s.dev)

end Sys2Proof.Machine
end

