-- ==== Sys2Proof/Machine/Sec.lean ====
section
/-!
DEFINITION. The root of trust's commands (R485 to R490): quotes, key slots, MACsec keys and the debug lock. KEY_ADD, KEY_CLEAR and MACSEC_CAK run until the next
tick (log entry 48); the values of their operands come with the write of SEC_CMD[v].
-/
namespace Sys2Proof.Machine

/-! ### The window of a view -/

def soQuote : Nat := 1
def soKeyAdd : Nat := 2
def soKeyClear : Nat := 3
def soMacsec : Nat := 4

/-- The Drimar writes zero into the key buffer of a window when a command ends or is refused (R489). -/
def Dev.wipeKeybuf (d : Dev) (v : Nat) : Dev := (List.range 8).foldl (fun (e : Dev) i => e.wr (Reg.SEC_KEYBUF v i) 0) d

/-- The command of a window ends. -/
def Dev.secDone (d : Dev) (v : Nat) : Dev := (d.wipeKeybuf v).upd [(Reg.SEC_CMD v, Fld.SEC_CMD_OP, 0), (Reg.SEC_CMD v, Fld.SEC_CMD_RESULT, 2)]

/-- The key command that runs in the window of view v. -/
def Dev.secCmd (d : Dev) (v : Nat) : Option SecCmd := sget (fun _ => none) d.sec.cmds v

/-- Does a command of the window run? -/
def Dev.secBusy (d : Dev) (v : Nat) : Bool := (sget (fun _ => none) d.sec.quotes v : Option (List Byte)).isSome || (d.secCmd v).isSome

/-- A refused write: RESULT, the key buffer and a record (R489). -/
def Dev.secRefuse (d : Dev) (v op p : Nat) : Dev :=
  ((d.wipeKeybuf v).wf (Reg.SEC_CMD v) Fld.SEC_CMD_RESULT (if d.secBusy v then 4 else 3)).refuse v (notice cHostProto 0x1421 (v + op * 256 + p * 4096))

/-- The bytes of the key buffer and nonce of a window. -/
def Dev.keybuf (d : Dev) (v : Nat) : List Byte := (List.range 8).flatMap fun i => toLe 8 (d.rd (Reg.SEC_KEYBUF v i)).toNat
def Dev.nonce (d : Dev) (v : Nat) : List Byte := (List.range 8).flatMap fun i => toLe 8 (d.rd (Reg.SEC_NONCE v i)).toNat

/-- An accepted command stores its operands. -/
def Dev.secOperands (d : Dev) (v p j : Nat) : Dev := d.upd [(Reg.SEC_CMD v, Fld.SEC_CMD_P, p), (Reg.SEC_CMD v, Fld.SEC_CMD_KSLOT, j)]

/-! ### Quotes (R485, Table 16-5) -/

/-- QUOTE. Without an identity key it is refused with FLT_SECURITY instead. -/
def opQuote (v : Nat) (d : Dev) : Dev :=
  if d.secBusy v then d.secRefuse v soQuote (v - 1)
  else if d.rf Reg.SEC_STAT Fld.SEC_STAT_ID_VALID = 0 then
    ((d.wipeKeybuf v).wf (Reg.SEC_CMD v) Fld.SEC_CMD_RESULT 3).refuse v (notice cSecurity 0x1412 v)
  else
    { d.upd [(Reg.SEC_CMD v, Fld.SEC_CMD_OP, soQuote), (Reg.SEC_CMD v, Fld.SEC_CMD_RESULT, 1)] with
      sec := { d.sec with quotes := sput (fun _ => none) d.sec.quotes v (some (d.nonce v)) } }

/-- Bytes 0 to 359 of a quote. -/
def Dev.quoteBody (d : Dev) (v : Nat) (nonce : List Byte) : List Byte :=
  let word := fun (o : Nat) => toLe 8 (d.rd o).toNat
  let mr := fun (m : Nat) => (List.range 8).flatMap fun i => word (Reg.SEC_MR m i)
  [0x59#8, 0x47#8, 0x51#8, 0x54#8] ++ toLe 1 1 ++ toLe 1 (if v = 0 then 0xFF else v - 1) ++ toLe 1 (if v = 0 then 0 else d.partState (v - 1)) ++
    toLe 1 (d.rf Reg.PART_GLB Fld.PART_GLB_ISOLATE + 2 * d.rf Reg.SEC_STAT Fld.SEC_STAT_DBG_LOCKED) ++
    word Reg.GLB_ID ++ word Reg.GLB_NODE ++ toLe 8 d.sysTime.toNat ++ word Reg.BOOT_FW ++ nonce ++ mr 0 ++ mr 1 ++ mr 2 ++
    (if v = 0 then zeros 64 else (List.range 8).flatMap fun i => word (Reg.SEC_MRP (v - 1) i))

/-- QUOTE_DONE: the signature, drawn afresh, is a free value. -/
def opQuoteDone (v : Nat) (d : Dev) : Dev :=
  match sget (fun _ => none) d.sec.quotes v with
  | some n =>
    let q := d.quoteBody v n ++ (List.range 132).map (Config.quoteSig d.fresh) ++ zeros 20
    let d1 := (List.range 64).foldl (fun (e : Dev) i => e.wr (Reg.SEC_QUOTE v i) (BitVec.ofNat 64 (leAt q (8 * i) 8))) d
    { d1.drawn.secDone v with sec := { d.sec with quotes := sput (fun _ => none) d.sec.quotes v none } }
  | none => d

/-! ### Keys (R486, R488) -/

/-- The partition that a key command through view v names: a partition's view names its own. -/
def secPart (v p : Nat) : Nat := if v = 0 then p else v - 1

def Dev.setKey (d : Dev) (p j : Nat) (k : List Byte) : Dev :=
  (List.range 8).foldl (fun (e : Dev) i => e.wr (Reg.SEC_KEYDIG p j i) (BitVec.ofNat 64 (leAt k (8 * i) 8))) d

/-- A key command is taken: it holds what the key buffer held, and RESULT reads running (R489). -/
def Dev.secTake (d : Dev) (v op p j : Nat) : Dev :=
  { d.upd [(Reg.SEC_CMD v, Fld.SEC_CMD_OP, op), (Reg.SEC_CMD v, Fld.SEC_CMD_RESULT, 1)] with
    sec := { d.sec with cmds := sput (fun _ => none) d.sec.cmds v (some ⟨op, p, j, d.keybuf v⟩) } }

/-- KEY_ADD: a nonzero digest for a slot of an ACTIVE partition. -/
def opKeyAdd (v p0 j : Nat) (d : Dev) : Dev :=
  let p := secPart v p0
  if d.secBusy v ∨ d.partState p ≠ 2 ∨ d.keybuf v = zeros 64 then d.secRefuse v soKeyAdd p else (d.secOperands v p0 j).secTake v soKeyAdd p j

def opKeyClear (v p0 j : Nat) (d : Dev) : Dev :=
  let p := secPart v p0
  if d.secBusy v ∨ d.partState p ≠ 2 then d.secRefuse v soKeyClear p else (d.secOperands v p0 j).secTake v soKeyClear p j

/-- MACSEC_CAK: 32 bytes of CAK and 16 of CKN for the view's key agreement. -/
def opMacsecCak (v : Nat) (d : Dev) : Dev :=
  if d.secBusy v ∨ (v ≠ 0 ∧ d.partState (v - 1) ≠ 2) then d.secRefuse v soMacsec (v - 1) else d.secTake v soMacsec (v - 1) 0

/-- What a key command does as it ends: KEY_ADD writes its slot and extends MRP[p] with the digest, KEY_CLEAR empties its slot, MACSEC_CAK installs the key; one whose
partition is being torn down by then does nothing more, for its keys are destroyed. -/
def Dev.secApply (d : Dev) (v : Nat) (q : SecCmd) : Dev :=
  if (v ≠ 0 ∨ q.op ≠ soMacsec) ∧ !d.partUsable q.p then d
  else if q.op = soMacsec then { d with sec := { d.sec with cak := sput (fun _ => []) d.sec.cak v (q.key.take 48) } }
  else if q.op = soKeyAdd then (d.setKey q.p q.j q.key).extendMr (Reg.SEC_MRP q.p) q.key
  else d.setKey q.p q.j (zeros 64)

/-- A key command ends (log entry 48). -/
def Dev.endKey (d : Dev) (v : Nat) : Dev :=
  match d.secCmd v with
  | some q => (({ d with sec := { d.sec with cmds := sput (fun _ => none) d.sec.cmds v none } }).secApply v q).secDone v
  | none => d

/-- The key commands that run end. -/
def Dev.secTick (d : Dev) : Dev := (d.sec.cmds.map (·.1)).foldl Dev.endKey d

/-! ### Debug lock (R490) -/

def opDbgLock (v : Nat) (d : Dev) : Dev :=
  if v = 0 then (d.wf Reg.SEC_DBG_LOCK Fld.SEC_DBG_LOCK_LOCK 1).wf Reg.SEC_STAT Fld.SEC_STAT_DBG_LOCKED 1 else d

def execQuote (v : View) (s : State) : Host.Outcome State Fault Refusal := hostDone s (Reg.SEC_CMD v) (opQuote v)
def execQuoteDone (v : View) (s : State) : Host.Outcome State Fault Refusal := done s (opQuoteDone v s.dev)
def execKeyAdd (v : View) (p : PartIdx) (j : Fin 4) (s : State) : Host.Outcome State Fault Refusal := hostDone s (Reg.SEC_CMD v) (opKeyAdd v p j)
def execKeyClear (v : View) (p : PartIdx) (j : Fin 4) (s : State) : Host.Outcome State Fault Refusal := hostDone s (Reg.SEC_CMD v) (opKeyClear v p j)
def execMacsecCak (v : View) (s : State) : Host.Outcome State Fault Refusal := hostDone s (Reg.SEC_CMD v) (opMacsecCak v)
def execDbgLock (v : View) (s : State) : Host.Outcome State Fault Refusal := hostDone s Reg.SEC_DBG_LOCK (opDbgLock v)

end Sys2Proof.Machine
end

