-- ==== Sys2Proof/Machine/HostRead.lean ====
section
/-!
DEFINITION. Host reads of the control space: which register an offset names (R5, R6), what a view may read of it (the view rule of each block), and its value.
-/
namespace Sys2Proof.Machine

/-! ### The register at an offset -/

/-- The indexes that a distance from the base of a register row spells, outermost first; none where it falls between registers. -/
def indexOf : List (Nat × Nat) → Nat → Option (List Nat)
  | [], r => if r = 0 then some [] else none
  | (stride, n) :: ds, r => if r / stride < n then (indexOf ds (r % stride)).map (r / stride :: ·) else none

/-- The register that an offset names: its row and its indexes. -/
def regAt (off : Nat) : Option (RegRow × List Nat) :=
  regRows.findSome? fun r => if r.base ≤ off then (indexOf r.dims (off - r.base)).map fun ix => (r, ix) else none

/-- A block of the control space by the number of its first MiB (Table 18-2); 0x10, 0x20 and 0x80 stand for REQ, FLT and DBG. -/
def blockOf (base : Nat) : Nat :=
  let n := base / 0x100000
  if n < 0x10 then n else if n < 0x20 then 0x10 else if n < 0x80 then 0x20 else 0x80

/-! ### The partition that a register belongs to -/

/-- How a register belongs to a partition: to the device, to a partition, or to something that no partition owns at present. -/
inductive RegOwner where
  | device
  | part (p : Nat)
  | nobody
  deriving DecidableEq, Repr

def ownerPart : Option Nat → RegOwner
  | some p => .part p
  | none => .nobody

/-- The owner of register (row base, first index). -/
def Dev.regOwner (d : Dev) (base i : Nat) : RegOwner :=
  let b := blockOf base
  if b = 1 then (if base = Reg.CLK_COMB_PS 0 then ownerPart (d.ownerOf i) else if base = Reg.CLK_SLEEP 0 then .part i else .device)
  else if b = 2 then (if base < Reg.TIME_LAUNCH_T 0 then .device else if d.slotLiveAt i then .part (d.slotPart i) else .nobody)
  else if b = 3 then
    (if base = Reg.PWR_COMB 0 then ownerPart (d.ownerOf i) else if Reg.PWR_FIXED 0 ≤ base then .part i else .device)
  else if b = 6 then (if base = Reg.SEC_MRP 0 0 ∨ base = Reg.SEC_KEYDIG 0 0 0 then .part i else .device)
  else if b = 7 then (if base = Reg.BIST_GROUP 0 then ownerPart (d.ownerOf (groupComb i)) else .device)
  else if b = 8 then .part (if Reg.MOLT_HSTAT 0 ≤ base then i / 16 else i)
  else if b = 9 then (if base < Reg.STEP_GEOM0 0 then .part i else ownerPart (d.partOfCtx i))
  else if b = 0xA then (if base < Reg.SCHED_CTX 0 then .part i else ownerPart (d.partOfCtx i))
  else if b = 0xB then (if base < Reg.PART_STAT 0 then .device else .part i)
  else if b = 0xD then
    (if base = Reg.MEM_DEMAND 0 then ownerPart (d.ownerOf i)
     else if base < Reg.MEM_FQ_LIMIT 0 then .device
     else if base = Reg.MEM_FQ_LIMIT 0 then ownerPart (d.ownerOf (i / 16))
     else if base < Reg.MEM_MS_STAT 0 then .part i
     else if d.msState i = msFree then .nobody else .part (d.msPart i))
  else if b = 0xE then
    (if base < Reg.LNK_DOMAIN 0 then .device
     else if base < Reg.LNK_STAGE 0 then .part i
     else if base < 0xE01000 then ownerPart (d.partOfCtx i)
     else if base = Reg.LNK_QP 0 0 ∨ 0xE80000 ≤ base then ownerPart (d.partOfQp i)
     else .device)
  else if b = 0xF then (if base < Reg.XPT_SENT 0 then .device else ownerPart (d.partOfCtx i))
  else if b = 0x10 then ownerPart (d.partOfReq i)
  else if b = 0x80 then ownerPart (d.ownerOf (combOf i))
  else .device

/-! ### What a view reads -/

/-- The rule of the blocks whose registers are indexed by partitions (R66, R167, R203, R235, R262, R315): a partition's view reads its own, the operator view all
but those of a sealed partition (log entry 49). -/
def Dev.mayRead (d : Dev) (v : Nat) : RegOwner → Bool
  | .device => true
  | .part p => if v = 0 then !d.sealed p else v == p + 1
  | .nobody => v == 0

/-- The rule of R303, R391, R420 and R442: the operator view reads all, a partition's view its own. -/
def ownOrOperator (v : Nat) : RegOwner → Bool
  | .part p => v == 0 || v == p + 1
  | _ => v == 0

/-- May view v read the register of a row and first index? -/
def Dev.readable (d : Dev) (v base i : Nat) : Bool :=
  let b := blockOf base
  let o := d.regOwner base i
  if b = 1 then ownOrOperator v o
  else if b = 2 then (if v = 0 then d.mayRead 0 o else match o with | .part p => v == p + 1 | _ => true)
  else if b = 3 then
    ownOrOperator v o || base == Reg.PWR_STAT || base == Reg.PWR_TEMP || (base == Reg.PWR_THR_US 0 && 2 ≤ i && i ≤ 5)
  else if b = 4 ∨ b = 5 then v == 0
  else if b = 6 then (if Reg.SEC_CMD 0 ≤ base then v == i else d.mayRead v o)
  else if b = 7 then ownOrOperator v o || base == Reg.BIST_STAT
  else if b = 0xB then ownOrOperator v o || base == Reg.PART_GLB
  else if b = 0xC then (if base = Reg.ACCT_REC 0 0 then d.mayAcct v i else if base = Reg.ACCT_PART 0 0 then d.mayAcct v (4096 + i) else true)
  else if b = 0xE then
    (if base < Reg.LNK_DOMAIN 0 then v == 0
     else if base < 0xE01000 then d.mayRead v o
     else if base = Reg.LNK_VIEW_KEY 0 then v == 0 || v == i
     else ownOrOperator v o)
  else if b = 0xF then (if base < Reg.XPT_SENT 0 then v == 0 else d.mayRead v o)
  else if b = 0x20 then
    (if base = Reg.FLT_PART_CNT 0 then v == 0 || v == i + 1 else if base = Reg.FLT_CLASS_CNT 0 then v == 0 else true)
  else if b = 0x80 then d.rf Reg.SEC_STAT Fld.SEC_STAT_DBG_LOCKED == 0 && d.mayRead v o
  else d.mayRead v o

/-! ### Values that follow other state -/

/-- State codes of Table 2-4. -/
def tcCode : TcState → Nat
  | .unused => 0
  | .ready => 1
  | .running => 2
  | .waitIn => 3
  | .waitOut => 4
  | .done => 5
  | .halted => 6

/-- A word with listed fields set. -/
def fsets (w : Word) (l : List (Fld × Nat)) : Word := l.foldl (fun a q => fset a q.1 q.2) w

/-- DBG_CELL_STAT (Table 2-13). -/
def Dev.cellStat (d : Dev) (c : Nat) : Word :=
  let x := d.cell c
  let k := combOf c
  fsets 0 [(Fld.DBG_CELL_STAT_GEN, x.gen.toNat), (Fld.DBG_CELL_STAT_BANK, b2n x.bank), (Fld.DBG_CELL_STAT_SHADOW_VALID, b2n x.shadowValid),
    (Fld.DBG_CELL_STAT_PSTATE, d.combPs k), (Fld.DBG_CELL_STAT_PART, (d.ownerOf k).getD 0), (Fld.DBG_CELL_STAT_PART_VALID, b2n (d.ownerOf k).isSome),
    (Fld.DBG_CELL_STAT_TC3, tcCode (x.tc 3).st), (Fld.DBG_CELL_STAT_TC2, tcCode (x.tc 2).st), (Fld.DBG_CELL_STAT_TC1, tcCode (x.tc 1).st),
    (Fld.DBG_CELL_STAT_TC0, tcCode (x.tc 0).st)]

/-- SCHED_CSTAT (Table 10-15). -/
def Dev.ctxStat (d : Dev) (c : Nat) : Word :=
  match d.partOfCtx c with
  | some p =>
    let slot := d.slotOfCtx p c
    let res := if !d.enabled c then 0 else if slot.isNone then 1 else if d.curCtx p = some c then 3 else 2
    fsets 0 [(Fld.SCHED_CSTAT_RES, res), (Fld.SCHED_CSTAT_RSLOT, slot.getD 0), (Fld.SCHED_CSTAT_RUNNABLE, b2n (d.runnable p c)),
      (Fld.SCHED_CSTAT_BLOCK, if res < 2 then 0 else (d.blockReason p c).getD 0)]
  | none => 0

/-- Requests of context c that are QUEUED, as the host sees them. -/
def Dev.queuedCount (d : Dev) (c : Nat) : Nat :=
  match d.partOfCtx c with
  | some p => ((d.loopReqs p c).filter fun n => d.rqState n == rsQueued).length
  | none => 0

/-- MEM_MS_STAT (Table 6-14). -/
def Dev.entryStat (d : Dev) (e : Nat) : Word :=
  if !d.t2Here ∨ d.msState e = msFree then 0
  else fsets 0 [(Fld.MEM_MS_STAT_STATE, d.msState e), (Fld.MEM_MS_STAT_PART, d.msPart e), (Fld.MEM_MS_STAT_REGIONS, d.msRegions e), (Fld.MEM_MS_STAT_REFS, d.msRefs e)]

/-- A word of a fault record as a view reads it (R524): PART_VALID is bit 61 and PART is [31:28] of word 0. -/
def Dev.faultWord (d : Dev) (v i w : Nat) : Word :=
  let w0 := d.rd (Reg.FLT_REC i 0)
  let part : Option Nat := if fget w0 ⟨61, 1⟩ = 1 then some (fget w0 ⟨28, 4⟩) else none
  if v ≠ 0 then (if part = some (v - 1) then d.rd (Reg.FLT_REC i w) else 0)
  else if w == 3 && part.any d.sealed then 0
  else d.rd (Reg.FLT_REC i w)

def secondPs : Nat := 1000 * ms

/-- The value of the register of a row with its indexes, as view v reads it. -/
def Dev.regValue (d : Dev) (v off base : Nat) (ix : List Nat) : Word :=
  let i := ix.headD 0
  let j := ix.getD 1 0
  let w := d.rd off
  if base = Reg.DBG_CELL_STAT 0 then d.cellStat i
  else if base = Reg.LNK_RING_STAT then
    (if d.ring.loopBack + 2 * ms < d.ps then fset w Fld.LNK_RING_STAT_LOOP_VALID 0 else w)
  else if base = Reg.PWR_HB then
    (if d.rf Reg.PWR_STAT Fld.PWR_STAT_SUPERVISED = 1 then fset w Fld.PWR_HB_SINCE_MS (min ((d.ps - d.pwr.beatAt) / ms) (2 ^ 32 - 1)) else w)
  else if base = Reg.BOOT_STAT then
    (match d.boot.backoffAt with | some t => fset w Fld.BOOT_STAT_WAIT_S ((t - d.ps + secondPs - 1) / secondPs) | none => w)
  else if base = Reg.BOOT_CMD then fset w Fld.BOOT_CMD_WRITES (d.fwWrites (fget w Fld.BOOT_CMD_SLOT))
  else if base = Reg.SEC_CERT_LEN then (if 3 ≤ d.stage then BitVec.ofNat 64 Config.certLen else 0)
  else if base = Reg.SEC_CERT 0 then
    (if 3 ≤ d.stage then BitVec.ofNat 64 (leNat ((List.range 8).map fun k => if 8 * i + k < Config.certLen then Config.cert (8 * i + k) else 0)) else 0)
  else if base = Reg.TIME_CTL then (if d.noParent then 0 else w)
  else if base = Reg.PSR_WORD 0 then d.psrWord i
  else if base = Reg.PSR_WEAR 0 then fset (BitVec.ofNat 64 (d.psrWear i)) Fld.PSR_WEAR_LOCKED (b2n (d.psrLocked i))
  else if base = Reg.STEP_FREE 0 then fsets 0 [(Fld.STEP_FREE_T2, (d.freeT2 i).length), (Fld.STEP_FREE_T1, d.spare i)]
  else if base = Reg.STEP_STAT 0 then
    fsets w [(Fld.STEP_STAT_ACTIVE, (d.holds i).length), (Fld.STEP_STAT_QUEUED, min (d.queuedCount i) 0xFFFF)]
  else if base = Reg.REQ_ENT 0 0 then d.reqRead v i j
  else if base = Reg.REQ_ENT 0 32 then d.reqRead v i (32 + j)
  else if base = Reg.SCHED_STAT 0 then
    fset w Fld.SCHED_STAT_RESIDENT ((List.range 8).foldl (fun a k => a + if (d.residentAt i k).isSome then 2 ^ k else 0) 0)
  else if base = Reg.SCHED_CSTAT 0 then d.ctxStat i
  else if base = Reg.MEM_MS_STAT 0 then d.entryStat i
  else if base = Reg.FLT_REC 0 0 then d.faultWord v i j
  else w

/-- A host read of one word of the control space: zero where no map lists a register (R6), where the view may not read it, and while its home die is without
power (R17). -/
def csRead (v off : Nat) (d : Dev) : Word :=
  match regAt off with
  | some (r, ix) => if d.hostUp off && d.readable v r.base (ix.headD 0) then d.regValue v off r.base ix else 0
  | none => 0

end Sys2Proof.Machine
end

