-- ==== Sys2Proof/Machine/RegWrite.lean ====
section
/-!
DEFINITION. Host writes of the control space (R5 to R10 and the view rule of each block), incoming RDMA operations (R381 to R385), the data that the Drimar's
own RDMA READs bring, and the end of a commit's application (R247), which answers the host reads that waited for it.
-/
namespace Sys2Proof.Machine

/-! ### Plain stores -/

/-- Store the bits of a row's mask; the other bits keep their value (R7, R8). -/
def Dev.store (d : Dev) (off mask : Nat) (val : Word) : Dev :=
  let m := BitVec.ofNat 64 mask
  d.wr off ((d.rd off &&& ~~~m) ||| (val &&& m))

/-- Store one field. -/
def Dev.storeField (d : Dev) (off : Nat) (f : Fld) (val : Word) : Dev := d.wf off f (fget val f)

/-! ### Registers with a rule of their own -/

/-- PWR_CAP: each field keeps its value when the written one is out of its range (Table 14-7). -/
def Dev.storeCap (d : Dev) (val : Word) : Dev :=
  let d1 := if fget val Fld.PWR_CAP_FTOP ≤ 80 then d.storeField Reg.PWR_CAP Fld.PWR_CAP_FTOP val else d
  if 600 ≤ fget val Fld.PWR_CAP_CAP ∧ fget val Fld.PWR_CAP_CAP ≤ 3200 then d1.storeField Reg.PWR_CAP Fld.PWR_CAP_CAP val else d1

/-- LNK_HP_CFG[e]: DISABLE holds the port DISABLED; clearing it lets the port train again, from DOWN. -/
def Dev.storeHpCfg (d : Dev) (e : Nat) (val : Word) : Dev :=
  let d1 := d.store (Reg.LNK_HP_CFG e) 0x3FF val
  if fget val Fld.LNK_HP_CFG_DISABLE = 1 then d1.wf (Reg.LNK_HP_STAT e) Fld.LNK_HP_STAT_STATE 4
  else if d.hpState e = 4 then d1.wf (Reg.LNK_HP_STAT e) Fld.LNK_HP_STAT_STATE 0
  else d1

/-- Bits of LNK_QP word w that a write stores, STATE of word 0 apart. -/
def qpMask (w : Nat) : Nat :=
  if w = 0 then 0x1FFF0 else if w = 1 ∨ w = 5 then 0xFFFFFFFFFFFF else if w = 2 then 0x7FFFFFFFF else if w = 3 ∨ w = 4 then 2 ^ 64 - 1 else 0

/-- A transition that a write of STATE asks for (R382); any other is refused. -/
def Dev.qpMove (d : Dev) (v q st : Nat) : Dev :=
  if st = 0 then opQpToReset v q d
  else if st = 1 then opQpToInit v q d
  else if st = 2 then opQpToRtr v q d
  else if st = 3 then opQpToRts v q d
  else if st = 4 then opQpToError v q d
  else d.qpRefused v q

/-- A write of word w of QP q (R382). A STATE equal to the present one asks for no transition; the other fields of the same write are stored first, and
a refused write stores nothing (log entry 51). -/
def Dev.storeQp (d : Dev) (v q w : Nat) (val : Word) : Dev :=
  let off := Reg.LNK_QP q w
  let open_ := d.qpState q ≤ 1
  let same := (d.rd off &&& BitVec.ofNat 64 (qpMask w)) == (val &&& BitVec.ofNat 64 (qpMask w))
  if !d.qpInView v q ∨ (!open_ ∧ !same) then d.qpRefused v q
  else
    let st := fget val Fld.LNK_QP0_STATE
    let d1 := if open_ then d.store off (qpMask w) val else d
    if w = 0 ∧ st ≠ d.qpState q then
      if st = 1 ∧ !(d1.qpState q == 0 && d1.roleAdmits v q) then d.qpRefused v q else d1.qpMove v q st
    else d1

/-- SCHED_CTX[c] as a whole (R288). -/
def Dev.storeCtx (d : Dev) (v c : Nat) (val : Word) : Dev :=
  let on := fget val Fld.SCHED_CTX_ENABLE = 1
  let d1 := opCtxSettings v c (fget val Fld.SCHED_CTX_HANDLE) (fget val Fld.SCHED_CTX_BROOD == 1) (fget val Fld.SCHED_CTX_PRIO) d
  if d.enabled c then (if on then d1 else opCtxDisable v c d1) else if on then opCtxEnable v c d1 else d1

/-- STEP_CTL[c]. -/
def Dev.storeStepCtl (d : Dev) (v c : Nat) (val : Word) : Dev :=
  match fget val Fld.STEP_CTL_OP with
  | 1 => opLoopStart v c d
  | 2 => opLoopStop v c d
  | 3 => opLoopResume v c d
  | _ => if d.mayCtx v c then d.wf (Reg.STEP_CTL c) Fld.STEP_CTL_OP 0 else d

/-- DBG_CTL of cell c: TC_HALT, FREEZE and CLR of one write. A sealed partition's write is recorded once. -/
def Dev.storeDbg (d : Dev) (v c : Nat) (val : Word) : Dev :=
  if d.mayDbg v c then
    let d1 := opFreeze v c (fget val Fld.DBG_CTL_FREEZE == 1) (opTcHalt v c (fget val Fld.DBG_CTL_TC_HALT) d)
    if fget val Fld.DBG_CTL_CLR = 1 then opDbgClr v c d1 else d1
  else d.dbgLocked v c

/-- MOLT_CMD[p] (Table 5-13): without a command HANDLE and ORIGIN are stored while none runs. -/
def Dev.storeMoltCmd (d : Dev) (v p : Nat) (val : Word) : Dev :=
  let h := fget val Fld.MOLT_CMD_HANDLE
  match fget val Fld.MOLT_CMD_OP with
  | 0 => if d.mayPart v p ∧ d.rf (Reg.MOLT_CMD p) Fld.MOLT_CMD_OP = 0 then d.store (Reg.MOLT_CMD p) 0xFF00 val else d
  | 1 => opRegisterImage v p h (fget val Fld.MOLT_CMD_ORIGIN) d
  | 2 => opRetire v p h (if d.mayPart v p ∧ d.rf (Reg.MOLT_CMD p) Fld.MOLT_CMD_OP = 0 then d.store (Reg.MOLT_CMD p) 0xFF00 val else d)
  | _ => if d.mayPart v p ∧ d.rf (Reg.MOLT_CMD p) Fld.MOLT_CMD_OP = 0 then d.store (Reg.MOLT_CMD p) 0xFF00 val else d

/-- MEM_MS_CMD[p]: ENTRY and HANDLE are stored with any OP (R8). -/
def Dev.storeMsCmd (d : Dev) (v p : Nat) (val : Word) : Dev :=
  let e := fget val Fld.MEM_MS_CMD_ENTRY
  let d1 := if d.mayPart v p then d.store (Reg.MEM_MS_CMD p) 0x1FF0F00 val else d
  match fget val Fld.MEM_MS_CMD_OP with
  | 1 => opMsCreate v p e d1
  | 2 => opMsSeal v p e (fget val Fld.MEM_MS_CMD_HANDLE) d1
  | 3 => opMsDelete v p e d1
  | _ => d1

/-- STEP_PFX_CMD: any other command is refused (R224); OP 0 is no command. -/
def Dev.storePfxCmd (d : Dev) (v p : Nat) (val : Word) : Dev :=
  match fget val Fld.STEP_PFX_CMD_OP with
  | 0 => d
  | 1 => opDemote v p d
  | 2 => opPfxRelease v p d
  | _ => if d.mayPart v p ∧ !d.pfxBusy p then d.pfxResult p 0 pfRefused else d

/-- PART_CMD: an OP other than CREATE, SEAL and TEARDOWN has no effect, but a write while a command runs sets RESULT to busy (R304). -/
def Dev.storePartCmd (d : Dev) (v : Nat) (val : Word) : Dev :=
  let p := fget val Fld.PART_CMD_P
  match fget val Fld.PART_CMD_OP with
  | 1 => opPartCreate v p d
  | 2 => opPartSeal v p d
  | 3 => opPartTeardown v p d
  | _ => if d.partCmdRuns then d.partCommand v p none id else d

/-- ACCT_CMD: an OP other than RELEASE and ZERO is refused. -/
def Dev.storeAcctCmd (d : Dev) (v : Nat) (val : Word) : Dev :=
  let i := fget val Fld.ACCT_CMD_INDEX
  match fget val Fld.ACCT_CMD_OP with
  | 1 => opAcctRelease v i d
  | 2 => opAcctZero v i d
  | _ => d.acctResult i acctRefused

/-- BOOT_CMD: SLOT is stored with any OP. -/
def Dev.storeBootCmd (d : Dev) (v : Nat) (val : Word) : Dev :=
  if v ≠ 0 then d
  else
    let s := fget val Fld.BOOT_CMD_SLOT
    let d1 := d.wf Reg.BOOT_CMD Fld.BOOT_CMD_SLOT s
    match fget val Fld.BOOT_CMD_OP with
    | 1 => opReset v d1
    | 2 => opRetryNow v d1
    | 3 => opContinue v d1
    | 4 => opFwWrite v s d1
    | 5 => opArbRaise v d1
    | _ => d1

/-- SEC_CMD of the window of view w: only through that view (R493); OP 0 is no command, and OP 5 to 15 are refused (R489). A command that is taken
stores P and KSLOT (R8); a refused write has no other effect. -/
def Dev.storeSecCmd (d : Dev) (v w : Nat) (val : Word) : Dev :=
  let p := fget val Fld.SEC_CMD_P
  let j := fget val Fld.SEC_CMD_KSLOT
  let op := fget val Fld.SEC_CMD_OP
  if v ≠ w ∨ op = 0 then d
  else if op = 1 then (if d.secBusy v ∨ d.rf Reg.SEC_STAT Fld.SEC_STAT_ID_VALID = 0 then opQuote v d else (opQuote v d).secOperands v p j)
  else if op = 2 then opKeyAdd v p j d
  else if op = 3 then opKeyClear v p j d
  else if op = 4 then (if d.secBusy v ∨ (v ≠ 0 ∧ d.partState (v - 1) ≠ 2) then opMacsecCak v d else (opMacsecCak v d).secOperands v p j)
  else d.secRefuse v op (secPart v p)

/-- A register of launch slot n: T, ID, DIG, or ACT with CMD (R415). -/
def Dev.storeSlot (d : Dev) (v off base n : Nat) (val : Word) : Dev :=
  if base = Reg.TIME_LAUNCH_ACT 0 then
    if fget val Fld.TIME_LAUNCH_ACT_CMD = 1 then opLaunchArm v n val d
    else if fget val Fld.TIME_LAUNCH_ACT_CMD = 2 then opLaunchCancel v n val d
    else if d.slotForeign v n (some (fget val Fld.TIME_LAUNCH_ACT_PART)) then d.slotRefused v n 0x1131
    else if d.slotLiveAt n then d.slotRefused v n 0x1133
    else d.wr off (val &&& actMask)
  else if d.slotForeign v n none then d.slotRefused v n 0x1131
  else if d.slotLiveAt n then d.slotRefused v n 0x1133
  else d.wr off val

/-- LNK_RING_CTL: INSERT and the two RETRAIN bits. -/
def Dev.storeRingCtl (d : Dev) (v : Nat) (val : Word) : Dev :=
  let d1 := if fget val Fld.LNK_RING_CTL_INSERT = 1 then opRingInsert v d else opRingRemove v d
  let d2 := if fget val Fld.LNK_RING_CTL_RETRAIN_A = 1 then opRingRetrain v 0 d1 else d1
  if fget val Fld.LNK_RING_CTL_RETRAIN_B = 1 then opRingRetrain v 1 d2 else d2

/-- LNK_BL_CTL and LNK_FP_CTL of port l. -/
def Dev.storePortCtl (d : Dev) (v l : Nat) (val : Word) : Dev :=
  let d1 := opPortDisable v l (fget val Fld.LNK_BL_CTL_DISABLE == 1) d
  if fget val Fld.LNK_BL_CTL_RETRAIN = 1 then opPortRetrain v l d1 else d1

/-- LNK_RB_CFG[k]: the fields are stored, and OP reads 0 once its command is taken. -/
def Dev.storeBcast (d : Dev) (v k : Nat) (val : Word) : Dev :=
  if v ≠ 0 then d
  else
    let d1 := d.store (Reg.LNK_RB_CFG k) 0xFFFFFFF000000003 val
    match fget val Fld.LNK_RB_CFG_OP with
    | 1 => opBcStart v k (d1.wf (Reg.LNK_RB_CFG k) Fld.LNK_RB_CFG_OP 0)
    | 2 => opBcClose v k (d1.wf (Reg.LNK_RB_CFG k) Fld.LNK_RB_CFG_OP 0)
    | _ => d1

/-- PSR_GRP_CMD. -/
def Dev.storeGroup (d : Dev) (v : Nat) (val : Word) : Dev :=
  let n := fget val Fld.PSR_GRP_CMD_COUNT
  if fget val Fld.PSR_GRP_CMD_GO = 1 then opPsrGroup v n d
  else if v = 0 then d.wf Reg.PSR_GRP_CMD Fld.PSR_GRP_CMD_COUNT n else d

/-! ### The write -/

/-- The view rule for a write: blocks of partitions take one through the partition's own view and, while it is not sealed, the operator view; others are
as their chapters say. `only` says that the operator view alone writes the register. -/
def Dev.writable (d : Dev) (v base i : Nat) : Bool :=
  let b := blockOf base
  let o := d.regOwner base i
  if b = 1 then v == 0 || (base == Reg.CLK_SLEEP 0 && v == i + 1)
  else if b = 2 then v == 0
  else if b = 3 ∨ b = 4 ∨ b = 5 ∨ b = 7 then v == 0
  else if b = 6 then (if Reg.SEC_CMD 0 ≤ base then v == i else v == 0)
  else if b = 0xB then v == 0 && (base < Reg.PART_STAT 0 || d.partState i == psFree)
  else if b = 0xE then
    v == 0 && (if base = Reg.LNK_VIEW_KEY 0 then i == 0 || d.partState (i - 1) == psFree
      else if Reg.LNK_VIEW_IP 0 ≤ base ∧ base < 0xE80000 then i % 17 == 0 || d.partState (i % 17 - 1) == psFree
      else true)
  else d.mayRead v o

/-- Every register whose write is more than a store, by the base of its row; the others store the bits of their row's mask. -/
def Dev.regWrite (d : Dev) (v off : Nat) (r : RegRow) (ix : List Nat) (val : Word) : Dev :=
  let i := ix.headD 0
  let j := ix.getD 1 0
  let b := r.base
  if b = Reg.DBG_CTL 0 then d.storeDbg v i val
  else if b = Reg.MOLT_CMD 0 then d.storeMoltCmd v i val
  else if b = Reg.MEM_FQ_LIMIT 0 then opFqLimit v (i / 16) (i % 16) val.toNat d
  else if b = Reg.MEM_LD_BASE 0 then opLdBase v i val d
  else if b = Reg.MEM_LD_TAIL 0 then opLdTail v i val.toNat d
  else if b = Reg.MEM_MS_CMD 0 then d.storeMsCmd v i val
  else if b = Reg.STEP_DB 0 then opDoorbell v i (fget val Fld.STEP_DB_OP) (fget val Fld.STEP_DB_ENTRY) d
  else if b = Reg.STEP_PFX_CMD 0 then d.storePfxCmd v i val
  else if b = Reg.STEP_CTL 0 then d.storeStepCtl v i val
  else if b = Reg.REQ_ENT 0 0 then opReqDesc v i j val d
  else if b = Reg.XPT_CTL then (if fget val Fld.XPT_CTL_CLR = 1 then opXptClr v d else d)
  else if b = Reg.SCHED_CTX 0 then d.storeCtx v i val
  else if b = Reg.PART_CMD then d.storePartCmd v val
  else if b = Reg.PART_GLB then opPartIsolate v (fget val Fld.PART_GLB_ISOLATE == 1) d
  else if b = Reg.PART_SHARE 0 then opPartShare v i val d
  else if b = Reg.PART_CAP 0 then opPartCap v i val d
  else if b = Reg.ACCT_CMD then d.storeAcctCmd v val
  else if b = Reg.LNK_DOMAIN 0 then opLnkDomain v i val d
  else if b = Reg.LNK_BL_CTL 0 then d.storePortCtl v i val
  else if b = Reg.LNK_FP_CTL 0 then d.storePortCtl v (7 + i) val
  else if b = Reg.LNK_RING_CTL then d.storeRingCtl v val
  else if b = Reg.LNK_RB_CFG 0 then d.storeBcast v i val
  else if 0xE80000 ≤ b ∧ b < 0xF00000 then (if qpMask ((b - 0xE80000) / 8) = 0 then d else d.storeQp v i ((b - 0xE80000) / 8) val)
  else if b = Reg.CLK_FC_CMD then opFcMeasure val d
  else if b = Reg.CLK_DRST then (filterBelow 36 (bit val.toNat)).foldl (fun (e : Dev) k => opDomainReset v k e) d
  else if b = Reg.TIME_CTL then (if fget val Fld.TIME_CTL_RESYNC = 1 then opResync v d else d)
  else if Reg.TIME_LAUNCH_T 0 ≤ b ∧ b ≤ Reg.TIME_LAUNCH_DIG 0 then d.storeSlot v off b i val
  else if b = Reg.PWR_HB then (if fget val Fld.PWR_HB_BEAT = 1 then opHbBeat v d else d)
  else if b = Reg.PWR_FIXED 0 then opFixedModeWrite v i val d
  else if b = Reg.BOOT_CMD then d.storeBootCmd v val
  else if b = Reg.PSR_WORD 0 then opPsrWrite v i val d
  else if b = Reg.PSR_GRP_CMD then d.storeGroup v val
  else if b = Reg.SEC_CMD 0 then d.storeSecCmd v i val
  else if b = Reg.SEC_DBG_LOCK then (if fget val Fld.SEC_DBG_LOCK_LOCK = 1 then opDbgLock v d else d)
  else if !d.writable v b i then d
  else if b = Reg.PWR_CAP then d.storeCap val
  else if b = Reg.LNK_HP_CFG 0 then d.storeHpCfg i val
  else if b = Reg.SCHED_PMAX 0 then
    (if 10 ≤ fget val Fld.SCHED_PMAX_PREEMPT_MAX ∧ fget val Fld.SCHED_PMAX_PREEMPT_MAX ≤ 100000 then d.store off r.mask val else d)
  else if b = Reg.STEP_DEADLINE_MARGIN 0 then (if val.toNat % 1024 ≤ 1000 then d.store off r.mask val else d)
  else d.store off r.mask val

/-- A host write of one word of the control space: nothing where no map lists a register (R6), the register is read-only (R8) or its home die is without power
(R17); a register locked by the sealing of its partition keeps its value, and the write is recorded (R10). -/
def csWrite (v off : Nat) (val : Word) (d : Dev) : Dev :=
  match regAt off with
  | some (r, ix) =>
    if !d.hostUp off ∨ r.access = .ro then d
    else
      match (if r.access = .rwl then d.regOwner r.base (ix.headD 0) else .device) with
      | .part p => if d.sealed p then d.lockRec v p off else d.regWrite v off r ix val
      | _ => d.regWrite v off r ix val
  | none => d

/-! ### Incoming RDMA operations (R381 to R385) -/

/-- What an access of n bytes at a virtual address with a key reaches through view v. -/
inductive Region where
  | cs
  | t1
  | none
  deriving DecidableEq, Repr

def csKey : Fld := ⟨0, 32⟩
def t1Key : Fld := ⟨32, 32⟩

def Dev.rdmaRegion (d : Dev) (v va rkey n : Nat) : Region :=
  let key := d.rd (Reg.LNK_VIEW_KEY v)
  if rkey = fget key csKey ∧ csBase ≤ va ∧ va + n ≤ csBase + 2 ^ 28 then .cs
  else if rkey = fget key t1Key ∧ d.viewT1 v va n then .t1
  else .none

/-- The NAK and the record of a refused access (R383, Table 12-7). -/
def Dev.refuseAccess (d : Dev) (v q va : Nat) : Dev :=
  (d.refuse v (notice cHostProto 0x1011 (q + va % 2 ^ 32 * 2 ^ 16))).answer q 1 (.rdmaNak q .access)

/-- A QP answers requests in RTR and RTS. -/
def Dev.qpAnswers (d : Dev) (q : Nat) : Bool := d.qpState q == 2 || d.qpState q == 3

/-- REGISTER_WRITE: one word on an 8-byte boundary. Any other address is refused: a record and the NAK for a remote access error (R5). The command names no QP, so the QP that carried the
write, which gets the NAK and stands in the record's detail, is a free value (log entry 53). -/
def opRegisterWrite (v off : Nat) (val : Word) (d : Dev) : Dev :=
  if off % 8 = 0 then csWrite v off val d
  else
    let q := d.draw.toNat % 4096
    if d.viewOfQp q = v ∧ d.qpAnswers q then (d.refuseAccess v q (csBase + off)).drawn
    else (d.refuse v (notice cHostProto 0x1011 (q + (csBase + off) % 2 ^ 32 * 2 ^ 16))).drawn

/-- Host bytes at a T1 address: those inside a registered image area are not written, and the write is recorded (R147, log entry 52). -/
def Dev.hostBytes (d : Dev) (v a : Nat) (data : List Byte) : Dev :=
  if d.imageHit a data.length then
    let hit := (List.range data.length).find? fun i => d.imageHit (a + i) 1
    let d1 := data.zipIdx.foldl (fun (e : Dev) x => if d.imageHit (a + x.2) 1 then e else e.setByte (a + x.2) x.1) d
    d1.refuse v (notice cRo 0x0941 (a + hit.getD 0))
  else d.setBytes a data

def Dev.chargeView (d : Dev) (v a n : Nat) : Dev := match viewPart v with | some p => d.chargeMem p a n | none => d

/-- The words of a write of the control space, in ascending address order. -/
def csWords (v off : Nat) : List Byte → Dev → Dev
  | b0 :: b1 :: b2 :: b3 :: b4 :: b5 :: b6 :: b7 :: rest, d =>
    csWords v (off + 8) rest (csWrite v off (BitVec.ofNat 64 (leNat [b0, b1, b2, b3, b4, b5, b6, b7])) d)
  | _, d => d

/-- The longest message (Table 12-6). -/
def maxMessage : Nat := 2 ^ 31

/-- RDMA_WRITE. A message longer than the subset of R381 allows is answered as an invalid request. -/
def opRdmaWrite (q va rkey : Nat) (data : List Byte) (d : Dev) : Dev :=
  let v := d.viewOfQp q
  let n := data.length
  if !d.qpAnswers q then d
  else if maxMessage < n then d.answer q 1 (.rdmaNak q .invalid)
  else if n = 0 then d.answer q 1 (.rdmaReply q [])
  else
    match d.rdmaRegion v va rkey n with
    | .cs =>
      if va % 8 = 0 ∧ n % 8 = 0 then (csWords v (va - csBase) data (d.chargeHost q n)).answer q 1 (.rdmaReply q []) else d.refuseAccess v q va
    | .t1 => (((d.chargeHost q n).chargeView v va n).hostBytes v va data).answer q 1 (.rdmaReply q [])
    | .none => d.refuseAccess v q va

/-- The bytes that a read of the control space returns. -/
def csBytes (v off : Nat) (d : Dev) : Nat → List Byte
  | 0 => []
  | n + 1 => toLe 8 (csRead v off d).toNat ++ csBytes v (off + 8) d n

/-- Is a commit being applied whose changes view v could see (R247)? -/
def Dev.applyingFor (d : Dev) (v : Nat) : Bool :=
  match viewPart v with
  | some p => d.committing p
  | none => (List.range 16).any d.committing

/-- RDMA_READ: refused, answered at once, or held while a commit is being applied; one beyond the 16 that a responder holds is an invalid request (R381). -/
def opRdmaRead (q va rkey len : Nat) (d : Dev) : Dev :=
  let v := d.viewOfQp q
  let hold := fun (e : Dev) => if 16 ≤ (e.srv.held.filter fun h => h.qp == q).length then e.answer q 1 (.rdmaNak q .invalid)
    else ({ e with srv := { e.srv with held := e.srv.held ++ [⟨q, va, rkey, len⟩] } } : Dev)
  if !d.qpAnswers q then d
  else if maxMessage < len then d.answer q 1 (.rdmaNak q .invalid)
  else if len = 0 then d.answer q 1 (.rdmaReply q [])
  else
    match d.rdmaRegion v va rkey len with
    | .cs =>
      if va % 8 = 0 ∧ len % 8 = 0 ∧ len ≤ 4096 then
        if d.applyingFor v then hold d
        else (d.chargeHost q len).answer q 1 (.rdmaReply q (csBytes v (va - csBase) d (len / 8)))
      else d.refuseAccess v q va
    | .t1 =>
      if d.applyingFor v then hold d
      else ((d.chargeHost q len).chargeView v va len).answer q (qpPackets len) (.rdmaReply q (d.bytes va len))
    | .none => d.refuseAccess v q va

/-- The held reads, oldest first, once no commit holds them. -/
def Dev.answerHeld (d : Dev) : Dev :=
  d.srv.held.foldl (fun (e : Dev) h => opRdmaRead h.qp h.va h.rkey h.len e) { d with srv := { d.srv with held := [] } }

/-! ### Data of the Drimar's own READs (R381) -/

/-- Four-byte numbers from bytes. -/
def le32s : List Byte → List Nat
  | b0 :: b1 :: b2 :: b3 :: rest => leNat [b0, b1, b2, b3] :: le32s rest
  | _ => []

/-- Use what a READ was for: a HEAD word, prompt tokens or loader bytes. -/
def Dev.useRead (d : Dev) (u : ReadUse) (data : List Byte) : Dev :=
  match u with
  | .none => d
  | .ringHead n => d.takeHead n (leNat data)
  | .eventHead p => { d with srv := { d.srv with evtHead := sput (fun _ => 0) d.srv.evtHead p (leNat data) } }.flushEvents p
  | .prompt n => { d with srv := { d.srv with prompts := sput (fun _ => []) d.srv.prompts n (le32s data) } }
  | .loader p i off => d.loaderBytes p i off data

/-- RDMA_READ_RESPONSE: the data of the oldest READ on its way, all of it. -/
def opRdmaReadResponse (q : Nat) (data : List Byte) (d : Dev) : Dev :=
  let x := d.qp q
  match x.reqs.find? fun r => r.op == 1 && r.sent with
  | some r =>
    if d.qpRts q ∧ data.length = r.len then
      let d1 := (d.chargeHost q data.length).setQp q { x with reqs := x.reqs.erase r }
      (Dev.openReads q 16 d1).useRead r.use data
    else d
  | none => d

/-! ### The end of a commit's application (R247) -/

/-- COMMIT_APPLIED: the expert counters take the attempt's counts, the commit ends, and held reads are answered. -/
def opCommitEnd (c : Nat) (d : Dev) : Dev :=
  if d.phase c = phCommit ∧ (d.att c).applying then (opCommitApplied c (d.xptCommit c)).answerHeld else d

/-! ### The commands -/

def execRegisterWrite (v : View) (off : BitVec 28) (val : Word) (s : State) : Host.Outcome State Fault Refusal := done s (opRegisterWrite v off.toNat val s.dev)
def execRdmaWrite (q : QpIdx) (va : Word) (rkey : BitVec 32) (data : List Byte) (s : State) : Host.Outcome State Fault Refusal :=
  done s (opRdmaWrite q va.toNat rkey.toNat data s.dev)
def execRdmaRead (q : QpIdx) (va : Word) (rkey : BitVec 32) (len : BitVec 32) (s : State) : Host.Outcome State Fault Refusal :=
  done s (opRdmaRead q va.toNat rkey.toNat len.toNat s.dev)
def execRdmaReadResponse (q : QpIdx) (data : List Byte) (s : State) : Host.Outcome State Fault Refusal := done s (opRdmaReadResponse q data s.dev)
def execCommitApplied (c : CtxIdx) (s : State) : Host.Outcome State Fault Refusal := done s (opCommitEnd c s.dev)

end Sys2Proof.Machine
end

