-- ==== Sys2Proof/Machine/Rv.lean ====
section
/-!
DEFINITION. The RV64IMC core of a sequencer (R149): expansion of compressed instructions, and one instruction on registers and data memory. The base
encodings and their results are those of the RISC-V unprivileged specification, which R143 and R149 name.
-/
namespace Sys2Proof.Machine

/-! ### Fields -/

/-- Bits [lo+n-1:lo] of an instruction word. -/
def fld (w lo n : Nat) : Nat := w / 2 ^ lo % 2 ^ n

/-- Sign-extend an n-bit number to 64 bits. -/
def sx (n v : Nat) : Word := (BitVec.ofNat n v).signExtend 64

def immI (w : Nat) : Word := sx 12 (fld w 20 12)
def immS (w : Nat) : Word := sx 12 (fld w 25 7 * 32 + fld w 7 5)
def immB (w : Nat) : Word := sx 13 (fld w 31 1 * 4096 + fld w 7 1 * 2048 + fld w 25 6 * 32 + fld w 8 4 * 2)
def immU (w : Nat) : Word := sx 32 (fld w 12 20 * 4096)
def immJ (w : Nat) : Word := sx 21 (fld w 31 1 * 1048576 + fld w 12 8 * 4096 + fld w 20 1 * 2048 + fld w 21 10 * 2)

/-! ### Encodings for the expansion of compressed instructions -/

def encR (f7 rs2 rs1 f3 rd op : Nat) : Nat := f7 * 2 ^ 25 + rs2 * 2 ^ 20 + rs1 * 2 ^ 15 + f3 * 2 ^ 12 + rd * 2 ^ 7 + op
def encI (imm rs1 f3 rd op : Nat) : Nat := imm % 4096 * 2 ^ 20 + rs1 * 2 ^ 15 + f3 * 2 ^ 12 + rd * 2 ^ 7 + op
def encS (imm rs2 rs1 f3 op : Nat) : Nat := imm / 32 % 128 * 2 ^ 25 + rs2 * 2 ^ 20 + rs1 * 2 ^ 15 + f3 * 2 ^ 12 + imm % 32 * 2 ^ 7 + op
def encB (imm rs2 rs1 f3 : Nat) : Nat :=
  fld imm 12 1 * 2 ^ 31 + fld imm 5 6 * 2 ^ 25 + rs2 * 2 ^ 20 + rs1 * 2 ^ 15 + f3 * 2 ^ 12 + fld imm 1 4 * 2 ^ 8 + fld imm 11 1 * 2 ^ 7 + 0x63
def encJ (imm rd : Nat) : Nat :=
  fld imm 20 1 * 2 ^ 31 + fld imm 1 10 * 2 ^ 21 + fld imm 11 1 * 2 ^ 20 + fld imm 12 8 * 2 ^ 12 + rd * 2 ^ 7 + 0x6F

/-- A sign-extended n-bit number in m bits. -/
def sxn (n m v : Nat) : Nat := ((BitVec.ofNat n v).signExtend m).toNat

/-- The 32-bit instruction that a compressed one of RV64C stands for; none for a reserved or illegal one. -/
def expandC (h : Nat) : Option Nat :=
  let q := h % 4
  let f3 := fld h 13 3
  let rd := fld h 7 5
  let rs2 := fld h 2 5
  let rdp := 8 + fld h 2 3
  let rs1p := 8 + fld h 7 3
  let imm6 := fld h 12 1 * 32 + fld h 2 5
  let simm := sxn 6 12 imm6
  if q = 0 then
    if f3 = 0 then
      let n := fld h 7 4 * 64 + fld h 11 2 * 16 + fld h 5 1 * 8 + fld h 6 1 * 4
      if n = 0 then none else some (encI n 2 0 rdp 0x13)
    else if f3 = 2 then some (encI (fld h 5 1 * 64 + fld h 10 3 * 8 + fld h 6 1 * 4) rs1p 2 rdp 0x03)
    else if f3 = 3 then some (encI (fld h 5 2 * 64 + fld h 10 3 * 8) rs1p 3 rdp 0x03)
    else if f3 = 6 then some (encS (fld h 5 1 * 64 + fld h 10 3 * 8 + fld h 6 1 * 4) rdp rs1p 2 0x23)
    else if f3 = 7 then some (encS (fld h 5 2 * 64 + fld h 10 3 * 8) rdp rs1p 3 0x23)
    else none
  else if q = 1 then
    if f3 = 0 then some (encI simm rd 0 rd 0x13)
    else if f3 = 1 then (if rd = 0 then none else some (encI simm rd 0 rd 0x1B))
    else if f3 = 2 then some (encI simm 0 0 rd 0x13)
    else if f3 = 3 then
      if rd = 2 then
        let n := fld h 12 1 * 512 + fld h 3 2 * 128 + fld h 5 1 * 64 + fld h 2 1 * 32 + fld h 6 1 * 16
        if n = 0 then none else some (encI (sxn 10 12 n) 2 0 2 0x13)
      else if imm6 = 0 then none else some (sxn 6 20 imm6 * 4096 + rd * 128 + 0x37)
    else if f3 = 4 then
      let op := fld h 10 2
      if op = 0 then some (encI imm6 rs1p 5 rs1p 0x13)
      else if op = 1 then some (encI (imm6 + 0x400) rs1p 5 rs1p 0x13)
      else if op = 2 then some (encI simm rs1p 7 rs1p 0x13)
      else
        let g := fld h 5 2
        if fld h 12 1 = 0 then
          if g = 0 then some (encR 0x20 rdp rs1p 0 rs1p 0x33)
          else if g = 1 then some (encR 0 rdp rs1p 4 rs1p 0x33)
          else if g = 2 then some (encR 0 rdp rs1p 6 rs1p 0x33)
          else some (encR 0 rdp rs1p 7 rs1p 0x33)
        else if g = 0 then some (encR 0x20 rdp rs1p 0 rs1p 0x3B)
        else if g = 1 then some (encR 0 rdp rs1p 0 rs1p 0x3B)
        else none
    else if f3 = 5 then
      some (encJ (sxn 12 21 (fld h 12 1 * 2048 + fld h 8 1 * 1024 + fld h 9 2 * 256 + fld h 6 1 * 128 + fld h 7 1 * 64 + fld h 2 1 * 32 + fld h 11 1 * 16 +
        fld h 3 3 * 2)) 0)
    else
      some (encB (sxn 9 13 (fld h 12 1 * 256 + fld h 5 2 * 64 + fld h 2 1 * 32 + fld h 10 2 * 8 + fld h 3 2 * 2)) 0 rs1p (f3 - 6))
  else if q = 2 then
    if f3 = 0 then some (encI imm6 rd 1 rd 0x13)
    else if f3 = 2 then (if rd = 0 then none else some (encI (fld h 2 2 * 64 + fld h 12 1 * 32 + fld h 4 3 * 4) 2 2 rd 0x03))
    else if f3 = 3 then (if rd = 0 then none else some (encI (fld h 2 3 * 64 + fld h 12 1 * 32 + fld h 5 2 * 8) 2 3 rd 0x03))
    else if f3 = 4 then
      if fld h 12 1 = 0 then
        if rs2 = 0 then (if rd = 0 then none else some (encI 0 rd 0 0 0x67)) else some (encR 0 rs2 0 0 rd 0x33)
      else if rs2 = 0 then (if rd = 0 then some 0x00100073 else some (encI 0 rd 0 1 0x67))
      else some (encR 0 rs2 rd 0 rd 0x33)
    else if f3 = 6 then some (encS (fld h 7 2 * 64 + fld h 9 4 * 4) rs2 2 2 0x23)
    else if f3 = 7 then some (encS (fld h 7 3 * 64 + fld h 10 3 * 8) rs2 2 3 0x23)
    else none
  else none

/-! ### Arithmetic -/

/-- RV64I register operations by funct3, with the alternate form of ADD and SRL. -/
def aluOp (f3 : Nat) (alt : Bool) (a b : Word) : Word :=
  if f3 = 0 then (if alt then a - b else a + b)
  else if f3 = 1 then a <<< (b.toNat % 64)
  else if f3 = 2 then (if a.toInt < b.toInt then 1 else 0)
  else if f3 = 3 then (if a.toNat < b.toNat then 1 else 0)
  else if f3 = 4 then a ^^^ b
  else if f3 = 5 then (if alt then a.sshiftRight (b.toNat % 64) else a >>> (b.toNat % 64))
  else if f3 = 6 then a ||| b
  else a &&& b

/-- The low word, sign-extended. -/
def w32 (v : Word) : Word := sx 32 (v.toNat % 2 ^ 32)

/-- 32-bit forms: ADDW, SUBW, SLLW, SRLW, SRAW. -/
def aluOpW (f3 : Nat) (alt : Bool) (a b : Word) : Option Word :=
  let x : W32 := BitVec.ofNat 32 a.toNat
  let n := b.toNat % 32
  if f3 = 0 then some (w32 (if alt then a - b else a + b))
  else if f3 = 1 then some ((x <<< n).signExtend 64)
  else if f3 = 5 then some ((if alt then x.sshiftRight n else x >>> n).signExtend 64)
  else none

/-- Division of the M extension: by zero the quotient is all ones and the remainder the dividend; the one overflow wraps. -/
def divS (a b : Int) : Int := if b = 0 then -1 else a.tdiv b
def remS (a b : Int) : Int := if b = 0 then a else a.tmod b

def mulOp (f3 : Nat) (a b : Word) : Word :=
  if f3 = 0 then a * b
  else if f3 = 1 then BitVec.ofInt 64 (a.toInt * b.toInt / 2 ^ 64)
  else if f3 = 2 then BitVec.ofInt 64 (a.toInt * (b.toNat : Int) / 2 ^ 64)
  else if f3 = 3 then BitVec.ofNat 64 (a.toNat * b.toNat / 2 ^ 64)
  else if f3 = 4 then BitVec.ofInt 64 (divS a.toInt b.toInt)
  else if f3 = 5 then (if b = 0 then BitVec.allOnes 64 else BitVec.ofNat 64 (a.toNat / b.toNat))
  else if f3 = 6 then BitVec.ofInt 64 (remS a.toInt b.toInt)
  else if b = 0 then a else BitVec.ofNat 64 (a.toNat % b.toNat)

def mulOpW (f3 : Nat) (a b : Word) : Option Word :=
  let x : W32 := BitVec.ofNat 32 a.toNat
  let y : W32 := BitVec.ofNat 32 b.toNat
  if f3 = 0 then some ((x * y).signExtend 64)
  else if f3 = 4 then some ((BitVec.ofInt 32 (divS x.toInt y.toInt)).signExtend 64)
  else if f3 = 5 then some (if y = 0 then BitVec.allOnes 64 else (BitVec.ofNat 32 (x.toNat / y.toNat)).signExtend 64)
  else if f3 = 6 then some ((BitVec.ofInt 32 (remS x.toInt y.toInt)).signExtend 64)
  else if f3 = 7 then some (if y = 0 then x.signExtend 64 else (BitVec.ofNat 32 (x.toNat % y.toNat)).signExtend 64)
  else none

/-- Branch conditions. -/
def brTaken (f3 : Nat) (a b : Word) : Option Bool :=
  if f3 = 0 then some (a == b) else if f3 = 1 then some (a != b) else if f3 = 4 then some (a.toInt < b.toInt) else if f3 = 5 then some (b.toInt ≤ a.toInt)
  else if f3 = 6 then some (a.toNat < b.toNat) else if f3 = 7 then some (b.toNat ≤ a.toNat) else none

/-! ### One instruction -/

/-- Registers of a sequencer: x0 reads zero and takes no write. -/
def SeqSt.get (s : SeqSt) (r : Nat) : Word := if r = 0 then 0 else sget (fun _ => 0#64) s.x r
def SeqSt.set (s : SeqSt) (r : Nat) (v : Word) : SeqSt := if r = 0 then s else { s with x := sput (fun _ => 0#64) s.x r v }

/-- The instruction at the program counter and its length: none outside the text's address range. -/
def rvFetch (text : List Byte) (pc : Nat) : Option (Nat × Nat) :=
  if 0x10000 ≤ pc ∨ pc % 2 = 1 then none
  else
    let lo := leAt text pc 2
    if lo % 4 = 3 then (if 0x10000 ≤ pc + 2 then none else some (lo + 65536 * leAt text (pc + 2) 2, 4))
    else (expandC lo).map fun w => (w, 2)

/-- Bytes of data memory (R149). -/
def seqLoad (s : SeqSt) (a n : Nat) : Option Nat :=
  if 0x10000 ≤ a ∧ a + n ≤ 0x14000 ∧ a % n = 0 then some (leNat ((List.range n).map fun i => sget (fun _ => 0#8) s.data (a - 0x10000 + i))) else none
def seqStore (s : SeqSt) (a n v : Nat) : Option SeqSt :=
  if 0x10000 ≤ a ∧ a + n ≤ 0x14000 ∧ a % n = 0 then
    some { s with data := (toLe n v).zipIdx.foldl (fun m q => sput (fun _ => 0#8) m (a - 0x10000 + q.2) q.1) s.data }
  else none

/-- Execute one 32-bit base instruction of length len: none for an exception (R149). -/
def rvExec (s : SeqSt) (w len : Nat) : Option SeqSt :=
  let op := w % 128
  let rd := fld w 7 5
  let f3 := fld w 12 3
  let f7 := fld w 25 7
  let a := s.get (fld w 15 5)
  let b := s.get (fld w 20 5)
  let go := fun (t : SeqSt) => some { t with pc := s.pc + len }
  let put := fun (v : Word) => go (s.set rd v)
  let jump := fun (t : SeqSt) (n : Nat) => some { t with pc := n }
  let pc : Word := BitVec.ofNat 64 s.pc
  let link : Word := BitVec.ofNat 64 (s.pc + len)
  if op = 0x37 then put (immU w)
  else if op = 0x17 then put (pc + immU w)
  else if op = 0x6F then jump (s.set rd link) (pc + immJ w).toNat
  else if op = 0x67 then (if f3 = 0 then jump (s.set rd link) ((a + immI w).toNat / 2 * 2) else none)
  else if op = 0x63 then
    match brTaken f3 a b with
    | some t => if t then jump s (pc + immB w).toNat else go s
    | none => none
  else if op = 0x03 then
    if f3 = 7 then none
    else
      let n := 2 ^ (f3 % 4)
      (seqLoad s (a + immI w).toNat n).bind fun v => put (if 4 ≤ f3 then BitVec.ofNat 64 v else sx (8 * n) v)
  else if op = 0x23 then (if 4 ≤ f3 then none else (seqStore s (a + immS w).toNat (2 ^ f3) b.toNat).bind go)
  else if op = 0x13 then
    if f3 = 1 then (if fld w 26 6 = 0 then put (aluOp 1 false a (BitVec.ofNat 64 (fld w 20 6))) else none)
    else if f3 = 5 then
      (if fld w 26 6 = 0 then put (aluOp 5 false a (BitVec.ofNat 64 (fld w 20 6)))
       else if fld w 26 6 = 0x10 then put (aluOp 5 true a (BitVec.ofNat 64 (fld w 20 6))) else none)
    else put (aluOp f3 false a (immI w))
  else if op = 0x1B then
    if f3 = 0 then put (w32 (a + immI w))
    else if f3 = 1 ∧ f7 = 0 then (aluOpW 1 false a (BitVec.ofNat 64 (fld w 20 5))).bind put
    else if f3 = 5 ∧ f7 = 0 then (aluOpW 5 false a (BitVec.ofNat 64 (fld w 20 5))).bind put
    else if f3 = 5 ∧ f7 = 0x20 then (aluOpW 5 true a (BitVec.ofNat 64 (fld w 20 5))).bind put
    else none
  else if op = 0x33 then
    if f7 = 0 then put (aluOp f3 false a b)
    else if f7 = 0x20 ∧ (f3 = 0 ∨ f3 = 5) then put (aluOp f3 true a b)
    else if f7 = 1 then put (mulOp f3 a b)
    else none
  else if op = 0x3B then
    if f7 = 0 then (aluOpW f3 false a b).bind put
    else if f7 = 0x20 ∧ (f3 = 0 ∨ f3 = 5) then (aluOpW f3 true a b).bind put
    else if f7 = 1 then (mulOpW f3 a b).bind put
    else none
  else if op = 0x0F then (if f3 = 0 then go s else none)
  else none

end Sys2Proof.Machine
end

