-- ==== Sys2Proof/Machine/Seq.lean ====
section
/-!
DEFINITION. The sequencers (R143, R149 to R153): base instructions, the custom instructions of Table 5-8 and exceptions. A custom instruction has an effect only when
it is the next instruction of a running sequencer (log entry 27); one that waits is given again until what it waits for has come, or ends with that event.
-/
namespace Sys2Proof.Machine

/-! ### Issue -/

/-- The partition of comb k and the program that sequencer i of the comb runs there. -/
def Dev.seqProg (d : Dev) (k i : Nat) : Option (Nat × Prog) :=
  (d.partOfComb k).bind fun p => (d.activeHandle p).bind fun h => (d.progAt (progKey h k i)).map fun g => (p, g)

/-- May sequencer i of comb k execute: it runs, waits for nothing, and its comb has clocks (R402)? -/
def Dev.seqReady (d : Dev) (k i : Nat) : Bool := (d.seq k i).on && (d.seq k i).wait == .none && 2 ≤ d.combPs k

/-- The next instruction of a sequencer and its length: none where none can be fetched. -/
def Dev.seqFetch (d : Dev) (k i : Nat) : Option (Nat × Nat) := (d.seqProg k i).bind fun g => rvFetch g.2.text (d.seq k i).pc

/-- The word of a custom instruction (R151). -/
def seqWord (f7 f3 : Nat) (o : SeqOps) : Nat := encR f7 o.rs2.toNat o.rs1.toNat f3 o.rd.toNat 0x0B

/-- Issue a custom instruction: its body gets the partition and the values of rs1 and rs2. -/
def Dev.sqRun (d : Dev) (k i f7 f3 : Nat) (o : SeqOps) (body : Nat → Nat → Nat → Dev → Dev) : Dev :=
  match d.partOfComb k with
  | some p =>
    if d.seqReady k i ∧ d.seqFetch k i = some (seqWord f7 f3 o, 4) then
      body p ((d.seq k i).get o.rs1.toNat).toNat ((d.seq k i).get o.rs2.toNat).toNat d
    else d
  | none => d

/-- The instruction completes with a value for rd. -/
def Dev.seqPut (d : Dev) (k i rd v : Nat) : Dev := d.setSeq k i { (d.seq k i).set rd (BitVec.ofNat 64 v) with pc := (d.seq k i).pc + 4 }

/-- The instruction completes without a value. -/
def Dev.seqNext (d : Dev) (k i : Nat) : Dev := d.setSeq k i { d.seq k i with pc := (d.seq k i).pc + 4 }

/-- The sequencer waits. -/
def Dev.seqWait (d : Dev) (k i : Nat) (w : SeqWait) : Dev := d.setSeq k i { d.seq k i with wait := w }

/-- Is sequencer i of comb k its comb's voter? -/
def Dev.isVoter (d : Dev) (k i : Nat) : Bool := match d.seqProg k i with | some g => g.2.voter | none => false

/-! ### Bound registers, issues and summaries -/

def opSqBndw (k i : Nat) (o : SeqOps) (d : Dev) : Dev :=
  d.sqRun k i 0 0 o fun _ n v e =>
    { e with fab := { e.fab with bnd := sput (fun _ => 0#32) e.fab.bnd (64 * k + n % 64) (BitVec.ofNat 32 v) } }.seqNext k i

def opSqBndr (k i : Nat) (o : SeqOps) (d : Dev) : Dev := d.sqRun k i 1 0 o fun _ n _ e => e.seqPut k i o.rd.toNat (e.bndOf k n)

/-- SQ.ISSUE. A descriptor that the image lacks fails the first check of Table 4-8. -/
def opSqIssue (k i : Nat) (o : SeqOps) (d : Dev) : Dev :=
  d.sqRun k i 0 1 o fun p n _ e =>
    match e.issueStream k i n with
    | some (tok, e1) =>
      let e2 : Dev := { e1 with fab := { e1.fab with nextToken := max e1.fab.nextToken (tok + 1) } }
      (e2.seqPut k i o.rd.toNat tok).pumpEdges p
    | none => (e.issueFault k i cConfig 0x0803 0).seqPut k i o.rd.toNat e.fab.nextToken

/-- A chain's descriptor for the issue list: a chain delivers no tile of its own. -/
def chainDesc : StreamDesc := ⟨0, 0, skLink, 3, 0, false, false, false, false, false, false, 0xFFFF, 0xFFFF, [], 0, 0, 0, 0⟩

/-- A CHAIN record takes no bank: its part is absent (R121). -/
def Dev.chainIdle (d : Dev) (q : Nat × CfgRec) : Bool :=
  let v := d.chainVals q.1 q.2
  !bit (q.2.b 16) 0 && 0 < v.1 && partAbsent v.1 v.2.1

/-- Issue chain n of a station on one task context: it captures n, b, c, L and K and takes a bank (R84, R115, R119, R121). -/
def Dev.addChain (d : Dev) (k p tok n : Nat) (q : Nat × CfgRec) : Dev :=
  let v := d.chainVals q.1 q.2
  let bank := if d.chainIdle q then 0xFF else (d.freeBank q.1 q.2.tc).getD 0xFF
  let i : Issue :=
    ⟨d.fab.nextToken, tok, p, k, q.1, q.2.tc, 0xFFFF, chainDesc, [v.1, v.2.1, v.2.2.1, v.2.2.2.1, v.2.2.2.2], 0xFF, bank, some n, none, none, 0, 0, 0, [], false, [], 0,
      false, false⟩
  { d with fab := { d.fab with issues := d.fab.issues ++ [i], nextToken := d.fab.nextToken + 1 } }

/-- Why a CHAIN record cannot be issued, in the order of R119: its task context is UNUSED, no bank is free. -/
def Dev.chainLack (d : Dev) (q : Nat × CfgRec) : Option Nat :=
  if ((d.cell q.1).tc q.2.tc).st = .unused then some 0x0812
  else if !d.chainIdle q && (d.freeBank q.1 q.2.tc).isNone then some 0x0814
  else none

/-- Do the numbers that a CHAIN record captures fail R84 or R122? The grain is that of the format of its first operand stream. -/
def Dev.chainSplitBad (d : Dev) (p : Nat) (q : Nat × CfgRec) : Bool :=
  let v := d.chainVals q.1 q.2
  let fmt := match (d.activeImg p).bind fun m => d.desc m (q.2.n 2 2) with | some sd => sd.format | none => 0
  let combine := bit (q.2.b 16) 0
  !d.chainIdle q && splitBad combine v.1 v.2.1 v.2.2.1 v.2.2.2.1 (if combine then 1 else grainsOf fmt)

/-- SQ.CHAIN: every CHAIN record of the station with that index in the comb. The task contexts and banks are checked at issue, at the sequencer's cell (R119, R133);
then the numbers captured, at the cell that holds the record (R84). -/
def opSqChain (k i : Nat) (o : SeqOps) (d : Dev) : Dev :=
  d.sqRun k i 1 1 o fun p st n e =>
    let tok := e.fab.nextToken
    let recs := (e.fab.cells.filter fun q => combOf q.1 == k).flatMap fun q =>
      (bankRecs q.2.active rChain fun r => r.n 0 2 == st && r.b 15 == n).map fun r => (q.1, r)
    match recs.findSome? e.chainLack, recs.find? (e.chainSplitBad p) with
    | some cause, _ => (e.issueFault k i cResource cause (resDetail st 0 1 0)).seqPut k i o.rd.toNat tok
    | none, some q =>
      let v := e.chainVals q.1 q.2
      (e.cellFault q.1 cResource 0x0701 (splitDetail st v.2.1 v.2.2.1 v.2.2.2.1)).seqPut k i o.rd.toNat tok
    | none, none =>
      let e1 := recs.foldl (fun (f : Dev) q => f.addChain k p tok n q) e
      { e1 with fab := { e1.fab with nextToken := max e1.fab.nextToken (tok + 1) } }.seqPut k i o.rd.toNat tok

/-- Does an issue belong to the producing side of its stream? -/
def Issue.producing (i : Issue) : Bool := i.queue == 0xFF && !i.sd.buffered && i.chain.isNone

/-- Tiles that an issue which has ended delivered: those that landed at a consumer; the whole count, with the extra EMPTY tile, at a producer. -/
def Issue.delivered (i : Issue) : Nat :=
  if i.chain.isSome then 0 else if i.producing then (if i.total = 0 then 1 else i.total + b2n i.sd.eosSeparate) else i.landed

/-- SQ.WAIT: when every part of the issue has ended, rd gets the tiles delivered: those of the consumers' bindings in the comb, else of the producers'. -/
def opSqWait (k i : Nat) (o : SeqOps) (d : Dev) : Dev :=
  d.sqRun k i 2 1 o fun p tok _ e =>
    let is := e.fab.issues.filter fun (z : Issue) => z.part == p && z.token == tok
    if is.all (·.ended) then
      let cs := is.filter fun (z : Issue) => !z.producing
      e.seqPut k i o.rd.toNat ((if cs.isEmpty then is else cs).foldl (fun a z => a + z.delivered) 0)
    else e

/-- What SQ.SUMR and SQ.SUMP read: value, valid flag and EMPTY flag of a summary register. -/
def sumWord (r : SumReg) : Nat := r.val.toNat + b2n r.valid * 2 ^ 32 + b2n r.empty * 2 ^ 33

def opSqSumr (k i : Nat) (o : SeqOps) (d : Dev) : Dev :=
  d.sqRun k i 0 2 o fun _ n _ e =>
    let r := (e.seq k i).sum (n % 16)
    if r.valid then e.seqPut k i o.rd.toNat (sumWord r) else e

def opSqSump (k i : Nat) (o : SeqOps) (d : Dev) : Dev :=
  d.sqRun k i 1 2 o fun _ n _ e => e.seqPut k i o.rd.toNat (sumWord ((e.seq k i).sum (n % 16)))

/-! ### Work counters (R125 to R129) -/

/-- Ask the home of counter n: over the mesh, or, for a brood-wide counter on a member, the lead. -/
def Dev.askCounter (d : Dev) (p k i n op inc rd : Nat) : Dev :=
  let addr := n % 256 * 2 ^ 40 + op * 2 ^ 38 + inc % 2 ^ 32
  match d.homeOf p (n % 256) with
  | none => d.cellFault (seqCell k i) cCounter 0x0824 (wkcDetail addr 0x0824)
  | some (h, wide) =>
    let e := d.seqWait k i (.wkc rd)
    if wide ∧ !d.isLead then
      match d.curCtx p, d.lnk.lead with
      | some c, some q =>
        let e1 := e.send 0x12 (e.posNode q) (e.ctxPkt c (e.att c).epoch [(34, 6, addr), (40, 2, 4 * k + i)])
        { e1 with lnk := { e1.lnk with waits := e1.lnk.waits ++ [⟨.counter k i (n % 256), k, e1.posNode q, e1.ps⟩] } }
      | _, _ => d.cellFault (seqCell k i) cCounter 0x0824 (wkcDetail addr 0x0824)
    else e.inject (seqCell k i) (mkPkt 9 (e.cell h).gen.toNat h (seqCell k i) (0x8000 + i) addr [])

def opSqWkc (k i : Nat) (o : SeqOps) (d : Dev) : Dev := d.sqRun k i 0 3 o fun p n inc e => e.askCounter p k i n 0 inc o.rd.toNat
def opSqWkcrst (k i : Nat) (o : SeqOps) (d : Dev) : Dev := d.sqRun k i 1 3 o fun p n _ e => e.askCounter p k i n 2 0 0

/-! ### Molts -/

/-- The handle of the active image of partition p, within the partition. -/
def Dev.activeH (d : Dev) (p : Nat) : Nat := (d.activeHandle p).getD 0 % 16

/-- Do contenders named before SQ.PRELOAD in Table 10-5 hold the shadow banks: an armed timed molt, or a switch molt that loads another image? -/
def Dev.shadowTaken (d : Dev) (p : Nat) : Bool :=
  d.timedShadow p || (match (d.molt p).target with | some t => d.activeHandle p != some (16 * p + t.1) | none => false)

/-- SQ.PRELOAD: an instar that the image lacks follows R161. Where another contender of Table 10-5 holds the shadow banks, the preload loses and loads nothing. -/
def opSqPreload (k i : Nat) (o : SeqOps) (d : Dev) : Dev :=
  d.sqRun k i 0 4 o fun p n _ e =>
    match e.img? p (e.activeH p) with
    | some m =>
      if e.instarCount m ≤ n then e.stepFault p (e.curCtx p) { notice cConfig 0x0913 (n % 65536) with comb := k }
      else (if e.shadowTaken p then e else e.preload p (e.activeH p) n).seqNext k i
    | none => e

/-- SQ.MOLT: only a voter requests the molt; the sequencer waits for the flip. An instar that the image lacks follows R161 whichever sequencer names it. -/
def opSqMolt (k i : Nat) (o : SeqOps) (d : Dev) : Dev :=
  d.sqRun k i 1 4 o fun p n _ e =>
    let e1 := e.seqWait k i (.molt o.rd.toNat n)
    let absent : Bool := match e.img? p (e.activeH p) with | some m => e.instarCount m ≤ n | none => false
    if absent then e1.stepFault p (e1.curCtx p) { notice cConfig 0x0913 (n % 65536) with comb := k }
    else if e.isVoter k i then e1.moltRequest p k n
    else e1

/-- SQ.STAT: generation, active instar, shadow instar, shadow valid, from MOLT_STAT. -/
def statWord (d : Dev) (p : Nat) : Nat :=
  d.rf (Reg.MOLT_STAT p) Fld.MOLT_STAT_GEN * 2 ^ 56 + d.rf (Reg.MOLT_STAT p) Fld.MOLT_STAT_ACTIVE_INSTAR * 2 ^ 40 +
    d.rf (Reg.MOLT_STAT p) Fld.MOLT_STAT_SHADOW_INSTAR * 2 ^ 16 + d.rf (Reg.MOLT_STAT p) Fld.MOLT_STAT_SHADOW_VALID * 2 ^ 11

def opSqStat (k i : Nat) (o : SeqOps) (d : Dev) : Dev := d.sqRun k i 2 4 o fun p _ _ e => e.seqPut k i o.rd.toNat (statWord e p)

/-! ### Steps, votes, launches -/

/-- SQ.STEP: the epoch of an attempt that has started and that this sequencer has not been given, else the sequencer waits. -/
def opSqStep (k i : Nat) (o : SeqOps) (d : Dev) : Dev :=
  d.sqRun k i 0 5 o fun p _ _ e =>
    match e.curCtx p with
    | some c =>
      let ep := (e.att c).epoch
      if e.phase c = phExecute ∧ (e.seq k i).stepEpoch ≠ ep then
        (e.seqPut k i o.rd.toNat ep).setSeq k i { (e.seqPut k i o.rd.toNat ep).seq k i with stepEpoch := ep }
      else e.seqWait k i (.step o.rd.toNat)
    | none => e.seqWait k i (.step o.rd.toNat)

/-- The cause of an abort that a sequencer votes: the manual names none, so its code, its cause and whether it is counted are free values (log entry 47). -/
def voteAbort (d : Dev) : AbortInfo := ⟨d.draw.toNat % 64, d.draw.toNat / 256 % 65536, bit d.draw.toNat 6, d.pos, d.draw.toNat % 64⟩

/-- SQ.VOTE: 0 votes COMMIT, which counts from the comb's voter; 1 votes ABORT, which aborts the step (R152). Table 5-8 gives rs1 no other value: 2 or more casts no vote, and the
instruction only ends (DESIGN CHOICE, log entry 88). -/
def opSqVote (k i : Nat) (o : SeqOps) (d : Dev) : Dev :=
  d.sqRun k i 1 5 o fun p v _ e =>
    let e1 := e.seqNext k i
    match e.curCtx p with
    | some c =>
      if v = 0 then (if e.isVoter k i then e1.combVote p c k else e1)
      else if v = 1 ∧ e.executing c ∧ !(e.att c).decided ∧ !(e.att c).acked then e1.drawn.abortCtx p c (voteAbort e)
      else e1
    | none => e1

/-- SQ.LAUNCH waits for the slot to fire. -/
def opSqLaunch (k i : Nat) (o : SeqOps) (d : Dev) : Dev := d.sqRun k i 2 5 o fun _ n _ e => e.seqWait k i (.launch o.rd.toNat n)

/-! ### Base instructions and exceptions -/

/-- Is a word a custom instruction of Table 5-8? -/
def seqCustom (w : Nat) : Bool :=
  w % 128 == 0x0B && [(0, 0), (1, 0), (0, 1), (1, 1), (2, 1), (0, 2), (1, 2), (0, 3), (1, 3), (0, 4), (1, 4), (2, 4), (0, 5), (1, 5), (2, 5)].contains (fld w 25 7, fld w 12 3)

/-- The sequencer after its next base instruction: none for a custom instruction or an exception. -/
def Dev.baseStep (d : Dev) (k i : Nat) : Option SeqSt := (d.seqFetch k i).bind fun w => if w.1 % 128 = 0x0B then none else rvExec (d.seq k i) w.1 w.2

/-- Is the next instruction an exception: not to be fetched, illegal, an access out of bounds or misaligned, ECALL, EBREAK, or reserved? -/
def Dev.seqBad (d : Dev) (k i : Nat) : Bool :=
  match d.seqFetch k i with
  | some w => !seqCustom w.1 && (d.baseStep k i).isNone
  | none => true

def opSeqBase (k i : Nat) (d : Dev) : Dev :=
  if d.seqReady k i then (match d.baseStep k i with | some s => d.setSeq k i s | none => d) else d

/-- SEQUENCER_EXCEPTION (R149): FLT_CONFIG 0x0915 aborts the step. -/
def opSeqException (k i : Nat) (d : Dev) : Dev :=
  if d.seqReady k i ∧ d.seqBad k i then d.combFault k { notice cConfig 0x0915 (i * 2 ^ 62 + (d.seq k i).pc % 2 ^ 48) with comb := k } else d

/-! ### The commands -/

def execSqBndw (k : CombIdx) (i : SeqIdx) (o : SeqOps) (s : State) : Host.Outcome State Fault Refusal := done s (opSqBndw k i o s.dev)
def execSqBndr (k : CombIdx) (i : SeqIdx) (o : SeqOps) (s : State) : Host.Outcome State Fault Refusal := done s (opSqBndr k i o s.dev)
def execSqIssue (k : CombIdx) (i : SeqIdx) (o : SeqOps) (s : State) : Host.Outcome State Fault Refusal := done s (opSqIssue k i o s.dev)
def execSqChain (k : CombIdx) (i : SeqIdx) (o : SeqOps) (s : State) : Host.Outcome State Fault Refusal := done s (opSqChain k i o s.dev)
def execSqWait (k : CombIdx) (i : SeqIdx) (o : SeqOps) (s : State) : Host.Outcome State Fault Refusal := done s (opSqWait k i o s.dev)
def execSqSumr (k : CombIdx) (i : SeqIdx) (o : SeqOps) (s : State) : Host.Outcome State Fault Refusal := done s (opSqSumr k i o s.dev)
def execSqSump (k : CombIdx) (i : SeqIdx) (o : SeqOps) (s : State) : Host.Outcome State Fault Refusal := done s (opSqSump k i o s.dev)
def execSqWkc (k : CombIdx) (i : SeqIdx) (o : SeqOps) (s : State) : Host.Outcome State Fault Refusal := done s (opSqWkc k i o s.dev)
def execSqWkcrst (k : CombIdx) (i : SeqIdx) (o : SeqOps) (s : State) : Host.Outcome State Fault Refusal := done s (opSqWkcrst k i o s.dev)
def execSqPreload (k : CombIdx) (i : SeqIdx) (o : SeqOps) (s : State) : Host.Outcome State Fault Refusal := done s (opSqPreload k i o s.dev)
def execSqMolt (k : CombIdx) (i : SeqIdx) (o : SeqOps) (s : State) : Host.Outcome State Fault Refusal := done s (opSqMolt k i o s.dev)
def execSqStat (k : CombIdx) (i : SeqIdx) (o : SeqOps) (s : State) : Host.Outcome State Fault Refusal := done s (opSqStat k i o s.dev)
def execSqStep (k : CombIdx) (i : SeqIdx) (o : SeqOps) (s : State) : Host.Outcome State Fault Refusal := done s (opSqStep k i o s.dev)
def execSqVote (k : CombIdx) (i : SeqIdx) (o : SeqOps) (s : State) : Host.Outcome State Fault Refusal := done s (opSqVote k i o s.dev)
def execSqLaunch (k : CombIdx) (i : SeqIdx) (o : SeqOps) (s : State) : Host.Outcome State Fault Refusal := done s (opSqLaunch k i o s.dev)
def execSequencerBaseInstruction (k : CombIdx) (i : SeqIdx) (s : State) : Host.Outcome State Fault Refusal := done s (opSeqBase k i s.dev)
def execSequencerException (k : CombIdx) (i : SeqIdx) (s : State) : Host.Outcome State Fault Refusal := done s (opSeqException k i s.dev)

end Sys2Proof.Machine
end

