-- ==== Sys2Proof/Machine/Steer.lean ====
section
/-!
DEFINITION. Steering contexts (R56 to R60) and the cell stall watchdog (R61 to R63).
-/
namespace Sys2Proof.Machine

/-! ### What a construct reads -/

/-- Constructs of a STEER record (Table 5-4). -/
def cBranch : Nat := 0
def cMergeOrdered : Nat := 1
def cMergeUnordered : Nat := 2
def cFilter : Nat := 3
def cRepeat : Nat := 4

/-- Input queues and outputs of a STEER record. -/
def steerIns (r : CfgRec) : List Nat := [r.b 1, r.b 2, r.b 3, r.b 4].filter (· != 0xFF)
def steerOut (r : CfgRec) (i : Nat) : Option Nat := if i < 4 ∧ r.b (5 + i) != 0xFF then some (r.b (5 + i)) else none
def steerOuts (r : CfgRec) : List Nat := [r.b 5, r.b 6, r.b 7, r.b 8].filter (· != 0xFF)

/-- What a source gives (R59): an output index, or a wait for a summary register. -/
inductive Selected where
  | index (n : Nat)
  | wait (reg : Nat)
  deriving DecidableEq, Repr

/-- A true predicate selects output 0, a false one output 1. -/
def predIndex (b : Bool) : Nat := if b then 0 else 1

/-- The comparison of a SUMMARY source: condition in bits 7:6, type in bits 5:4 of its byte. -/
def sumCompare (how imm : Nat) (v : W32) : Bool :=
  let cond := condOf (how / 64)
  let m : W32 := BitVec.ofNat 32 imm
  if how / 16 % 4 = 0 then intCmp cond v.toInt m.toInt
  else if how / 16 % 4 = 1 then intCmp cond v.toNat m.toNat
  else fpCmp cond (f32 v) (f32 m)

/-- The selector of a tile. BOUND is an output index in BRANCH and a predicate in FILTER. -/
def selectOf (r : CfgRec) (y : Tc) (h : Hdr) : Selected :=
  let src := r.b 9
  if src = 0 then .index (predIndex (bit h.pred (r.b 10 % 8)))
  else if src = 1 then .index h.steer
  else if src = 2 then
    let s := y.sum (r.b 10 % 16)
    if s.valid then .index (predIndex (sumCompare (r.b 11) (r.n 16 4) s.val)) else .wait (r.b 10 % 16)
  else if r.b 0 = cFilter then .index (predIndex (y.steer.sel != 0))
  else .index y.steer.sel

/-! ### Sending -/

/-- Send a tile as it stands on an output of a steering context, spending a credit. -/
def Dev.steerSend (d : Dev) (c t o : Nat) (tile : List Byte) : Dev :=
  match outRec (d.cell c).active t o with
  | some r =>
    let addr := match d.outIssue c t o with | some i => if i.sd.kind = skRemote then i.sd.base else 0 | none => 0
    let p := d.outPkt c r (mkPkt 1 (d.cell c).gen.toNat (outCell c r) c (16 * t + o) addr tile)
    (d.modTc c t fun y => { y.setOut o { y.out o with credits := (y.out o).credits - 1 } with since := d.ps }).inject c p
  | none => d

/-- Is a credit held on every one of some outputs, and which lacks one? -/
def noCredit (y : Tc) (os : List Nat) : Option Nat := os.find? fun o => (y.out o).credits == 0

/-- An output of a steering context has carried END_OF_STREAM. -/
def Dev.steerEnd (d : Dev) (c t o : Nat) : Dev :=
  match d.outIssue c t o with
  | some i => d.endOutput c t o i
  | none => d.modTc c t fun y => y.setOut o { y.out o with ended := true }

/-- The construct has ended: its outputs have ended, the task context is DONE and the issue slot is free. A LOOP with N = 0, of which R58 says nothing, ends like any other once its entry stream has
ended: both outputs carry END_OF_STREAM, and while its input back has carried none the context is not yet DONE (DESIGN CHOICE, log entry 86). -/
def Dev.steerDone (d : Dev) (c t : Nat) (r : CfgRec) : Dev :=
  let d1 := (steerOuts r).foldl (fun (e : Dev) o => e.steerEnd c t o) d
  ((d1.modTc c t fun y => { y with progEnd := true }).tryDone c t).pick c

/-- The EMPTY tile with END_OF_STREAM that a construct makes (R58, R104). -/
def Dev.steerEos (d : Dev) (c q stream seq : Nat) : List Byte :=
  let f := match d.fab.issues.find? fun j => j.cell == c && j.queue == q && j.chain.isNone && j.sd.streamId == stream with
    | some i => i.sd.format
    | none => 0x01
  emptyTile f 0 stream seq (d.cell c).gen.toNat (d.epochAt c) true false

/-- Take the front tile: its slot is free, and the construct remembers its stream and sequence number. -/
def Dev.steerTake (d : Dev) (c t q : Nat) (h : Hdr) (eos : Bool) : Dev :=
  (d.consume c t q eos).modTc c t fun y => { y with steer := { y.steer with lastStream := h.streamId, lastSeq := h.seq } }

/-- A tile with its END_OF_STREAM flag as wanted: a header that changes is checked first and gets a new CRC (R57). -/
def Dev.steerTile (d : Dev) (c q : Nat) (tile : List Byte) (eos : Bool) (k : List Byte → Dev) : Dev :=
  let h := hdrOf tile
  if h.eos = eos then k tile
  else if tileCrcOk tile then k (reHdr tile { h with eos := eos })
  else
    d.tileFault c cTileCheck 0x0601 (h.streamId * 65536 + h.seq % 65536) (d.keyOf (d.tileIssue c q h) h)

/-! ### The constructs (Table 2-9) -/

/-- A selector that no output of the construct answers to (R60). -/
def Dev.badSelect (d : Dev) (c t n : Nat) : Dev :=
  d.cellFault c cBounds 0x0501 (stationOf (d.cell c).active t * 65536 + n % 65536)

/-- BRANCH: END_OF_STREAM goes unchanged to every output. -/
def Dev.steerBranch (d : Dev) (c t q : Nat) (r : CfgRec) (tile : List Byte) : Dev :=
  let y := (d.cell c).tc t
  let h := hdrOf tile
  let send := fun (os : List Nat) =>
    match noCredit y os with
    | some o => d.tcWait c t .waitOut (.output (16 * t + o))
    | none => os.foldl (fun (e : Dev) o => e.steerSend c t o tile) (d.steerTake c t q h h.eos)
  if h.eos then
    match noCredit y (steerOuts r) with
    | some o => d.tcWait c t .waitOut (.output (16 * t + o))
    | none => (send (steerOuts r)).steerDone c t r
  else
    match selectOf r y h with
    | .wait n => d.tcWait c t .waitIn (.summary (16 * t + n))
    | .index n => match steerOut r n with | some o => send [o] | none => d.badSelect c t n

/-- FILTER: output 1 is the drop. -/
def Dev.steerFilter (d : Dev) (c t q : Nat) (r : CfgRec) (tile : List Byte) : Dev :=
  let y := (d.cell c).tc t
  let h := hdrOf tile
  let o := (steerOuts r).headD 0
  match selectOf r y h with
  | .wait n => d.tcWait c t .waitIn (.summary (16 * t + n))
  | .index n =>
    if 2 ≤ n then d.badSelect c t n
    else if n = 1 ∧ !h.eos then d.steerTake c t q h false
    else if (y.out o).credits = 0 then d.tcWait c t .waitOut (.output (16 * t + o))
    else
      let out := if n = 0 then tile else d.steerEos c q h.streamId h.seq
      let d1 := (d.steerTake c t q h h.eos).steerSend c t o out
      if h.eos then d1.steerDone c t r else d1

/-- REPEAT: `pass` is the copy that goes next; END_OF_STREAM stays only on the last copy. -/
def Dev.steerRepeat (d : Dev) (c t q : Nat) (r : CfgRec) (tile : List Byte) : Dev :=
  let y := (d.cell c).tc t
  let h := hdrOf tile
  let o := (steerOuts r).headD 0
  let n := y.steer.n
  if n = 0 then
    if !h.eos then d.steerTake c t q h false
    else if (y.out o).credits = 0 then d.tcWait c t .waitOut (.output (16 * t + o))
    else ((d.steerTake c t q h true).steerSend c t o (d.steerEos c q h.streamId h.seq)).steerDone c t r
  else if (y.out o).credits = 0 then d.tcWait c t .waitOut (.output (16 * t + o))
  else
    let last := decide (n ≤ y.steer.pass)
    d.steerTile c q tile (h.eos && last) fun out =>
      if last then
        let d1 := (d.steerTake c t q h h.eos).modTc c t fun z => { z with steer := { z.steer with pass := 1 } }
        let d2 := d1.steerSend c t o out
        if h.eos then d2.steerDone c t r else d2
      else (d.modTc c t fun z => { z with steer := { z.steer with pass := z.steer.pass + 1 } }).steerSend c t o out

/-- LOOP: inputs entry and back, outputs body and exit; a pass ends with its END_OF_STREAM. -/
def Dev.steerLoop (d : Dev) (c t q : Nat) (r : CfgRec) (tile : List Byte) : Dev :=
  let y := (d.cell c).tc t
  let h := hdrOf tile
  let exit_ := decide (y.steer.n < y.steer.pass)
  match steerOut r (if exit_ then 1 else 0) with
  | none => d.badSelect c t (if exit_ then 1 else 0)
  | some o =>
    if (y.out o).credits = 0 then d.tcWait c t .waitOut (.output (16 * t + o))
    else
      let d1 := (d.steerTake c t q h h.eos).steerSend c t o tile
      if !h.eos then d1
      else if exit_ then d1.steerDone c t r
      else d1.modTc c t fun z => { z with steer := { z.steer with pass := z.steer.pass + 1 } }

/-- The input of a merge to forward from: the lowest sequence number once every input that has not ended holds a tile, or the earliest arrival; ties go to the
lowest input. The other answer is the input that the construct waits for. -/
def Dev.mergePick (d : Dev) (c t : Nat) (r : CfgRec) : Except Nat (Option (Nat × QSlot × List Byte)) :=
  let y := (d.cell c).tc t
  let live := (steerIns r).filter fun q => !y.inEnded.contains q
  let held := live.filterMap fun q => (d.front c q).map fun f => (q, f.1, f.2)
  let lacking := live.find? fun q => (d.front c q).isNone
  let key := fun (f : Nat × QSlot × List Byte) => if r.b 0 = cMergeOrdered then (hdrOf f.2.2).seq else f.2.1.at_
  let best := held.foldl (fun (b : Option (Nat × QSlot × List Byte)) f =>
    match b with
    | none => some f
    | some g => if key f < key g then some f else some g) none
  match lacking with
  | some q => if r.b 0 = cMergeOrdered ∨ best.isNone then .error q else .ok best
  | none => .ok best

/-- MERGE_ORDERED and MERGE_UNORDERED. -/
def Dev.steerMerge (d : Dev) (c t : Nat) (r : CfgRec) : Dev :=
  let y := (d.cell c).tc t
  let o := (steerOuts r).headD 0
  match d.mergePick c t r with
  | .error q => (d.demand c q).tcWait c t .waitIn (.queue q)
  | .ok none =>
    if (y.out o).credits = 0 then d.tcWait c t .waitOut (.output (16 * t + o))
    else (d.steerSend c t o (d.steerEos c ((steerIns r).headD 0) y.steer.lastStream y.steer.lastSeq)).steerDone c t r
  | .ok (some (q, _, tile)) =>
    let h := hdrOf tile
    if h.empty ∧ h.eos then d.steerTake c t q h true
    else if (y.out o).credits = 0 then d.tcWait c t .waitOut (.output (16 * t + o))
    else d.steerTile c q tile false fun out => (d.steerTake c t q h h.eos).steerSend c t o out

/-- STEER_TILE: a running steering context routes one tile. -/
def opSteerTile (c t : Nat) (d : Dev) : Dev :=
  let y := (d.cell c).tc t
  match steerRec (d.cell c).active t with
  | some r =>
    if y.st != .running then d
    else if r.b 0 = cMergeOrdered ∨ r.b 0 = cMergeUnordered then d.steerMerge c t r
    else
      let q := if 5 ≤ r.b 0 ∧ 1 < y.steer.pass then (steerIns r).getD 1 0 else (steerIns r).headD 0
      match d.front c q with
      | none => (d.demand c q).tcWait c t .waitIn (.queue q)
      | some (_, tile) =>
        if r.b 0 = cBranch then d.steerBranch c t q r tile
        else if r.b 0 = cFilter then d.steerFilter c t q r tile
        else if r.b 0 = cRepeat then d.steerRepeat c t q r tile
        else d.steerLoop c t q r tile
  | none => d

/-! ### The watchdog (R61, R62) -/

/-- Does a task context wait for something that counts toward the watchdog? A queue fed from another device does not. -/
def watched (x : Cell) (y : Tc) : Bool :=
  (y.st == .waitIn || y.st == .waitOut) &&
    match y.wait with
    | .queue q => (match queueRec x.active q with | some r => !bit (r.b 3) 0 | none => true)
    | .none => false
    | _ => true

/-- The watchdog's limit in ps. -/
def Dev.wdogLimit (d : Dev) (c : Nat) : Nat :=
  let n := d.rf (Reg.DBG_WDOG c) Fld.DBG_WDOG_LIMIT
  us * (if n = 0 then 10 else n)

/-- Cause and detail of a stall (Table 2-11). -/
def Dev.stallOf (d : Dev) (c t : Nat) : Nat × Nat :=
  let x := d.cell c
  let st := stationOf x.active t
  match (x.tc t).wait with
  | .queue q =>
    let i := if q < 16 then d.queueIssue c q else d.fab.issues.find? fun j => j.cell == c && j.sd.buffered && 64 + j.buf == q
    match i with
    | some j => (1, st * 2 ^ 48 + j.sd.producer * 2 ^ 32 + j.sd.streamId * 65536 + q % 16)
    | none => (1, st * 2 ^ 48 + 0xFFFF * 2 ^ 32 + q % 16)
  | .output o =>
    let q := match outRec x.active t (o % 16) with | some r => r.b 4 | none => 0
    match d.outIssue c t (o % 16) with
    | some j => (2, st * 2 ^ 48 + j.sd.consumer * 2 ^ 32 + j.sd.streamId * 65536 + q % 16)
    | none => (2, st * 2 ^ 48 + 0xFFFF * 2 ^ 32 + q % 16)
  | .summary r => (3, st * 2 ^ 48 + r % 16)
  | .none => (1, st * 2 ^ 48)

/-- STALL_WATCHDOG: the first stall of a comb in a step epoch is recorded, every other is counted. -/
def opStallWatchdog (c t : Nat) (d : Dev) : Dev :=
  let x := d.cell c
  let y := x.tc t
  let k := combOf c
  if watched x y ∧ x.haltAt.isNone ∧ d.combPs k = 3 ∧ y.since + d.wdogLimit c ≤ d.ps then
    if d.fab.stalled.contains k then d.dbg c (Reg.DBG_STALL_SUPPR c) 1
    else
      let s := d.stallOf c t
      let d1 : Dev := { d with fab := { d.fab with stalled := k :: d.fab.stalled } }
      d1.cellFault c cStall s.1 s.2
  else d

def execSteerTile (c : CellIdx) (t : TcIdx) (s : State) : Host.Outcome State Fault Refusal := done s (opSteerTile c t s.dev)
def execStallWatchdog (c : CellIdx) (t : TcIdx) (s : State) : Host.Outcome State Fault Refusal := done s (opStallWatchdog c t s.dev)

end Sys2Proof.Machine
end

