-- ==== Sys2Proof/Machine/Dispatch.lean ====
section
/-!
DEFINITION. One arm per command: the meaning it calls. The meaning of a command is its effect on everything but the queue.
-/
namespace Sys2Proof.Machine

def exec (i : Instr) (s : State) : Host.Outcome State Fault Refusal :=
  match i with
  | .registerWrite v off val => Sys2Proof.Machine.execRegisterWrite v off val s
  | .packetInject c p => Sys2Proof.Machine.execPacketInject c p s
  | .tile p => Sys2Proof.Machine.execTile p s
  | .readReq p => Sys2Proof.Machine.execReadReq p s
  | .readResp p => Sys2Proof.Machine.execReadResp p s
  | .write p => Sys2Proof.Machine.execWrite p s
  | .writeAck p => Sys2Proof.Machine.execWriteAck p s
  | .qcredit p => Sys2Proof.Machine.execQcredit p s
  | .summary p => Sys2Proof.Machine.execSummary p s
  | .wkcFetchAdd p => Sys2Proof.Machine.execWkcFetchAdd p s
  | .wkcRead p => Sys2Proof.Machine.execWkcRead p s
  | .wkcReset p => Sys2Proof.Machine.execWkcReset p s
  | .wkcResp p => Sys2Proof.Machine.execWkcResp p s
  | .cfgWrite p => Sys2Proof.Machine.execCfgWrite p s
  | .cfgAck p => Sys2Proof.Machine.execCfgAck p s
  | .cellDrainSend c => Sys2Proof.Machine.execCellDrainSend c s
  | .drain p => Sys2Proof.Machine.execDrain p s
  | .drainBarrierComplete p => Sys2Proof.Machine.execDrainBarrierComplete p s
  | .stallWatchdog c t => Sys2Proof.Machine.execStallWatchdog c t s
  | .steerTile c t => Sys2Proof.Machine.execSteerTile c t s
  | .dbgTcHalt v c halt => Sys2Proof.Machine.execDbgTcHalt v c halt s
  | .dbgFreeze v c freeze => Sys2Proof.Machine.execDbgFreeze v c freeze s
  | .dbgClr v c => Sys2Proof.Machine.execDbgClr v c s
  | .nop c t o => Sys2Proof.Machine.execNop c t o s
  | .endProgram c t o => Sys2Proof.Machine.execEndProgram c t o s
  | .jump c t o => Sys2Proof.Machine.execJump c t o s
  | .bnz c t o => Sys2Proof.Machine.execBnz c t o s
  | .take c t o => Sys2Proof.Machine.execTake c t o s
  | .put c t o => Sys2Proof.Machine.execPut c t o s
  | .ldrow c t o => Sys2Proof.Machine.execLdrow c t o s
  | .strow c t o => Sys2Proof.Machine.execStrow c t o s
  | .chain c t o => Sys2Proof.Machine.execChain c t o s
  | .rdbank c t o => Sys2Proof.Machine.execRdbank c t o s
  | .sumsend c t o => Sys2Proof.Machine.execSumsend c t o s
  | .waitsum c t o => Sys2Proof.Machine.execWaitsum c t o s
  | .tileProductDone c t j => Sys2Proof.Machine.execTileProductDone c t j s
  | .fp32Add c t o => Sys2Proof.Machine.execFp32Add c t o s
  | .fp32Sub c t o => Sys2Proof.Machine.execFp32Sub c t o s
  | .fp32Mul c t o => Sys2Proof.Machine.execFp32Mul c t o s
  | .fp32Fma c t o => Sys2Proof.Machine.execFp32Fma c t o s
  | .fp32Neg c t o => Sys2Proof.Machine.execFp32Neg c t o s
  | .fp32Abs c t o => Sys2Proof.Machine.execFp32Abs c t o s
  | .fp32Min c t o => Sys2Proof.Machine.execFp32Min c t o s
  | .fp32Max c t o => Sys2Proof.Machine.execFp32Max c t o s
  | .fp32Cmp c t o => Sys2Proof.Machine.execFp32Cmp c t o s
  | .sel c t o => Sys2Proof.Machine.execSel c t o s
  | .bf16Add c t o => Sys2Proof.Machine.execBf16Add c t o s
  | .bf16Sub c t o => Sys2Proof.Machine.execBf16Sub c t o s
  | .bf16Mul c t o => Sys2Proof.Machine.execBf16Mul c t o s
  | .bf16Fma c t o => Sys2Proof.Machine.execBf16Fma c t o s
  | .bf16Min c t o => Sys2Proof.Machine.execBf16Min c t o s
  | .bf16Max c t o => Sys2Proof.Machine.execBf16Max c t o s
  | .int32Add c t o => Sys2Proof.Machine.execInt32Add c t o s
  | .int32Sub c t o => Sys2Proof.Machine.execInt32Sub c t o s
  | .int32Mul c t o => Sys2Proof.Machine.execInt32Mul c t o s
  | .int32And c t o => Sys2Proof.Machine.execInt32And c t o s
  | .int32Or c t o => Sys2Proof.Machine.execInt32Or c t o s
  | .int32Xor c t o => Sys2Proof.Machine.execInt32Xor c t o s
  | .int32Shl c t o => Sys2Proof.Machine.execInt32Shl c t o s
  | .int32Shr c t o => Sys2Proof.Machine.execInt32Shr c t o s
  | .int32Sar c t o => Sys2Proof.Machine.execInt32Sar c t o s
  | .int32Min c t o => Sys2Proof.Machine.execInt32Min c t o s
  | .int32Max c t o => Sys2Proof.Machine.execInt32Max c t o s
  | .int32Cmp c t o => Sys2Proof.Machine.execInt32Cmp c t o s
  | .uint16Adds c t o => Sys2Proof.Machine.execUint16Adds c t o s
  | .convert c t o => Sys2Proof.Machine.execConvert c t o s
  | .exp2 c t o => Sys2Proof.Machine.execExp2 c t o s
  | .log2 c t o => Sys2Proof.Machine.execLog2 c t o s
  | .rsqrt c t o => Sys2Proof.Machine.execRsqrt c t o s
  | .rcp c t o => Sys2Proof.Machine.execRcp c t o s
  | .tanh c t o => Sys2Proof.Machine.execTanh c t o s
  | .browAdd c t o => Sys2Proof.Machine.execBrowAdd c t o s
  | .browSub c t o => Sys2Proof.Machine.execBrowSub c t o s
  | .browMul c t o => Sys2Proof.Machine.execBrowMul c t o s
  | .browMin c t o => Sys2Proof.Machine.execBrowMin c t o s
  | .browMax c t o => Sys2Proof.Machine.execBrowMax c t o s
  | .bcolAdd c t o => Sys2Proof.Machine.execBcolAdd c t o s
  | .bcolSub c t o => Sys2Proof.Machine.execBcolSub c t o s
  | .bcolMul c t o => Sys2Proof.Machine.execBcolMul c t o s
  | .bcolMin c t o => Sys2Proof.Machine.execBcolMin c t o s
  | .bcolMax c t o => Sys2Proof.Machine.execBcolMax c t o s
  | .rsum c t o => Sys2Proof.Machine.execRsum c t o s
  | .rmax c t o => Sys2Proof.Machine.execRmax c t o s
  | .rmin c t o => Sys2Proof.Machine.execRmin c t o s
  | .csum c t o => Sys2Proof.Machine.execCsum c t o s
  | .cmax c t o => Sys2Proof.Machine.execCmax c t o s
  | .cmin c t o => Sys2Proof.Machine.execCmin c t o s
  | .vsum c t o => Sys2Proof.Machine.execVsum c t o s
  | .vmax c t o => Sys2Proof.Machine.execVmax c t o s
  | .vmin c t o => Sys2Proof.Machine.execVmin c t o s
  | .vargmax c t o => Sys2Proof.Machine.execVargmax c t o s
  | .vargmin c t o => Sys2Proof.Machine.execVargmin c t o s
  | .sqBndw k j o => Sys2Proof.Machine.execSqBndw k j o s
  | .sqBndr k j o => Sys2Proof.Machine.execSqBndr k j o s
  | .sqIssue k j o => Sys2Proof.Machine.execSqIssue k j o s
  | .sqChain k j o => Sys2Proof.Machine.execSqChain k j o s
  | .sqWait k j o => Sys2Proof.Machine.execSqWait k j o s
  | .sqSumr k j o => Sys2Proof.Machine.execSqSumr k j o s
  | .sqSump k j o => Sys2Proof.Machine.execSqSump k j o s
  | .sqWkc k j o => Sys2Proof.Machine.execSqWkc k j o s
  | .sqWkcrst k j o => Sys2Proof.Machine.execSqWkcrst k j o s
  | .sqPreload k j o => Sys2Proof.Machine.execSqPreload k j o s
  | .sqMolt k j o => Sys2Proof.Machine.execSqMolt k j o s
  | .sqStat k j o => Sys2Proof.Machine.execSqStat k j o s
  | .sqStep k j o => Sys2Proof.Machine.execSqStep k j o s
  | .sqVote k j o => Sys2Proof.Machine.execSqVote k j o s
  | .sqLaunch k j o => Sys2Proof.Machine.execSqLaunch k j o s
  | .sequencerException k j => Sys2Proof.Machine.execSequencerException k j s
  | .foragerTransferSend k f => Sys2Proof.Machine.execForagerTransferSend k f s
  | .fqLimitWrite v k f val => Sys2Proof.Machine.execFqLimitWrite v k f val s
  | .registerImage v p h origin => Sys2Proof.Machine.execRegisterImage v p h origin s
  | .registrationEnd p => Sys2Proof.Machine.execRegistrationEnd p s
  | .retire v p h => Sys2Proof.Machine.execRetire v p h s
  | .flipStart p => Sys2Proof.Machine.execFlipStart p s
  | .flipEnd p => Sys2Proof.Machine.execFlipEnd p s
  | .abortingEnd p => Sys2Proof.Machine.execAbortingEnd p s
  | .loaderCopy p => Sys2Proof.Machine.execLoaderCopy p s
  | .loaderTransform p => Sys2Proof.Machine.execLoaderTransform p s
  | .loaderJxp p => Sys2Proof.Machine.execLoaderJxp p s
  | .loaderJobEnd p srcOk => Sys2Proof.Machine.execLoaderJobEnd p srcOk s
  | .ldTailWrite v p val => Sys2Proof.Machine.execLdTailWrite v p val s
  | .ldBaseWrite v p val => Sys2Proof.Machine.execLdBaseWrite v p val s
  | .msCreate v p e => Sys2Proof.Machine.execMsCreate v p e s
  | .msSeal v p e h => Sys2Proof.Machine.execMsSeal v p e h s
  | .msDelete v p e => Sys2Proof.Machine.execMsDelete v p e s
  | .patrolSlotCheck => Sys2Proof.Machine.execPatrolSlotCheck s
  | .repairEnd srcOk => Sys2Proof.Machine.execRepairEnd srcOk s
  | .loopStart v c => Sys2Proof.Machine.execLoopStart v c s
  | .loopStop v c => Sys2Proof.Machine.execLoopStop v c s
  | .loopResume v c => Sys2Proof.Machine.execLoopResume v c s
  | .submit v p n => Sys2Proof.Machine.execSubmit v p n s
  | .cancel v p n => Sys2Proof.Machine.execCancel v p n s
  | .release v p n => Sys2Proof.Machine.execRelease v p n s
  | .reqDescWrite v n w val => Sys2Proof.Machine.execReqDescWrite v n w val s
  | .stepBoundary p => Sys2Proof.Machine.execStepBoundary p s
  | .attemptStart c => Sys2Proof.Machine.execAttemptStart c s
  | .emptyCommit c => Sys2Proof.Machine.execEmptyCommit c s
  | .commitApplied c => Sys2Proof.Machine.execCommitApplied c s
  | .headPoll n => Sys2Proof.Machine.execHeadPoll n s
  | .pauseTimeout n => Sys2Proof.Machine.execPauseTimeout n s
  | .eventHeadPoll p => Sys2Proof.Machine.execEventHeadPoll p s
  | .demote v p => Sys2Proof.Machine.execDemote v p s
  | .pfxRelease v p => Sys2Proof.Machine.execPfxRelease v p s
  | .prefixCopyEnd b => Sys2Proof.Machine.execPrefixCopyEnd b s
  | .start x => Sys2Proof.Machine.execStart x s
  | .vote x => Sys2Proof.Machine.execVote x s
  | .decideMsg x => Sys2Proof.Machine.execDecideMsg x s
  | .ack x => Sys2Proof.Machine.execAck x s
  | .abort x => Sys2Proof.Machine.execAbort x s
  | .ackDeadline c => Sys2Proof.Machine.execAckDeadline c s
  | .broodCommitApply c => Sys2Proof.Machine.execBroodCommitApply c s
  | .memberDecisionTimeout c => Sys2Proof.Machine.execMemberDecisionTimeout c s
  | .handoffTile x => Sys2Proof.Machine.execHandoffTile x s
  | .handoffCommit x => Sys2Proof.Machine.execHandoffCommit x s
  | .handoffCopyEnd c => Sys2Proof.Machine.execHandoffCopyEnd c s
  | .handoffAck x => Sys2Proof.Machine.execHandoffAck x s
  | .choiceTile e p q tile => Sys2Proof.Machine.execChoiceTile e p q tile s
  | .xptEntry x => Sys2Proof.Machine.execXptEntry x s
  | .xptEnd x => Sys2Proof.Machine.execXptEnd x s
  | .expertAdmitNotify c layer => Sys2Proof.Machine.execExpertAdmitNotify c layer s
  | .expertOutputTile e p q tile => Sys2Proof.Machine.execExpertOutputTile e p q tile s
  | .xptReturn x => Sys2Proof.Machine.execXptReturn x s
  | .xptDrop x => Sys2Proof.Machine.execXptDrop x s
  | .combineNotify c layer => Sys2Proof.Machine.execCombineNotify c layer s
  | .expertWaitTimeout c e => Sys2Proof.Machine.execExpertWaitTimeout c e s
  | .xptClr v => Sys2Proof.Machine.execXptClr v s
  | .ctxEnable v c => Sys2Proof.Machine.execCtxEnable v c s
  | .ctxDisable v c => Sys2Proof.Machine.execCtxDisable v c s
  | .ctxSettingsWrite v c handle brood prio => Sys2Proof.Machine.execCtxSettingsWrite v c handle brood prio s
  | .preemptTimer p => Sys2Proof.Machine.execPreemptTimer p s
  | .stepDeadline p => Sys2Proof.Machine.execStepDeadline p s
  | .partCreate v p => Sys2Proof.Machine.execPartCreate v p s
  | .scrubEnd p => Sys2Proof.Machine.execScrubEnd p s
  | .partSeal v p => Sys2Proof.Machine.execPartSeal v p s
  | .partTeardown v p => Sys2Proof.Machine.execPartTeardown v p s
  | .partIsolateWrite v isolate => Sys2Proof.Machine.execPartIsolateWrite v isolate s
  | .partShareWrite v p val => Sys2Proof.Machine.execPartShareWrite v p val s
  | .partCapWrite v p val => Sys2Proof.Machine.execPartCapWrite v p val s
  | .acctRelease v j => Sys2Proof.Machine.execAcctRelease v j s
  | .acctZero v j => Sys2Proof.Machine.execAcctZero v j s
  | .linkFlit l f => Sys2Proof.Machine.execLinkFlit l f s
  | .idleFlitTimer l => Sys2Proof.Machine.execIdleFlitTimer l s
  | .portTrainStart l => Sys2Proof.Machine.execPortTrainStart l s
  | .portTrained l => Sys2Proof.Machine.execPortTrained l s
  | .portTrainTimeout l => Sys2Proof.Machine.execPortTrainTimeout l s
  | .portHelloTimeout l => Sys2Proof.Machine.execPortHelloTimeout l s
  | .portSilence l => Sys2Proof.Machine.execPortSilence l s
  | .portFecLimit l => Sys2Proof.Machine.execPortFecLimit l s
  | .laneLockLoss l lanes => Sys2Proof.Machine.execLaneLockLoss l lanes s
  | .portRetrain v l => Sys2Proof.Machine.execPortRetrain v l s
  | .portDisable v l disable => Sys2Proof.Machine.execPortDisable v l disable s
  | .hello l x => Sys2Proof.Machine.execHello l x s
  | .helloTimer l => Sys2Proof.Machine.execHelloTimer l s
  | .broodFlagClear => Sys2Proof.Machine.execBroodFlagClear s
  | .e2eAck x => Sys2Proof.Machine.execE2eAck x s
  | .e2eAckTimer src cls => Sys2Proof.Machine.execE2eAckTimer src cls s
  | .packetRetransmit dst cls fseq => Sys2Proof.Machine.execPacketRetransmit dst cls fseq s
  | .nackUnreach x => Sys2Proof.Machine.execNackUnreach x s
  | .relayForward kind x => Sys2Proof.Machine.execRelayForward kind x s
  | .linkLossResend l => Sys2Proof.Machine.execLinkLossResend l s
  | .heartbeat x => Sys2Proof.Machine.execHeartbeat x s
  | .heartbeatTimer node => Sys2Proof.Machine.execHeartbeatTimer node s
  | .memberLossTimeout node => Sys2Proof.Machine.execMemberLossTimeout node s
  | .withdraw l x => Sys2Proof.Machine.execWithdraw l x s
  | .lnkDomainWrite v p val => Sys2Proof.Machine.execLnkDomainWrite v p val s
  | .remoteTile x => Sys2Proof.Machine.execRemoteTile x s
  | .remoteQcredit x => Sys2Proof.Machine.execRemoteQcredit x s
  | .remoteWkcReq x => Sys2Proof.Machine.execRemoteWkcReq x s
  | .remoteWkcResp x => Sys2Proof.Machine.execRemoteWkcResp x s
  | .serveTile x => Sys2Proof.Machine.execServeTile x s
  | .collData x => Sys2Proof.Machine.execCollData x s
  | .collAbort x => Sys2Proof.Machine.execCollAbort x s
  | .remoteWaitTimeout j => Sys2Proof.Machine.execRemoteWaitTimeout j s
  | .rhello a x => Sys2Proof.Machine.execRhello a x s
  | .rkeep a x => Sys2Proof.Machine.execRkeep a x s
  | .rleave a x => Sys2Proof.Machine.execRleave a x s
  | .expel a x => Sys2Proof.Machine.execExpel a x s
  | .loopFrame a x => Sys2Proof.Machine.execLoopFrame a x s
  | .ctrlMsg a x => Sys2Proof.Machine.execCtrlMsg a x s
  | .ctrlAck a x => Sys2Proof.Machine.execCtrlAck a x s
  | .bcData a x => Sys2Proof.Machine.execBcData a x s
  | .bcEnd a x => Sys2Proof.Machine.execBcEnd a x s
  | .bcNak a x => Sys2Proof.Machine.execBcNak a x s
  | .hopMiss a hseq => Sys2Proof.Machine.execHopMiss a hseq s
  | .hopSilence a => Sys2Proof.Machine.execHopSilence a s
  | .expelRepeat a => Sys2Proof.Machine.execExpelRepeat a s
  | .hopLossTimeout a => Sys2Proof.Machine.execHopLossTimeout a s
  | .loopTimer => Sys2Proof.Machine.execLoopTimer s
  | .rkeepTimer a => Sys2Proof.Machine.execRkeepTimer a s
  | .rhelloTimer a => Sys2Proof.Machine.execRhelloTimer a s
  | .ringInsert v => Sys2Proof.Machine.execRingInsert v s
  | .ringRemove v => Sys2Proof.Machine.execRingRemove v s
  | .driveRemoval => Sys2Proof.Machine.execDriveRemoval s
  | .switchInserted => Sys2Proof.Machine.execSwitchInserted s
  | .switchBypassed => Sys2Proof.Machine.execSwitchBypassed s
  | .bypassNLow => Sys2Proof.Machine.execBypassNLow s
  | .ringPortTrained a => Sys2Proof.Machine.execRingPortTrained a s
  | .ringTrainTimeout a => Sys2Proof.Machine.execRingTrainTimeout a s
  | .ringHelloTimeout a => Sys2Proof.Machine.execRingHelloTimeout a s
  | .lightReturn a => Sys2Proof.Machine.execLightReturn a s
  | .ringRetrain v a => Sys2Proof.Machine.execRingRetrain v a s
  | .ctrlMsgResend mseq => Sys2Proof.Machine.execCtrlMsgResend mseq s
  | .bcStart v k => Sys2Proof.Machine.execBcStart v k s
  | .bcClose v k => Sys2Proof.Machine.execBcClose v k s
  | .bcFrameSend k => Sys2Proof.Machine.execBcFrameSend k s
  | .bcEndRepeat k => Sys2Proof.Machine.execBcEndRepeat k s
  | .bcNakTimer p => Sys2Proof.Machine.execBcNakTimer p s
  | .broadcastJobTimeout p => Sys2Proof.Machine.execBroadcastJobTimeout p s
  | .ethernetFrame e f => Sys2Proof.Machine.execEthernetFrame e f s
  | .rdmaWrite q va rkey data => Sys2Proof.Machine.execRdmaWrite q va rkey data s
  | .rdmaRead q va rkey len => Sys2Proof.Machine.execRdmaRead q va rkey len s
  | .sendMsg q data => Sys2Proof.Machine.execSendMsg q data s
  | .rdmaReadResponse q data => Sys2Proof.Machine.execRdmaReadResponse q data s
  | .rdmaNak q n => Sys2Proof.Machine.execRdmaNak q n s
  | .rdmaRetryTimeout q => Sys2Proof.Machine.execRdmaRetryTimeout q s
  | .cnp q => Sys2Proof.Machine.execCnp q s
  | .rateIncreaseTimer q => Sys2Proof.Machine.execRateIncreaseTimer q s
  | .pauseFrame e prios quanta => Sys2Proof.Machine.execPauseFrame e prios quanta s
  | .lldpTimer e => Sys2Proof.Machine.execLldpTimer e s
  | .lldpdu e chassis port => Sys2Proof.Machine.execLldpdu e chassis port s
  | .qpToInit v q => Sys2Proof.Machine.execQpToInit v q s
  | .qpToRtr v q => Sys2Proof.Machine.execQpToRtr v q s
  | .qpToRts v q => Sys2Proof.Machine.execQpToRts v q s
  | .qpToReset v q => Sys2Proof.Machine.execQpToReset v q s
  | .qpToError v q => Sys2Proof.Machine.execQpToError v q s
  | .clkinLoss => Sys2Proof.Machine.execClkinLoss s
  | .clkinReturn => Sys2Proof.Machine.execClkinReturn s
  | .pllLock d => Sys2Proof.Machine.execPllLock d s
  | .muxHang d => Sys2Proof.Machine.execMuxHang d s
  | .domainReset v d => Sys2Proof.Machine.execDomainReset v d s
  | .fcMeasure v val => Sys2Proof.Machine.execFcMeasure v val s
  | .fcDone count => Sys2Proof.Machine.execFcDone count s
  | .monitorPoll => Sys2Proof.Machine.execMonitorPoll s
  | .combRetEntry p => Sys2Proof.Machine.execCombRetEntry p s
  | .combOffEntry p => Sys2Proof.Machine.execCombOffEntry p s
  | .combTransitionDone k => Sys2Proof.Machine.execCombTransitionDone k s
  | .combWakeDone k => Sys2Proof.Machine.execCombWakeDone k s
  | .fireflySendTimer scope => Sys2Proof.Machine.execFireflySendTimer scope s
  | .fireflyRequest m => Sys2Proof.Machine.execFireflyRequest m s
  | .fireflyReply m => Sys2Proof.Machine.execFireflyReply m s
  | .parentTimeout => Sys2Proof.Machine.execParentTimeout s
  | .resync v => Sys2Proof.Machine.execResync v s
  | .ptpMessage e tod => Sys2Proof.Machine.execPtpMessage e tod s
  | .launchArm v n val => Sys2Proof.Machine.execLaunchArm v n val s
  | .launchCancel v n val => Sys2Proof.Machine.execLaunchCancel v n val s
  | .launchRefuse x => Sys2Proof.Machine.execLaunchRefuse x s
  | .verdictExpiry => Sys2Proof.Machine.execVerdictExpiry s
  | .launchPreload n => Sys2Proof.Machine.execLaunchPreload n s
  | .launchGuard n => Sys2Proof.Machine.execLaunchGuard n s
  | .launchMolt n => Sys2Proof.Machine.execLaunchMolt n s
  | .launchStepStart n => Sys2Proof.Machine.execLaunchStepStart n s
  | .launchCollective n => Sys2Proof.Machine.execLaunchCollective n s
  | .launchPowerState n => Sys2Proof.Machine.execLaunchPowerState n s
  | .launchModelSwitch n => Sys2Proof.Machine.execLaunchModelSwitch n s
  | .governorTick e => Sys2Proof.Machine.execGovernorTick e s
  | .calibration mw pkg => Sys2Proof.Machine.execCalibration mw pkg s
  | .droopDetect k => Sys2Proof.Machine.execDroopDetect k s
  | .droopRecover k => Sys2Proof.Machine.execDroopRecover k s
  | .throtInFall => Sys2Proof.Machine.execThrotInFall s
  | .throtInRise => Sys2Proof.Machine.execThrotInRise s
  | .extStretchEnd k => Sys2Proof.Machine.execExtStretchEnd k s
  | .pwrHbBeat v => Sys2Proof.Machine.execPwrHbBeat v s
  | .safeCapTimeout => Sys2Proof.Machine.execSafeCapTimeout s
  | .emergencyAbort => Sys2Proof.Machine.execEmergencyAbort s
  | .currentLimit r => Sys2Proof.Machine.execCurrentLimit r s
  | .emergencyHoldEnd => Sys2Proof.Machine.execEmergencyHoldEnd s
  | .tempPoll dies hbm => Sys2Proof.Machine.execTempPoll dies hbm s
  | .reasonAnnounce j => Sys2Proof.Machine.execReasonAnnounce j s
  | .fixedModeWrite v p val => Sys2Proof.Machine.execFixedModeWrite v p val s
  | .powerOn => Sys2Proof.Machine.execPowerOn s
  | .porstN => Sys2Proof.Machine.execPorstN s
  | .pgMainFall => Sys2Proof.Machine.execPgMainFall s
  | .pgMainRise => Sys2Proof.Machine.execPgMainRise s
  | .mgmtWatchdog => Sys2Proof.Machine.execMgmtWatchdog s
  | .bootStageEnd o => Sys2Proof.Machine.execBootStageEnd o s
  | .bootStageTimeout => Sys2Proof.Machine.execBootStageTimeout s
  | .dhcpv6Reply e url => Sys2Proof.Machine.execDhcpv6Reply e url s
  | .tftpData e oack block data => Sys2Proof.Machine.execTftpData e oack block data s
  | .netbootPortTimeout e => Sys2Proof.Machine.execNetbootPortTimeout e s
  | .backoffEnd => Sys2Proof.Machine.execBackoffEnd s
  | .reset v => Sys2Proof.Machine.execReset v s
  | .retryNow v => Sys2Proof.Machine.execRetryNow v s
  | .continueBoot v => Sys2Proof.Machine.execContinueBoot v s
  | .fwWrite v slot => Sys2Proof.Machine.execFwWrite v slot s
  | .fwWriteEnd => Sys2Proof.Machine.execFwWriteEnd s
  | .arbRaise v => Sys2Proof.Machine.execArbRaise v s
  | .psrWrite v n val => Sys2Proof.Machine.execPsrWrite v n val s
  | .psrGroupCommit v count => Sys2Proof.Machine.execPsrGroupCommit v count s
  | .psrOpComplete => Sys2Proof.Machine.execPsrOpComplete s
  | .sliceDue => Sys2Proof.Machine.execSliceDue s
  | .sliceStart => Sys2Proof.Machine.execSliceStart s
  | .sliceSkip => Sys2Proof.Machine.execSliceSkip s
  | .sliceEnd fail => Sys2Proof.Machine.execSliceEnd fail s
  | .quote v => Sys2Proof.Machine.execQuote v s
  | .quoteDone v => Sys2Proof.Machine.execQuoteDone v s
  | .keyAdd v p j => Sys2Proof.Machine.execKeyAdd v p j s
  | .keyClear v p j => Sys2Proof.Machine.execKeyClear v p j s
  | .macsecCak v => Sys2Proof.Machine.execMacsecCak v s
  | .dbgLock v => Sys2Proof.Machine.execDbgLock v s
  | .railUndervoltage r => Sys2Proof.Machine.execRailUndervoltage r s
  | .faultRecordWrite => Sys2Proof.Machine.execFaultRecordWrite s
  | .rdmaAck q psn => Sys2Proof.Machine.execRdmaAck q psn s
  | .sequencerBaseInstruction k j => Sys2Proof.Machine.execSequencerBaseInstruction k j s
  | .pgAonFall => Sys2Proof.Machine.execPgAonFall s
  | .porstNLow => Sys2Proof.Machine.execPorstNLow s
  | .bypassNHigh => Sys2Proof.Machine.execBypassNHigh s
  | .monitorPollEnd counts => Sys2Proof.Machine.execMonitorPollEnd counts s
  | .hostPortUp e => Sys2Proof.Machine.execHostPortUp e s
  | .hostPortDown e => Sys2Proof.Machine.execHostPortDown e s

end Sys2Proof.Machine
end

