-- ==== Sys2Proof/Machine/Router.lean ====
section
/-!
DEFINITION. The input buffers of the routers, link credits and arbitration (R31, R44, R48, R49). A cycle of the mesh clock moves flits one router on; a packet is delivered by its own command, which takes
it out of the mesh wherever its flits are (log entry 89).
-/
namespace Sys2Proof.Machine

/-! ### Buffers and credits (R48) -/

/-- Depth of an input buffer by virtual channel (Table 2-8): DATA, RESP, CTRL, CFG. -/
def vcDepth (vc : Nat) : Nat := if vc = 0 then 16 else if vc = 1 then 8 else if vc = 2 then 4 else 8

def Flight.vc (f : Flight) : Nat := f.pkt.flit.vc.toNat

/-- Flits that the packet has in an input buffer of a router. -/
def Flight.heldAt (f : Flight) (router port vc : Nat) : Nat :=
  if f.vc = vc then f.hops.foldl (fun a h => if h.router = router ∧ h.port = port then a + h.held else a) 0 else 0

/-- Flits in an input buffer. -/
def occupied (fs : List Flight) (router port vc : Nat) : Nat := fs.foldl (fun a f => a + f.heldAt router port vc) 0

/-- Link credits that the router before an input buffer holds: the free places of the buffer. -/
def linkCredits (fs : List Flight) (router port vc : Nat) : Nat := vcDepth vc - occupied fs router port vc

/-- No buffer on the way of a packet holds more flits than its depth. -/
def buffersOk (fs : List Flight) : Bool := fs.all fun f => f.hops.all fun h => occupied fs h.router h.port f.vc ≤ vcDepth f.vc

/-! ### The way of a packet -/

/-- The router and the input port by which a packet enters the mesh: a forager's READ_REQ by the local port of the forager, what an edge die sends by the outer port of the
router that SRC names, any other by the local port there. -/
def entryOf (p : Packet) : Nat × Nat :=
  let k := p.flit.kind.toNat
  if k = 2 then (forCell (combOf p.src) (forOf p.src), 4)
  else
    let x := cellX p.src
    let y := cellY p.src
    let edge := !p.outer && (k == 3 || k == 5 || k == 1 && p.tag / 64 != 0)
    (p.src, if edge && x == 0 then 3 else if edge && x == 127 then 1 else if edge && y == 0 then 0 else if edge && y == 63 then 2 else 4)

/-- The direction from one router to a neighbour. -/
def dirTo (a b : Nat) : Nat := if cellY b < cellY a then 0 else if cellX a < cellX b then 1 else if cellY a < cellY b then 2 else 3

/-- The port of a neighbour that faces a direction's sender: N faces S, E faces W. -/
def facing (dir : Nat) : Nat := (dir + 2) % 4

/-- The buffers and output ports along a list of routers: the first is entered by `port`, the last left by `out`. -/
def alongRoute (now port out : Nat) : List Nat → List Hop × List Nat
  | [] => ([], [])
  | [r] => ([⟨r, port, 0, now⟩], [out])
  | r :: q :: rest => (⟨r, port, 0, now⟩ :: (alongRoute now (facing (dirTo r q)) out (q :: rest)).1, dirTo r q :: (alongRoute now (facing (dirTo r q)) out (q :: rest)).2)

/-- The port by which a packet leaves its last router: the local port, or the outer port that EJECT names. -/
def exitPort (p : Packet) : Nat :=
  let e := p.flit.eject.toNat
  if e = 1 then (if p.flit.dstY.toNat = 0 then 0 else 2) else if e = 2 then (if p.flit.dstX.toNat = 0 then 3 else 1) else 4

/-- A packet that has just been injected: all its flits are still to enter. -/
def newFlight (now : Nat) (p : Packet) : Flight :=
  let e := entryOf p
  let l := match routeOf p e.1 with | some (r, _, _) => r | none => []
  let w := alongRoute now e.2 (exitPort p) (e.1 :: l)
  ⟨p, w.2, p.flits, w.1⟩

/-- What the routers hold of the packets in the mesh: a packet that has left is forgotten, one that is new has its flits before it. -/
def reconcile (now : Nat) : List Flight → List Packet → List Flight
  | _, [] => []
  | fs, p :: ps =>
    match fs.find? fun f => f.pkt == p with
    | some f => f :: reconcile now (fs.erase f) ps
    | none => newFlight now p :: reconcile now fs ps

/-! ### Arbitration (R49) -/

/-- A flit that could leave a buffer: the packet's place in the list, its buffer's place on the route, and the router, input port, output port and channel. -/
structure Ready where
  flight : Nat
  hop : Nat
  router : Nat
  inPort : Nat
  outPort : Nat
  vc : Nat
  deriving DecidableEq, Repr

/-- Has the packet sent its first flit through the output of its buffer j, and not its last? -/
def Flight.holds (f : Flight) (j : Nat) : Bool :=
  let before := f.toEnter + (f.hops.take (j + 1)).foldl (fun a h => a + h.held) 0
  0 < before && before < f.pkt.flits

/-- Is buffer j's flit of this packet at the front of its buffer: no other packet's flit came there before? -/
def atFront (fs : List Flight) (i : Nat) (f : Flight) (h : Hop) : Bool :=
  fs.zipIdx.all fun q => q.2 == i || q.1.vc != f.vc || q.1.hops.all fun z =>
    !(z.router == h.router && z.port == h.port && 0 < z.held && (z.since < h.since || z.since == h.since && q.2 < i))

/-- Has the next router a free place: a link credit? An output to a local or outer port takes every flit. -/
def hasCredit (fs : List Flight) (f : Flight) (j : Nat) : Bool :=
  match f.hops[j + 1]? with
  | some n => 0 < linkCredits fs n.router n.port f.vc
  | none => true

/-- Does another packet hold this output port and channel? -/
def otherHolds (fs : List Flight) (i router out vc : Nat) : Bool :=
  fs.zipIdx.any fun q => q.2 != i && q.1.vc == vc && (q.1.hops.zipIdx.any fun z => z.1.router == router && q.1.outs[z.2]? == some out && q.1.holds z.2)

/-- The flits that could move in this cycle. -/
def readyFlits (fs : List Flight) : List Ready :=
  fs.zipIdx.flatMap fun q => q.1.hops.zipIdx.filterMap fun z =>
    let out := q.1.outs.getD z.2 4
    if 0 < z.1.held && atFront fs q.2 q.1 z.1 && hasCredit fs q.1 z.2 && !otherHolds fs q.2 z.1.router out q.1.vc then
      some ⟨q.2, z.2, z.1.router, z.1.port, out, q.1.vc⟩
    else none

/-- Keys of the round-robin turns: of the channels at an output port, and of the input ports at an output port and channel. A turn is one more than who was served last. -/
def chanKey (router out : Nat) : Nat := 8 * (5 * router + out) + 7
def inKey (router out vc : Nat) : Nat := 8 * (5 * router + out) + vc

/-- The channel that an output port serves: CTRL first; else the next of DATA, RESP and CFG after the one served last. -/
def pickChan (last : Nat) (vcs : List Nat) : Option Nat :=
  if vcs.contains 2 then some 2 else ([0, 1, 2, 3].map fun k => (last + k) % 4).find? fun v => vcs.contains v

/-- The flit that an output port sends. -/
def grant (turns : Store Nat) (rs : List Ready) (router out : Nat) : Option Ready :=
  let here := rs.filter fun r => r.router == router && r.outPort == out
  (pickChan (sget (fun _ => 0) turns (chanKey router out)) (here.map (·.vc))).bind fun v =>
    ([0, 1, 2, 3, 4].map fun k => (sget (fun _ => 0) turns (inKey router out v) + k) % 5).findSome? fun port => here.find? fun r => r.vc == v && r.inPort == port

/-- The grants of a cycle: one for each output port. -/
def grants (turns : Store Nat) (rs : List Ready) : List Ready :=
  ((rs.map fun r => (r.router, r.outPort)).eraseDups).filterMap fun q => grant turns rs q.1 q.2

/-- The turns after a grant: CTRL takes no turn of the shared channels, and a packet's later flits are no new turn of its input port. -/
def takeTurn (m : Store Nat) (r : Ready) : Store Nat :=
  let m1 := if r.vc = 2 then m else sput (fun _ => 0) m (chanKey r.router r.outPort) ((r.vc + 1) % 4)
  sput (fun _ => 0) m1 (inKey r.router r.outPort r.vc) ((r.inPort + 1) % 5)

/-! ### A cycle -/

/-- One flit more in a buffer. -/
def Hop.gain (now : Nat) (h : Hop) : Hop := { h with held := h.held + 1, since := if h.held = 0 then now else h.since }

/-- The flit of buffer j moves on. -/
def Flight.advance (now : Nat) (f : Flight) (j : Nat) : Flight :=
  { f with hops := f.hops.zipIdx.map fun z => if z.2 = j then { z.1 with held := z.1.held - 1 } else if z.2 = j + 1 then z.1.gain now else z.1 }

/-- Of the packets that wait before an entry port, the first with room on its channel enters one flit: is it this one? -/
def entersNow (fs : List Flight) (i : Nat) (f : Flight) : Bool :=
  match f.hops.head? with
  | some h =>
    let room := fun (g : Flight) => 0 < linkCredits fs h.router h.port g.vc
    0 < f.toEnter && room f && fs.zipIdx.all fun q => i ≤ q.2 || !(0 < q.1.toEnter && (q.1.hops.head?.any fun z => z.router == h.router && z.port == h.port) && (q.1.vc == f.vc || room q.1))
  | none => false

/-- The packet's first buffer takes a flit. -/
def Flight.enterFlit (now : Nat) (f : Flight) : Flight :=
  { f with toEnter := f.toEnter - 1, hops := match f.hops with | h :: t => h.gain now :: t | [] => [] }

/-- A packet that has left every buffer needs none. -/
def Flight.trim (f : Flight) : Flight := if f.toEnter = 0 ∧ (f.hops.all fun h => h.held == 0) then { f with outs := [], hops := [] } else f

/-- One cycle of the mesh clock. -/
def meshCycle (now : Nat) (fs : List Flight) (turns : Store Nat) : List Flight × Store Nat :=
  let gs := grants turns (readyFlits fs)
  (fs.zipIdx.map fun q =>
    let f1 := gs.foldl (fun (f : Flight) r => if r.flight = q.2 then f.advance now r.hop else f) q.1
    (if entersNow fs q.2 q.1 then f1.enterFlit now else f1).trim, gs.foldl takeTurn turns)

/-- The routers of the device through one cycle: packets injected since the last one wait at their entry port. -/
def Dev.routeFlits (d : Dev) : Dev :=
  let c := meshCycle d.ps (reconcile d.ps d.routers d.fab.transit) d.turns
  { d with routers := c.1, turns := c.2 }

end Sys2Proof.Machine
end

