-- ==== Sys2Proof/Machine/Tick.lean ====
section
/-!
DEFINITION. What time alone does: one tick of the reference clock of 0.8 ns (log entry 4). It is what the block does when no command waits.
-/
namespace Sys2Proof.Machine

/-- The step counters of the partitions whose current attempt executes count cycles of the origin comb (R299). -/
def Dev.countSteps (d : Dev) : Dev :=
  (List.range 16).foldl (fun (e : Dev) p =>
    match d.curCtx p with
    | some c =>
      if d.phase c = phExecute then { e with sch := { e.sch with counter := sput (fun _ => 0) e.sch.counter p (d.stepCount p + 4 * d.originKhz p c / 5) } }
      else e
    | none => e) d

/-- The time for which an armed timed molt keeps a due slice waiting does not count toward its 10 s (R477). -/
def Dev.sliceClock (d : Dev) : Dev :=
  match d.ownerOf (groupComb (d.rf Reg.BIST_STAT Fld.BIST_STAT_NEXT)) with
  | some p => if d.rf Reg.BIST_STAT Fld.BIST_STAT_DUE = 1 ∧ d.timedMolt p then { d with bist := { d.bist with fellAt := d.bist.fellAt + 800 } } else d
  | none => d

/-- Cycles of comb k's clock that end in the tick that ends now. -/
def Dev.combCycles (d : Dev) (k : Nat) : Nat :=
  let m := d.combKhz k
  d.ps * m / 1000000000 - (d.ps - 800) * m / 1000000000

/-- The watchdog of a cell counts `n` ticks of SYSTIME where 800 ps of the model's clock have passed: waits are as old as SYSTIME makes them (R61). -/
def ageWaits (x : Cell) (n : Nat) : Cell :=
  if n = 1 then x
  else { x with tcs := x.tcs.map fun (q : Nat × Tc) =>
    if q.2.st = .waitIn ∨ q.2.st = .waitOut then (q.1, { q.2 with since := q.2.since + 800 - 800 * n }) else q }

/-- A tick at one cell, in which SYSTIME advanced by n: in an ACTIVE comb its cycles of waiting without an issue are counted (R64) and the watchdog counts SYSTIME; in any other the watchdog
does not count (R61). -/
def Dev.tickCell (n : Nat) (d0 : Dev) (c : Nat) : Dev :=
  let d := if (d0.cell c).haltAt.isNone then d0.setCell c (ageWaits (d0.cell c) (if d0.combPs (combOf c) = 3 then n else 0)) else d0
  let x := d.cell c
  let some_ := fun (st : TcState) => x.tcs.any fun q => q.2.st == st
  if d.combPs (combOf c) = 3 then
    if some_ .running then d
    else if some_ .waitIn then d.dbg c (Reg.DBG_CYC_WAIT_IN c) (d.combCycles (combOf c))
    else if some_ .waitOut then d.dbg c (Reg.DBG_CYC_WAIT_OUT c) (d.combCycles (combOf c))
    else d
  else d

def Dev.tickCells (d : Dev) (n : Nat) : Dev := (d.fab.cells.map (·.1)).foldl (Dev.tickCell n) d

/-- Errors that the memories make in a tick, a free value (log entry 92): only populated units of T1 and T2 hold one. -/
def Dev.dramTick (d : Dev) : Dev :=
  let new := match Config.dramError d.fresh with
    | some q => if t1Base ≤ q.1 * 512 ∧ d.mapped (q.1 * 512) then [⟨q.1, q.2⟩] else []
    | none => []
  { d.drawn with ldr := { d.ldr with ecc := d.ldr.ecc ++ new } }

/-- A running SEAL ends (R305; log entry 93). -/
def Dev.sealTick (d : Dev) : Dev :=
  match d.sch.sealing with
  | some p => d.endSeal p
  | none => d

/-- One tick: the model's clock moves on by 800 ps; unless the device has no supply or is held in reset, SYSTIME advances, steps and waiting cells are counted, and what waits at
the host ports is processed, received or to be sent, and the routers move flits by one cycle of the mesh clock, 1.25 GHz (R32, R48); a DRAM may make an error, and a SEAL and the key commands that run end. -/
def opTick (d : Dev) : Dev :=
  let d1 : Dev := { d with ps := d.ps + 800 }
  if d1.boot.held ∨ d1.boot.porstLow ∨ !d1.boot.pgAon then d1 else ((d1.advanceTime.countSteps.tickCells (d1.advanceTime.sysTime.toNat - d1.sysTime.toNat)).sliceClock.pfcDrain.hostRelease).routeFlits.dramTick.sealTick.secTick

def tick (s : State) : Host.Outcome State Fault Refusal := done s (opTick s.dev)

end Sys2Proof.Machine
end

