-- ==== Sys2Proof/Safety.lean ====
section
/-!
DEFINITION. The terms that claims use: what a command that runs leaves, and which parts of the device stay as they were.
-/
namespace Sys2Proof.Safety

open Sys2Proof.Machine

/-- A step answers a next state. -/
def StepsOn (s : State) : Prop := ∃ t, step s = .next t

/-- Command i runs at s: the next state has the queue of s, and its device is one with P whose levels and pins have settled (what settling changes is
a statement of its own). -/
def Does (i : Instr) (s : State) (P : Dev → Prop) : Prop := ∃ e, exec i s = .next { s with dev := settle e } ∧ P e

/-- Every register outside a list reads as before. -/
def RegsBut (l : List Nat) (d e : Dev) : Prop := ∀ o, o ∉ l → e.rd o = d.rd o

/-- Fields that share no bit and lie inside a word. -/
def Apart (f g : Fld) : Prop := f.lo + f.w ≤ 64 ∧ (g.lo + g.w ≤ f.lo ∨ f.lo + f.w ≤ g.lo)

/-- Of the registers only one field of one register may differ, and it reads n. -/
def FieldNow (d e : Dev) (off : Nat) (f : Fld) (n : Nat) : Prop :=
  e.rf off f = n % 2 ^ f.w ∧ (∀ g, Apart f g → e.rf off g = d.rf off g) ∧ RegsBut [off] d e

/-- Nothing but registers differs. -/
def OnlyRegs (d e : Dev) : Prop := e = { d with regs := e.regs }

/-- Every byte of memory outside n bytes at a reads as before. -/
def BytesBut (a n : Nat) (d e : Dev) : Prop := ∀ x, (x < a ∨ a + n ≤ x) → e.byte x = d.byte x

/-- A saturating counter field of w bits after n more. -/
def satAdd (w v n : Nat) : Nat := min (v + n) (2 ^ w - 1)

/-! ### Cells -/

/-- Lane k of v register n of a cell, s register n of a task context, and element (r, k) of a bank (R33 to R36). -/
def vLane (d : Dev) (c n k : Nat) : W32 := sget (fun _ => 0#32) (d.cell c).vregs (64 * n + k)
def sReg (d : Dev) (c t n : Nat) : SumReg := ((d.cell c).tc t).sum n
def accAt (d : Dev) (c b r k : Nat) : W32 := sget (fun _ => 0#32) (d.cell c).acc (4096 * b + 64 * r + k)

/-- What a cell instruction that waits for nothing leaves outside its cell: everything but memory as before, the active-cycle counter and the
partition's activity one cycle on (R64, R312), free values drawn. -/
def CellFrame (d e : Dev) (c : Nat) (draws : Bool) : Prop :=
  e = { d with regs := e.regs, mem := e.mem, sch := (d.chargeCell c).sch, fab := { d.fab with cells := e.fab.cells }, fresh := d.fresh + b2n draws } ∧
  (∀ x, x ≠ c → e.cell x = d.cell x) ∧
  RegsBut [Reg.DBG_CYC_ACTIVE c] d e ∧
  e.rf (Reg.DBG_CYC_ACTIVE c) cnt48 = (if d.frozen c then d.rf (Reg.DBG_CYC_ACTIVE c) cnt48 else satAdd 48 (d.rf (Reg.DBG_CYC_ACTIVE c) cnt48) 1)

/-- Inside the cell: task context t has word `pc` next and the time of its last progress; its s registers, the v registers and the banks may
differ, nothing else of it does. -/
def ContextAt (d e : Dev) (c t pc : Nat) : Prop :=
  e.cell c = { d.cell c with vregs := (e.cell c).vregs, acc := (e.cell c).acc, tcs := (e.cell c).tcs } ∧
  (∀ u, u ≠ t → (e.cell c).tc u = (d.cell c).tc u) ∧
  (e.cell c).tc t = { (d.cell c).tc t with pc := pc, since := d.ps, sums := ((e.cell c).tc t).sums }

/-- No register or bank of the cell differs. -/
def NoResult (d e : Dev) (c t : Nat) : Prop :=
  (e.cell c).vregs = (d.cell c).vregs ∧ (e.cell c).acc = (d.cell c).acc ∧ ((e.cell c).tc t).sums = ((d.cell c).tc t).sums

/-- An operand code of an instruction of task context t, resolved. -/
def operand (d : Dev) (c t : Nat) (o : CellOps) (code : BitVec 6) : Opnd := opnd (d.cell c) t code.toNat o.imm.toNat

/-- The places of a result that a register or a bank has (R33 to R36). -/
def placeOf : Opnd → Nat → Nat → Bool
  | .vreg n, r, k => n < 32 && r == 0 && k < 64
  | .sreg n, r, k => n < 16 && r == 0 && k == 0
  | .bank n, r, k => n < 2 && r < 64 && k < 64
  | _, _, _ => false

/-- Is an operand a register or a bank? -/
def isReg (p : Opnd) : Bool := placeOf p 0 0

/-- No operand is a tile buffer whose tile has not been checked yet (R103). -/
def checked (d : Dev) (c : Nat) (ps : List Opnd) : Prop := ∀ b, Opnd.buf b ∈ ps → b ∉ (d.cell c).bufFresh

/-- Rows and columns of an element-wise result: those that the destination and every source that is not broadcast have. -/
def resultExtent (d : Dev) (c : Nat) (dst : Opnd) (ps : List Opnd) : Nat × Nat :=
  (minExt ((match dst with | .sreg _ => some (1, 1) | p => d.extent c p) :: ps.map (d.extent c))).getD (0, 0)

/-- The elements of a result, and no others among registers and banks, are written. -/
def ResultAt (d e : Dev) (c t imm : Nat) (dst : Opnd) (rows cols : Nat) (f : Nat → Nat → W32) : Prop :=
  (∀ r k, placeOf dst r k → r < rows → k < cols → e.elem c t imm dst r k = f r k) ∧
  (∀ q r k, placeOf q r k → ¬ (q = dst ∧ r < rows ∧ k < cols) → e.elem c t imm q r k = d.elem c t imm q r k) ∧
  (∀ n u, ¬ (dst = .sreg n ∧ u = t ∧ 0 < rows ∧ 0 < cols) → sReg e c u n = sReg d c u n) ∧
  (∀ n, dst = .sreg n → 0 < rows → 0 < cols → sReg e c t n = ⟨f 0 0, true, false⟩)

/-- A row of Table 3-8 whose result is element by element: command, opcode, source operands, function. -/
structure ElemRow where
  cmd : CellIdx → TcIdx → CellOps → Instr
  opc : Nat
  srcs : CellOps → List (BitVec 6)
  fn : CellOps → List W32 → W32

def srcA (o : CellOps) : List (BitVec 6) := [o.a]
def srcAB (o : CellOps) : List (BitVec 6) := [o.a, o.b]
def srcABC (o : CellOps) : List (BitVec 6) := [o.a, o.b, o.c]

/-- FP32, selection and special functions. -/
def fpRows : List ElemRow := [
  ⟨.fp32Add, 0x10, srcAB, fun _ => bin f32Add⟩, ⟨.fp32Sub, 0x11, srcAB, fun _ => bin f32Sub⟩, ⟨.fp32Mul, 0x12, srcAB, fun _ => bin f32Mul⟩,
  ⟨.fp32Fma, 0x13, srcABC, fun _ => tern f32Fma⟩, ⟨.fp32Neg, 0x14, srcA, fun _ => un f32Neg⟩, ⟨.fp32Abs, 0x15, srcA, fun _ => un f32Abs⟩,
  ⟨.fp32Min, 0x20, srcAB, fun _ => bin f32Min⟩, ⟨.fp32Max, 0x21, srcAB, fun _ => bin f32Max⟩, ⟨.fp32Cmp, 0x22, srcAB, fun o => bin (fpCmpOp o)⟩,
  ⟨.sel, 0x23, srcABC, fun _ => tern fun a b m => if m = 0 then b else a⟩,
  ⟨.exp2, 0x70, srcA, fun _ => un sfExp2⟩, ⟨.log2, 0x71, srcA, fun _ => un sfLog2⟩, ⟨.rsqrt, 0x72, srcA, fun _ => un sfRsqrt⟩,
  ⟨.rcp, 0x73, srcA, fun _ => un sfRcp⟩, ⟨.tanh, 0x74, srcA, fun _ => un sfTanh⟩]

/-- Packed BF16, INT32 and UINT16. -/
def intRows : List ElemRow := [
  ⟨.bf16Add, 0x30, srcAB, fun _ => bin (bf16Lanes fpAdd)⟩, ⟨.bf16Sub, 0x31, srcAB, fun _ => bin (bf16Lanes fpSub)⟩,
  ⟨.bf16Mul, 0x32, srcAB, fun _ => bin (bf16Lanes fpMul)⟩, ⟨.bf16Fma, 0x33, srcABC, fun _ => tern bf16Fma⟩,
  ⟨.bf16Min, 0x34, srcAB, fun _ => bin (bf16Lanes fpMin)⟩, ⟨.bf16Max, 0x35, srcAB, fun _ => bin (bf16Lanes fpMax)⟩,
  ⟨.int32Add, 0x40, srcAB, fun _ => bin fun a b => BitVec.ofInt 32 (a.toInt + b.toInt)⟩,
  ⟨.int32Sub, 0x41, srcAB, fun _ => bin fun a b => BitVec.ofInt 32 (a.toInt - b.toInt)⟩,
  ⟨.int32Mul, 0x42, srcAB, fun _ => bin fun a b => BitVec.ofInt 32 (a.toInt * b.toInt)⟩,
  ⟨.int32And, 0x43, srcAB, fun _ => bin (· &&& ·)⟩, ⟨.int32Or, 0x44, srcAB, fun _ => bin (· ||| ·)⟩, ⟨.int32Xor, 0x45, srcAB, fun _ => bin (· ^^^ ·)⟩,
  ⟨.int32Shl, 0x46, srcAB, fun _ => bin fun a b => a <<< (b.toNat % 32)⟩, ⟨.int32Shr, 0x47, srcAB, fun _ => bin fun a b => a >>> (b.toNat % 32)⟩,
  ⟨.int32Sar, 0x48, srcAB, fun _ => bin fun a b => a.sshiftRight (b.toNat % 32)⟩,
  ⟨.int32Min, 0x49, srcAB, fun _ => bin fun a b => if a.slt b then a else b⟩, ⟨.int32Max, 0x4A, srcAB, fun _ => bin fun a b => if a.slt b then b else a⟩,
  ⟨.int32Cmp, 0x4B, srcAB, fun o => bin (intCmpOp o)⟩, ⟨.uint16Adds, 0x50, srcAB, fun _ => bin u16Adds⟩]

/-- A broadcast: command, opcode, whether B runs along the rows' direction (BROW) or the columns' (BCOL), function. -/
structure BcastRow where
  cmd : CellIdx → TcIdx → CellOps → Instr
  opc : Nat
  row : Bool
  fn : W32 → W32 → W32

def bcastRows : List BcastRow := [
  ⟨.browAdd, 0x80, true, f32Add⟩, ⟨.browSub, 0x81, true, f32Sub⟩, ⟨.browMul, 0x82, true, f32Mul⟩, ⟨.browMin, 0x83, true, f32Min⟩,
  ⟨.browMax, 0x84, true, f32Max⟩, ⟨.bcolAdd, 0x85, false, f32Add⟩, ⟨.bcolSub, 0x86, false, f32Sub⟩, ⟨.bcolMul, 0x87, false, f32Mul⟩,
  ⟨.bcolMin, 0x88, false, f32Min⟩, ⟨.bcolMax, 0x89, false, f32Max⟩]

/-- A reduction of a tile or bank: command, opcode, whether it reduces rows, its function of a list. -/
structure ReduceRow where
  cmd : CellIdx → TcIdx → CellOps → Instr
  opc : Nat
  row : Bool
  fn : List W32 → W32

/-- The greatest, or least, of a nonempty list under R87; over no elements −∞ or +∞ (Table 3-9). -/
def maxOf : List W32 → W32
  | [] => 0xFF800000#32
  | a :: l => l.foldl f32Max (toF32 (f32 a))
def minOf : List W32 → W32
  | [] => 0x7F800000#32
  | a :: l => l.foldl f32Min (toF32 (f32 a))

def reduceRows : List ReduceRow := [
  ⟨.rsum, 0x90, true, tree⟩, ⟨.rmax, 0x91, true, maxOf⟩, ⟨.rmin, 0x92, true, minOf⟩, ⟨.csum, 0x93, false, tree⟩, ⟨.cmax, 0x94, false, maxOf⟩,
  ⟨.cmin, 0x95, false, minOf⟩]

/-- A reduction of a register's lanes to an s register: command, opcode, its function of the lanes. -/
structure ScalarRow where
  cmd : CellIdx → TcIdx → CellOps → Instr
  opc : Nat
  fn : List W32 → W32

/-- The index of the greatest (least) element, 0xFFFFFFFF of none (Table 3-9). -/
def argOf (least : Bool) (l : List W32) : W32 := match argBest least l with | some k => BitVec.ofNat 32 k | none => 0xFFFFFFFF#32

def scalarRows : List ScalarRow := [
  ⟨.vsum, 0xA0, tree⟩, ⟨.vmax, 0xA1, maxOf⟩, ⟨.vmin, 0xA2, minOf⟩, ⟨.vargmax, 0xA3, argOf false⟩, ⟨.vargmin, 0xA4, argOf true⟩]

/-! ### The mesh -/

/-- Does a packet pass the checks of injection at a cell's router (R47, R51, R54)? -/
def enters (d : Dev) (src : Nat) (p : Packet) : Bool :=
  kindOk p &&
  (match routeOf p src with
   | some (_, x, y) => x == p.flit.dstX.toNat && y == p.flit.dstY.toNat && hasPort p.flit.eject.toNat x y
   | none => false) &&
  (p.outer || ((d.partOfComb (combOf src)).isSome && d.partOfComb (combOf p.dst) == d.partOfComb (combOf src)))

/-- A packet as the router of a cell passes it on: PART is the partition of the cell's comb. -/
def stamped (d : Dev) (src : Nat) (p : Packet) : Packet := p.withPart ((d.partOfComb (combOf src)).getD 0)

/-- The router's counters of every cell. -/
def flitCounter (o : Nat) : Prop := ∃ c, o = Reg.DBG_FLIT_INJ c ∨ o = Reg.DBG_FLIT_TRANSIT c ∨ o = Reg.DBG_FLIT_EJ c

/-- Every register but the flit counters and those of a list reads as before. -/
def RegsButFlits (l : List Nat) (d e : Dev) : Prop := ∀ o, o ∉ l → ¬ flitCounter o → e.rd o = d.rd o

/-- Is a packet at its destination, of its kind and channel, and of the cell's generation unless it carries configuration (R47, R52)? -/
def arrives (d : Dev) (kind : Nat) (p : Packet) : Bool :=
  p.flit.kind.toNat == kind && kindOk p && (kind == 0x10 || kind == 0x11 || p.gen == (d.cell p.dst).gen.toNat)

/-! ### Sequencers -/

/-- Sequencer i of comb k, which partition p owns, is ready and has this custom instruction next (R149, R151). -/
def seqIssues (d : Dev) (k i f7 f3 : Nat) (o : SeqOps) (p : Nat) : Prop :=
  d.partOfComb k = some p ∧ d.seqReady k i = true ∧ d.seqFetch k i = some (seqWord f7 f3 o, 4)

/-- Nothing but sequencer i of comb k differs. -/
def OthersAsBefore (d e : Dev) (k i : Nat) : Prop :=
  e = { d with fab := { d.fab with seqs := e.fab.seqs } } ∧ ∀ k2 j, 4 * k2 + j ≠ 4 * k + i → e.seq k2 j = d.seq k2 j

/-- The instruction completed: rd holds v, x0 stays zero, the pc is 4 further, nothing else differs. -/
def SeqDone (d e : Dev) (k i rd : Nat) (v : Word) : Prop :=
  e.seq k i = { d.seq k i with x := (e.seq k i).x, pc := (d.seq k i).pc + 4 } ∧
  (∀ r, (e.seq k i).get r = if r = rd ∧ r ≠ 0 then v else (d.seq k i).get r) ∧ OthersAsBefore d e k i

/-- The sequencer waits; nothing else differs. -/
def SeqWaits (d e : Dev) (k i : Nat) (w : SeqWait) : Prop := e.seq k i = { d.seq k i with wait := w } ∧ OthersAsBefore d e k i

/-- A register-register instruction of RV64IM: opcode, funct7, funct3, function. -/
structure RvRow where
  opc : Nat
  f7 : Nat
  f3 : Nat
  fn : Word → Word → Word

def lo32 (a : Word) : W32 := a.truncate 32

def rvRows : List RvRow := [
  ⟨0x33, 0, 0, fun a b => a + b⟩, ⟨0x33, 0x20, 0, fun a b => a - b⟩, ⟨0x33, 0, 1, fun a b => a <<< (b.toNat % 64)⟩,
  ⟨0x33, 0, 2, fun a b => if a.slt b then 1 else 0⟩, ⟨0x33, 0, 3, fun a b => if a.ult b then 1 else 0⟩, ⟨0x33, 0, 4, fun a b => a ^^^ b⟩,
  ⟨0x33, 0, 5, fun a b => a >>> (b.toNat % 64)⟩, ⟨0x33, 0x20, 5, fun a b => a.sshiftRight (b.toNat % 64)⟩, ⟨0x33, 0, 6, fun a b => a ||| b⟩,
  ⟨0x33, 0, 7, fun a b => a &&& b⟩, ⟨0x33, 1, 0, fun a b => a * b⟩,
  ⟨0x33, 1, 1, fun a b => (a.signExtend 128 * b.signExtend 128).extractLsb' 64 64⟩, ⟨0x33, 1, 2, fun a b => (a.signExtend 128 * b.zeroExtend 128).extractLsb' 64 64⟩,
  ⟨0x33, 1, 3, fun a b => (a.zeroExtend 128 * b.zeroExtend 128).extractLsb' 64 64⟩, ⟨0x33, 1, 4, fun a b => if b = 0 then BitVec.allOnes 64 else a.sdiv b⟩,
  ⟨0x33, 1, 5, fun a b => if b = 0 then BitVec.allOnes 64 else a / b⟩, ⟨0x33, 1, 6, fun a b => if b = 0 then a else a.srem b⟩,
  ⟨0x33, 1, 7, fun a b => if b = 0 then a else a % b⟩,
  ⟨0x3B, 0, 0, fun a b => (lo32 a + lo32 b).signExtend 64⟩, ⟨0x3B, 0x20, 0, fun a b => (lo32 a - lo32 b).signExtend 64⟩,
  ⟨0x3B, 0, 1, fun a b => (lo32 a <<< (b.toNat % 32)).signExtend 64⟩, ⟨0x3B, 0, 5, fun a b => (lo32 a >>> (b.toNat % 32)).signExtend 64⟩,
  ⟨0x3B, 0x20, 5, fun a b => ((lo32 a).sshiftRight (b.toNat % 32)).signExtend 64⟩, ⟨0x3B, 1, 0, fun a b => (lo32 a * lo32 b).signExtend 64⟩,
  ⟨0x3B, 1, 4, fun a b => if lo32 b = 0 then BitVec.allOnes 64 else ((lo32 a).sdiv (lo32 b)).signExtend 64⟩,
  ⟨0x3B, 1, 5, fun a b => if lo32 b = 0 then BitVec.allOnes 64 else (lo32 a / lo32 b).signExtend 64⟩,
  ⟨0x3B, 1, 6, fun a b => if lo32 b = 0 then (lo32 a).signExtend 64 else ((lo32 a).srem (lo32 b)).signExtend 64⟩,
  ⟨0x3B, 1, 7, fun a b => if lo32 b = 0 then (lo32 a).signExtend 64 else (lo32 a % lo32 b).signExtend 64⟩]

/-! ### Molts -/

/-- The CFG_WRITE packets of one cell's records: one a packet, TAG the number that follow (R39, R155). -/
def cfgPackets (c gen : Nat) (rs : List CfgRec) : List Packet :=
  rs.zipIdx.map fun r => mkPkt 0x10 gen c (forCell (combOf c) (forOf c)) (rs.length - 1 - r.2) 0 (recBytes r.1 (cellX c) (cellY c))

/-- Cells of an image's instar with their records. -/
def instarWrites (d : Dev) (i : Img) (n : Nat) : List (Nat × List CfgRec) :=
  (usedCells (d.instarRecs i n)).map fun c => (Dev.footCell i c.1 c.2, cellRecs (d.instarRecs i n) c.1 c.2)

/-! ### Serving and steps -/

/-- Registers that count what goes out on queue pairs, and events lost. -/
def hostTraffic (o : Nat) : Prop := (∃ q, o = Reg.LNK_QP q 7) ∨ (∃ e, o = Reg.LNK_HP_TX e) ∨ ∃ p, o = Reg.STEP_EVT_LOST p

/-- Every register but those and the ones of a list reads as before. -/
def RegsButTraffic (l : List Nat) (d e : Dev) : Prop := ∀ o, o ∉ l → ¬ hostTraffic o → e.rd o = d.rd o

/-- Every byte of memory outside the status of request n, its committed copy and, where blocks may go back, the block tables reads as before. -/
def RequestOnly (n : Nat) (blocks : Bool) (d e : Dev) : Prop :=
  ∀ x, (x < reqWork n + 256 ∨ reqWork n + 512 ≤ x) → (x < reqComm n ∨ reqComm n + 512 ≤ x) → (blocks = true → x < 0xFFE0000000 ∨ 0xFFEC000000 ≤ x) →
    e.byte x = d.byte x

/-- The attempt of context c of partition p has ended with a cause (R163, R250, R251): the registers record it (ORIGIN 0 in a device domain), F counts a counted cause, the same admissions will be replayed, and
the loop halts at F = 3 or when a participant is lost. -/
def Aborted (d e : Dev) (p c code fcause : Nat) (counted : Bool) (origin : Nat) : Prop :=
  let f := d.fails c + b2n counted
  e.phase c = phAbort ∧
  e.rd (Reg.STEP_ABORT c) = BitVec.ofNat 64 (code * 2 ^ 56 + (if code < 0x40 then fcause % 65536 else 0) * 2 ^ 40 + (if d.broodCtx c = true then origin % 8 else 0) * 2 ^ 37 + d.phase c * 2 ^ 32 +
    (d.att c).epoch % 2 ^ 32) ∧
  e.rf (Reg.STEP_ABORTS c) cnt48 = satAdd 48 (d.rf (Reg.STEP_ABORTS c) cnt48) 1 ∧ e.fails c = f % 4 ∧
  (e.att c).mustReplay = true ∧ (e.att c).votes = [] ∧ (e.att c).epoch = (d.att c).epoch ∧ (e.att c).admits = (d.att c).admits ∧
  e.loopState c = (if code = 0x43 ∨ (counted = true ∧ 3 ≤ f) then lpHalted else d.loopState c) ∧
  (d.moltState p ≠ mFlipping → e.moltState p = mAborting)

/-- Class, cause and detail of a record. -/
def recordOf (x : FaultRec) : Nat × Nat × Nat := (x.w0.toNat % 256, x.w0.toNat / 256 % 65536, x.detail.toNat)

/-- One more record waits for the collector: its class, cause and detail; the queue had room. -/
def Recorded (d e : Dev) (cls cause detail : Nat) : Prop :=
  e.fltq.length = d.fltq.length + 1 ∧ e.fltq.take d.fltq.length = d.fltq ∧ e.fltq.getLast?.map recordOf = some (cls, cause, detail % 2 ^ 64)

/-- The cause and the detail of a wait of partition p that R341 times out: a counter, a queue, or the issue in progress of a collective group. -/
def waitCause (d : Dev) (p : Nat) (w : RemoteWait) : Option (Nat × Nat) :=
  match w.kind with
  | .counter k _ n => if d.partOfComb k = some p then some (0x0F01, n * 2 ^ 32 + w.node) else none
  | .queue _ _ n => if d.partOfComb w.comb = some p then some (0x0F01, n * 2 ^ 32 + w.node) else none
  | .collective q n => if q = p ∧ (d.group (256 * p + n)).active.isSome then some (0x0F02, n * 2 ^ 56 + w.node) else none

/-- Sequenced packet x of a kind is whole, for this device, and the next of its flow, with nothing held behind it and fewer than 15 packets to
acknowledge; if it is partition-level, a partition holds its domain (R333 to R335). -/
def inTurn (d : Dev) (kind : Nat) (x : FrPkt) : Bool :=
  let r := d.flowRx x.src.toNat x.cls.toNat
  frOk kind x && x.dst.toNat == d.node && (List.range 3).all (fun c => (d.flowRx x.src.toNat c).session == x.session.toNat) &&
    r.next == x.fseq.toNat && r.held.isEmpty && decide (r.toAck + 1 < 16) && (kind == 0x60 || (d.partOfDomain x.domain.toNat).isSome)

/-- The flow of x goes on by one packet, which will be acknowledged. -/
def Heard (d e : Dev) (x : FrPkt) : Prop :=
  let r := d.flowRx x.src.toNat x.cls.toNat
  e.flowRx x.src.toNat x.cls.toNat = { r with next := (r.next + 1) % 2 ^ 32, toAck := r.toAck + 1, since := if r.toAck = 0 then d.ps else r.since }

/-- One more packet of a kind waits in the flow to a node for its acknowledgement, with ARG and payload. -/
def Queued (d e : Dev) (node kind : Nat) (arg : BitVec 248) (payload : List Byte) : Prop :=
  ∃ z : SentPkt, z.kind = kind ∧ z.pkt.arg = arg ∧ z.pkt.payload = payload ∧ z.pkt.fseq.toNat = (d.flowTx node ((kindClass kind).getD 0)).next % 2 ^ 32 ∧
    (e.flowTx node ((kindClass kind).getD 0)).unacked = (d.flowTx node ((kindClass kind).getD 0)).unacked ++ [z]

/-- A READ of 8 bytes goes out, or waits behind 16 others, on queue pair q. -/
def ReadSent (d e : Dev) (q va rkey : Nat) (use : ReadUse) : Prop :=
  ∃ r : QpReq, (e.qp q).reqs = (d.qp q).reqs ++ [r] ∧ r.op = 1 ∧ r.va = va ∧ r.rkey = rkey ∧ r.len = 8 ∧ r.use = use

/-- The counter of R286 that a packet of a kind moves on port l: none but for expert packets on brood links. -/
def expertBytes (kind l : Nat) (rx : Bool) : List Nat :=
  if l < 7 ∧ 0x30 ≤ kind ∧ kind ≤ 0x33 then [if rx then Reg.XPT_LINK_RX l else Reg.XPT_LINK_TX l] else []

/-- Output o has gone out since d. -/
def Sent (d e : Dev) (o : Output) : Prop := o ∈ e.out.take (e.out.length - d.out.length)

/-! ### Ring -/

/-- A ring frame whose HCRC and PCRC hold and whose HOPS is not 255 (R357, R358). -/
def ringWhole (kind : Nat) (x : RingFrame) : Bool :=
  x.hcrc.toNat == ringCrc kind x && x.hops != 255 && (x.payload.isEmpty || x.pcrc.toNat == ringPcrc x.payload)

/-- A frame goes on: out of the port of its direction with HOPS + 1 and everything that is not new at a hop kept, or, that port not UP, turned out of the other (R358, R363). -/
def Forwarded (d e : Dev) (kind : Nat) (x : RingFrame) : Prop :=
  let a := if x.up then 0 else 1
  let same := fun y : RingFrame => y.hops = x.hops + 1 ∧ y.src = x.src ∧ y.dst = x.dst ∧ y.seq = x.seq ∧ y.payload = x.payload ∧ y.arg = x.arg
  (d.ringState a = rUp → ∃ y, Sent d e (.ring a kind y) ∧ same y ∧ y.up = x.up ∧ y.turns = x.turns) ∧
  (d.ringState a ≠ rUp → d.ringState (1 - a) = rUp → x.turns.toNat < 2 → ∃ y, Sent d e (.ring (1 - a) kind y) ∧ same y ∧ y.up = !x.up ∧ y.turns = x.turns + 1)

/-- The registers in which a pre-emption request that arises shows (R297, R300). -/
def schedStats : List Nat := (List.range 16).map Reg.SCHED_STAT

/-! ### Resets and comb state -/

/-- Registers that a reset other than POWER_ON and PORST_N keeps: the fault log and BOOT_FAIL (R444, R457, R524). -/
def keptAtReset (o : Nat) : Prop := (0x2000000 ≤ o ∧ o < 0x3000000) ∨ o = Reg.BOOT_FAIL

/-- The device has been reset with a cause (R443, R444): nothing it held is left but persistent words and firmware slots, and every register reads its reset value but those that show the cause, the levels of
the inputs and the operator view's keys, and, from cause 2 on, the fault log and BOOT_FAIL. -/
def Restarted (d e : Dev) (cause : Nat) : Prop :=
  e.rf Reg.BOOT_STAT Fld.BOOT_STAT_CAUSE = cause ∧ e.stage = 1 ∧ e.ready = false ∧ e.mem = [] ∧ e.fab = Dev.powerOn.fab ∧ e.img = Dev.powerOn.img ∧ e.srv = Dev.powerOn.srv ∧
  e.sch = Dev.powerOn.sch ∧ e.ldr = Dev.powerOn.ldr ∧ e.ring.drive = false ∧ e.pwr.trip = false ∧ e.psr.words = d.psr.words ∧ e.psr.wear = d.psr.wear ∧ e.ps = d.ps ∧
  (∀ o, keptAtReset o → e.rd o = if 2 ≤ cause then d.rd o else Dev.powerOn.rd o) ∧
  (∀ o, ¬ keptAtReset o → o ∉ [Reg.BOOT_STAT, Reg.PWR_STAT, Reg.CLK_IN_STAT, Reg.LNK_RING_STAT, Reg.LNK_VIEW_KEY 0] → e.rd o = Dev.powerOn.rd o)

/-- Comb k has lost what it held: its cells, sequencers, bound registers and SRAM (Table 13-4). -/
def CombLost (e : Dev) (k : Nat) : Prop :=
  (∀ c, combOf c = k → e.cell c = Cell.zero) ∧ (∀ j, j < 4 → e.seq k j = SeqSt.zero) ∧ (∀ x, x < 0x80000000 → combOf (x / 0x40000) = k → e.byte x = 0)

/-- What every other comb holds is as before. -/
def CombsAsBefore (d e : Dev) (k : Nat) : Prop :=
  (∀ c, combOf c ≠ k → e.cell c = d.cell c) ∧ (∀ m j, m ≠ k → j < 4 → e.seq m j = d.seq m j) ∧ (∀ x, (0x80000000 ≤ x ∨ combOf (x / 0x40000) ≠ k) → e.byte x = d.byte x)

/-! ### Power -/

/-- One comparison of an estimate with a limit moved a ceiling by R426. -/
def Governed (c e : Ceil) (est limit now : Nat) : Prop :=
  (limit < est → e.step = c.step - 1) ∧ (limit * 98 ≤ est * 100 → e.step ≤ c.step ∧ e.below = none) ∧
  (est * 100 < limit * 98 → est ≤ limit → e.step = if c.step < 80 ∧ (∃ b, c.below = some b ∧ b + 110 * us ≤ now) ∧ c.raisedAt + 10 * us ≤ now then c.step + 1 else c.step)

/-! ### Levels -/

/-- Every signal that is a level of other state shows that level: comb states between IDLE and ACTIVE (R403), throttle targets and limits (R425), TIME_STAT.UNSURE and SWARM_TIME (R412), RING_IN and the colony master (R369, R407), powered dies (R26), the effective cap
(R425), ALERT_N and TRIP_N (R432, R437, R507). -/
def Levels (d : Dev) : Prop :=
  (∀ k : CombIdx, d.combPs k = d.combLevel k ∧ d.rf (Reg.PWR_COMB k) Fld.PWR_COMB_LIMIT = (d.limitsOf k).foldl min 15 ∧
    d.rf (Reg.PWR_COMB k) Fld.PWR_COMB_FSTEP = match d.ownerOf k with | some p => if 2 ≤ d.combPs k then d.target p else 0 | none => 0) ∧
  d.rf Reg.PWR_STAT Fld.PWR_STAT_LIMITING = (if d.mainOn then d.limiting else 0) ∧ d.rf Reg.PWR_STAT Fld.PWR_STAT_EFF_CAP = (if d.mainOn then d.effCap else 0) ∧
  d.rf Reg.TIME_STAT Fld.TIME_STAT_UNSURE = b2n d.unsure ∧ d.rf Reg.GLB_LEVEL Fld.GLB_LEVEL_SWARM_TIME = b2n (d.role == 3 && !d.unsure) ∧
  d.rf Reg.GLB_LEVEL Fld.GLB_LEVEL_RING_IN = b2n d.ringIn ∧ (d.colonyMaster = true → d.ringIn = true) ∧ d.rf Reg.GLB_DIE_PWR low40 = d.dieBits + 0x8000000000 ∧
  d.alertLow = (d.alertWanted && !d.pinsFree) ∧ d.rf Reg.PWR_STAT Fld.PWR_STAT_ALERT = b2n d.alertLow ∧ d.tripLow = (d.pwr.trip && !d.pinsFree)

/-! ### Launches -/

/-- Slot n with word w in TIME_LAUNCH_ACT, ARMED, before its checks (R415). -/
def armedDev (d : Dev) (n : Nat) (w : Word) : Dev :=
  let a := (((d.wr (Reg.TIME_LAUNCH_ACT n) (w &&& actMask)).wr (Reg.TIME_LAUNCH_STAT n) 0)).setSlotState n lsArmed
  a.setLaunchSt n { LaunchSt.zero with nodes := a.launchNodes n, handle := d.rf (Reg.SCHED_CTX (a.slotCtx n)) Fld.SCHED_CTX_HANDLE }

/-- Slot n has ended REFUSED with a class, cause and origin (R29). -/
def SlotRefused (e : Dev) (n cls cause origin : Nat) : Prop :=
  e.slotState n = lsRefused ∧ e.rf (Reg.TIME_LAUNCH_STAT n) Fld.TIME_LAUNCH_STAT_CLASS = cls ∧ e.rf (Reg.TIME_LAUNCH_STAT n) Fld.TIME_LAUNCH_STAT_CAUSE = cause ∧
  e.rf (Reg.TIME_LAUNCH_STAT n) Fld.TIME_LAUNCH_STAT_ORIGIN = origin % 2 ^ 18

/-- Slot n has FIRED, and SQ.LAUNCH has returned SYSTIME on sequencer j of comb k if it waited for the slot (R417). -/
def Fired (d e : Dev) (n : Nat) : Prop :=
  e.slotState n = lsFired ∧ ∀ k j rd, j < 4 → (d.seq k j).wait = .launch rd n → (e.seq k j).wait = .none ∧ (e.seq k j).pc = (d.seq k j).pc + 4 ∧ (e.seq k j).get rd = if rd = 0 then 0 else d.sysTime

end Sys2Proof.Safety
end

