-- ==== Sys2Proof/Certificates/Slice0/Obligations.lean ====
section
/-!
DEFINITION. What is claimed of the model: the statements for the provers.
-/
section
open Sys2Proof Sys2Proof.Machine Sys2Proof.Safety

/-! ### Cell instructions (chapter 03) -/

/-- R86, R87, R91: an FP32 or special-function instruction that is the next word of a running task context writes its function of the source elements in
every element that the result and the sources have, and the context goes on. R86: the same of the packed BF16, INT32 and UINT16 instructions. It
concludes that exec answers a next state, under conditions on state and operands alone, for: fp32Add, fp32Sub, fp32Mul, fp32Fma, fp32Neg, fp32Abs,
fp32Min, fp32Max, fp32Cmp, sel, bf16Add, bf16Sub, bf16Mul, bf16Fma, bf16Min, bf16Max, int32Add, int32Sub, int32Mul, int32And, int32Or, int32Xor,
int32Shl, int32Shr, int32Sar, int32Min, int32Max, int32Cmp, uint16Adds, exp2, log2, rsqrt, rcp, tanh. -/
def Obligations.FloatAndIntegerElements : Prop :=
  (
    ∀ row ∈ fpRows, ∀ (s : State) (c : CellIdx) (t : TcIdx) (o : CellOps),
      let d := s.dev
      let dst := operand d c t o o.d
      let ps := (row.srcs o).map (operand d c t o)
      let ext := resultExtent d c dst ps
      d.issues c t row.opc o = true → isReg dst = true → checked d c ps →
      Does (row.cmd c t o) s fun e =>
        ResultAt d e c t o.imm.toNat dst ext.1 ext.2 (fun r k => row.fn o (ps.map fun p => d.elem c t o.imm.toNat p r k)) ∧
        ContextAt d e c t (((d.cell c).tc t).pc + 1) ∧ CellFrame d e c (ps.any isFree) ∧ e.mem = d.mem) ∧
  (
    ∀ row ∈ intRows, ∀ (s : State) (c : CellIdx) (t : TcIdx) (o : CellOps),
      let d := s.dev
      let dst := operand d c t o o.d
      let ps := (row.srcs o).map (operand d c t o)
      let ext := resultExtent d c dst ps
      d.issues c t row.opc o = true → isReg dst = true → checked d c ps →
      Does (row.cmd c t o) s fun e =>
        ResultAt d e c t o.imm.toNat dst ext.1 ext.2 (fun r k => row.fn o (ps.map fun p => d.elem c t o.imm.toNat p r k)) ∧
        ContextAt d e c t (((d.cell c).tc t).pc + 1) ∧ CellFrame d e c (ps.any isFree) ∧ e.mem = d.mem)

/-- R34, R103: a result in a tile buffer writes the element codes of the buffer's own format and no other byte of memory; a destination that names no
register, bank or buffer takes nothing. It concludes that exec answers a next state, under conditions on state and operands alone, for: fp32Add,
fp32Sub, fp32Mul, fp32Fma, fp32Neg, fp32Abs, fp32Min, fp32Max, fp32Cmp, sel, bf16Add, bf16Sub, bf16Mul, bf16Fma, bf16Min, bf16Max, int32Add, int32Sub,
int32Mul, int32And, int32Or, int32Xor, int32Shl, int32Shr, int32Sar, int32Min, int32Max, int32Cmp, uint16Adds, exp2, log2, rsqrt, rcp, tanh. -/
def Obligations.ElementsIntoBuffer : Prop :=
  ∀ row ∈ fpRows ++ intRows, ∀ (s : State) (c : CellIdx) (t : TcIdx) (o : CellOps),
    let d := s.dev
    let dst := operand d c t o o.d
    let ps := (row.srcs o).map (operand d c t o)
    let ext := resultExtent d c dst ps
    d.issues c t row.opc o = true → isReg dst = false → checked d c ps →
    Does (row.cmd c t o) s fun e =>
      (∀ b w kt x, dst = .buf b → fmtShape (d.bufHdr c b).format = some (w, kt, x) → ∀ r k, r < ext.1 → k < ext.2 →
        e.bufElem c b (d.bufHdr c b) r k = (row.fn o (ps.map fun p => d.elem c t o.imm.toNat p r k)).toNat % 2 ^ w) ∧
      (match dst with | .buf b => BytesBut (bufAddr c b + 320) 4096 d e | _ => e.mem = d.mem) ∧
      NoResult d e c t ∧ ContextAt d e c t (((d.cell c).tc t).pc + 1) ∧ CellFrame d e c (ps.any isFree)

/-- R88: BROW combines each row of A with the vector B, BCOL each column. It concludes that exec answers a next state, under conditions on state and
operands alone, for: browAdd, browSub, browMul, browMin, browMax, bcolAdd, bcolSub, bcolMul, bcolMin, bcolMax. -/
def Obligations.BroadcastComputed : Prop :=
  ∀ row ∈ bcastRows, ∀ (s : State) (c : CellIdx) (t : TcIdx) (o : CellOps),
    let d := s.dev
    let imm := o.imm.toNat
    let dst := operand d c t o o.d
    let pa := operand d c t o o.a
    let pb := operand d c t o o.b
    let ext := (minExt [d.extent c dst, d.extent c pa]).getD (0, 0)
    d.issues c t row.opc o = true → isReg dst = true → (∀ n, dst ≠ .sreg n) → checked d c [pa, pb] →
    Does (row.cmd c t o) s fun e =>
      ResultAt d e c t imm dst ext.1 ext.2
        (fun r k => row.fn (d.elem c t imm pa r k) (d.elem c t imm pb 0 (if row.row then k else r))) ∧
      ContextAt d e c t (((d.cell c).tc t).pc + 1) ∧ CellFrame d e c (isFree pa || isFree pb) ∧ e.mem = d.mem

/-- R88, R89, R90: a reduction of a bank or register to a v register reduces each line of its first IMM[6:0] elements; of no elements it gives the value
of Table 3-9. R89, R90: a scalar reduction writes one s register from the first IMM[6:0] lanes of a v register: valid, and EMPTY exactly where Table
3-9 says so. It concludes that exec answers a next state, under conditions on state and operands alone, for: rsum, rmax, rmin, csum, cmax, cmin, vsum,
vmax, vmin, vargmax, vargmin. -/
def Obligations.ReductionsComputed : Prop :=
  (
    ∀ row ∈ reduceRows, ∀ (s : State) (c : CellIdx) (t : TcIdx) (o : CellOps) (n b : Nat),
      let d := s.dev
      let imm := o.imm.toNat
      d.issues c t row.opc o = true → operand d c t o o.d = .vreg n → operand d c t o o.a = .bank b →
      Does (row.cmd c t o) s fun e =>
        (∀ r, r < 64 → vLane e c n r = row.fn ((List.range (min (imm % 128) 64)).map fun k => if row.row then accAt d c b r k else accAt d c b k r)) ∧
        (∀ m k, m < 32 → k < 64 → m ≠ n → vLane e c m k = vLane d c m k) ∧
        (e.cell c).acc = (d.cell c).acc ∧ ((e.cell c).tc t).sums = ((d.cell c).tc t).sums ∧
        ContextAt d e c t (((d.cell c).tc t).pc + 1) ∧ CellFrame d e c false ∧ e.mem = d.mem) ∧
  (
    ∀ row ∈ scalarRows, ∀ (s : State) (c : CellIdx) (t : TcIdx) (o : CellOps) (n a : Nat),
      let d := s.dev
      let lanes := (List.range (min (o.imm.toNat % 128) 64)).map fun k => vLane d c a k
      d.issues c t row.opc o = true → operand d c t o o.d = .sreg n → operand d c t o o.a = .vreg a →
      Does (row.cmd c t o) s fun e =>
        sReg e c t n = ⟨row.fn lanes, true, lanes.isEmpty && row.opc != 0xA0⟩ ∧
        (∀ m, m ≠ n → sReg e c t m = sReg d c t m) ∧ (e.cell c).vregs = (d.cell c).vregs ∧ (e.cell c).acc = (d.cell c).acc ∧
        ContextAt d e c t (((d.cell c).tc t).pc + 1) ∧ CellFrame d e c false ∧ e.mem = d.mem)

/-- R72, R73: CONVERT of a v register of FP32 values writes in each lane of D the code of the rounded value: BF16, FP16, INT32 and UINT16 targets; and to
FP32 from INT32 values. It concludes that exec answers a next state, under conditions on state and operands alone, for: convert. -/
def Obligations.ConvertRegisters : Prop :=
  ∀ (s : State) (c : CellIdx) (t : TcIdx) (o : CellOps) (n a : Nat),
    let d := s.dev
    let fmt := o.imm.toNat % 256
    d.issues c t 0x60 o = true → operand d c t o o.d = .vreg n → operand d c t o o.a = .vreg a → fmt ∈ [0x01, 0x02, 0x03, 0x20, 0x21] →
    Does (.convert c t o) s fun e =>
      (∀ k, k < 64 → vLane e c n k = BitVec.ofNat 32 (
        if fmt = 0x01 then fpRound fmtFP32 (.fin ((vLane d c a k).toInt < 0) (vLane d c a k).toInt.natAbs 0)
        else if fmt = 0x02 then fpRound fmtBF16 (f32 (vLane d c a k))
        else if fmt = 0x03 then fpRound fmtFP16 (f32 (vLane d c a k))
        else if fmt = 0x20 then (BitVec.ofInt 32 (fpToIntSat (-2147483648) 2147483647 (f32 (vLane d c a k)))).toNat
        else (fpToIntSat 0 65535 (f32 (vLane d c a k))).toNat)) ∧
      (∀ m k, m < 32 → k < 64 → m ≠ n → vLane e c m k = vLane d c m k) ∧
      (e.cell c).acc = (d.cell c).acc ∧ ((e.cell c).tc t).sums = ((d.cell c).tc t).sums ∧
      ContextAt d e c t (((d.cell c).tc t).pc + 1) ∧ CellFrame d e c false ∧ e.mem = d.mem

/-- R141: NOP goes on with the next word, JUMP with word IMM, BNZ with word IMM where the first element of A is not zero; WAITSUM goes on when its s
register is valid and else leaves the issue slot to wait for it. R40, R141: END of a context whose outputs have all ended and whose inputs were all
consumed makes it DONE and frees the issue slot. It concludes that exec answers a next state, under conditions on state and operands alone, for: nop,
endProgram, jump, bnz, waitsum. -/
def Obligations.ControlFlowOfACell : Prop :=
  (
    ∀ (s : State) (c : CellIdx) (t : TcIdx) (o : CellOps),
      let d := s.dev
      let pc := ((d.cell c).tc t).pc
      let pa := operand d c t o o.a
      (d.issues c t 0x00 o = true → Does (.nop c t o) s fun e =>
        NoResult d e c t ∧ ContextAt d e c t (pc + 1) ∧ CellFrame d e c false ∧ e.mem = d.mem) ∧
      (d.issues c t 0x02 o = true → Does (.jump c t o) s fun e =>
        NoResult d e c t ∧ ContextAt d e c t o.imm.toNat ∧ CellFrame d e c false ∧ e.mem = d.mem) ∧
      (d.issues c t 0x03 o = true → checked d c [pa] → Does (.bnz c t o) s fun e =>
        NoResult d e c t ∧ ContextAt d e c t (if d.elem c t o.imm.toNat pa 0 0 = 0 then pc + 1 else o.imm.toNat) ∧
        CellFrame d e c (isFree pa) ∧ e.mem = d.mem) ∧
      (∀ n, d.issues c t 0x0B o = true → pa = .sreg n →
        ((sReg d c t n).valid = true → Does (.waitsum c t o) s fun e =>
          NoResult d e c t ∧ ContextAt d e c t (pc + 1) ∧ CellFrame d e c false ∧ e.mem = d.mem) ∧
        ((sReg d c t n).valid = false → Does (.waitsum c t o) s fun e =>
          ((e.cell c).tc t).st = .waitIn ∧ ((e.cell c).tc t).wait = .summary (16 * t + n) ∧ ((e.cell c).tc t).pc = pc ∧ e.mem = d.mem))) ∧
  (
    ∀ (s : State) (c : CellIdx) (t : TcIdx) (o : CellOps),
      let d := s.dev
      let y := (d.cell c).tc t
      d.issues c t 0x01 o = true →
      (∀ q ∈ outsOf (d.cell c) t, (y.out q).ended = true ∧ d.outIssue c t q = none) →
      (∀ r ∈ queueRecs (d.cell c).active, r.tc = t.val → r.b 0 ∈ y.inEnded) →
      Does (.endProgram c t o) s fun e =>
        ((e.cell c).tc t).st = .done ∧ ((e.cell c).tc t).wait = .none ∧ (e.cell c).vregs = (d.cell c).vregs ∧ (e.cell c).acc = (d.cell c).acc ∧
        (∀ x, x ≠ c.val → e.cell x = d.cell x) ∧ e.mem = d.mem ∧ e = { d with regs := e.regs, sch := e.sch, fab := { d.fab with cells := e.fab.cells } } ∧
        RegsBut [Reg.DBG_CYC_ACTIVE c, Reg.DBG_TC_SWITCH c] d e)

/-- R103, R43: TAKE moves the oldest tile of a queue, which passes its check, into a buffer, frees the slot and sends its credit to the producer; with no
tile there the context waits for the queue. R103: a tile whose CRC fails is not used: the fault 0x0801 is queued for the collector, the buffer keeps
its bytes and the slot its tile. It concludes that exec answers a next state, under conditions on state and operands alone, for: take. -/
def Obligations.TakeMovesACheckedTile : Prop :=
  (
    ∀ (s : State) (c : CellIdx) (t : TcIdx) (o : CellOps),
      let d := s.dev
      let q := o.imm.toNat % 16
      let b := o.imm.toNat / 256 % 256
      d.issues c t 0x04 o = true →
      (∀ sl tile src tag, d.front c q = some (sl, tile) → tileCrcOk tile = true → hdrValid (hdrOf tile) = true →
        (∀ j, d.tileIssue c q (hdrOf tile) = some j → (hdrOf tile).format = j.sd.format) →
        b < sramTb (d.cell c).active → sl.prod = .cell src tag → enters d c (mkPkt 6 (d.cell c).gen.toNat src c tag q []) = true →
        Does (.take c t o) s fun e =>
          (∀ a, e.byte a = if bufAddr c b ≤ a ∧ a < bufAddr c b + 4608 then (slotBytes tile).getD (a - bufAddr c b) 0#8 else d.byte a) ∧
          ((e.cell c).queue q).slots = ((d.cell c).queue q).slots.tail ∧ (∀ z, z ≠ q → (e.cell c).queue z = (d.cell c).queue z) ∧
          e.fab.transit = d.fab.transit ++ [stamped d c (mkPkt 6 (d.cell c).gen.toNat src c tag q [])] ∧
          ((e.cell c).tc t).pc = ((d.cell c).tc t).pc + 1 ∧ NoResult d e c t ∧ (∀ x, x ≠ c.val → e.cell x = d.cell x) ∧
          RegsButFlits [Reg.DBG_CYC_ACTIVE c] d e ∧ e.srv = d.srv ∧ e.fltq = d.fltq) ∧
      (((d.cell c).queue q).slots = [] → d.queueIssue c q = none →
        Does (.take c t o) s fun e =>
          ((e.cell c).tc t).st = .waitIn ∧ ((e.cell c).tc t).wait = .queue q ∧ ((e.cell c).tc t).pc = ((d.cell c).tc t).pc ∧ e.mem = d.mem)) ∧
  (
    ∀ (s : State) (c : CellIdx) (t : TcIdx) (o : CellOps) (sl : QSlot) (tile : List Byte) (p : Nat),
      let d := s.dev
      let q := o.imm.toNat % 16
      d.issues c t 0x04 o = true → d.front c q = some (sl, tile) → tileCrcOk tile = false → d.fltq.length < 64 →
      d.partOfComb (combOf c) = some p → d.curCtx p = none →
      Does (.take c t o) s fun e =>
        e.fltq = d.fltq ++ [⟨BitVec.ofNat 64 (faultWord { notice cTileCheck 0x0801 0 with cell := some c.val, part := some p }), 0#64, d.sysTime,
          BitVec.ofNat 64 (stationOf (d.cell c).active t * 2 ^ 48 + (hdrOf tile).streamId * 2 ^ 16 + (hdrOf tile).seq % 65536)⟩] ∧
        e.mem = d.mem ∧ (e.cell c).queue q = (d.cell c).queue q ∧ ((e.cell c).tc t).pc = ((d.cell c).tc t).pc)

/-- R101, R120: PUT on an output of a LINK stream that holds a credit, before the last tile of the count, sends the buffer, zero outside its valid
extents, as one TILE packet: the producer's TAG, the stream's header with SEQ the count so far; one credit is spent. Without a credit it waits for the
output. R36, R141: SUMSEND of an s register puts one SUMMARY on the output, its value in ADDR[31:0] and the named register in ADDR[35:32]. It
concludes that exec answers a next state, under conditions on state and operands alone, for: put, sumsend. -/
def Obligations.PutAndSumsendSend : Prop :=
  (
    ∀ (s : State) (c : CellIdx) (t : TcIdx) (o : CellOps) (i : Issue),
      let d := s.dev
      let q := o.imm.toNat % 16
      let b := o.imm.toNat / 256 % 256
      let y := ((d.cell c).tc t).out q
      let h := d.putHdr c i (d.ownHdr c b) y.put (o.imm.toNat / 2 ^ 24) (o.imm.toNat / 65536 % 256)
      d.issues c t 0x05 o = true → d.outIssue c t q = some i → i.sd.kind = skLink → y.put + 1 < i.total → b ∉ (d.cell c).bufFresh → i.spilled = [] →
      (∀ r, 0 < y.credits → outRec (d.cell c).active t q = some r →
        let p := d.outPkt c r (mkPkt 1 (d.cell c).gen.toNat (outCell c r) c (16 * t + q) 0 (reHdr (clipTile (d.ownHdr c b) (d.bytes (bufAddr c b) tileWire)) h))
        enters d c p = true →
        Does (.put c t o) s fun e =>
          e.fab.transit = d.fab.transit ++ [stamped d c p] ∧
          ((e.cell c).tc t).out q = { y with credits := y.credits - 1, put := y.put + 1 } ∧ ((e.cell c).tc t).pc = ((d.cell c).tc t).pc + 1 ∧
          (∀ z, z ≠ q → ((e.cell c).tc t).out z = ((d.cell c).tc t).out z) ∧ NoResult d e c t ∧ (∀ x, x ≠ c.val → e.cell x = d.cell x) ∧ e.mem = d.mem ∧
          RegsButFlits [Reg.DBG_CYC_ACTIVE c] d e ∧ e.srv = d.srv ∧ e.fltq = d.fltq) ∧
      (y.credits = 0 → i.sd.spillable = false →
        Does (.put c t o) s fun e =>
          ((e.cell c).tc t).st = .waitOut ∧ ((e.cell c).tc t).wait = .output (16 * t + q) ∧ e.fab.transit = d.fab.transit ∧ e.mem = d.mem)) ∧
  (
    ∀ (s : State) (c : CellIdx) (t : TcIdx) (o : CellOps) (n : Nat) (r : CfgRec),
      let d := s.dev
      let p := d.outPkt c r (mkPkt 8 (d.cell c).gen.toNat (outCell c r) c 0 (o.imm.toNat / 256 % 16 * 2 ^ 32 + (sReg d c t n).val.toNat) [])
      d.issues c t 0x0A o = true → operand d c t o o.a = .sreg n → outRec (d.cell c).active t (o.imm.toNat % 16) = some r → enters d c p = true →
      Does (.sumsend c t o) s fun e =>
        e.fab.transit = d.fab.transit ++ [stamped d c p] ∧ ((e.cell c).tc t).pc = ((d.cell c).tc t).pc + 1 ∧ NoResult d e c t ∧
        (∀ x, x ≠ c.val → e.cell x = d.cell x) ∧ e.mem = d.mem ∧ RegsButFlits [Reg.DBG_CYC_ACTIVE c] d e ∧ e.srv = d.srv ∧ e.fltq = d.fltq)

/-- R141: LDROW copies rows of an FP32 buffer into D and the registers after it; STROW copies registers into rows of an FP32 buffer, zero outside its
valid extents (R101), and writes no byte outside its slot; RDBANK writes an FP32 tile of a quarter of the bank, with a matching CRC. It concludes that
exec answers a next state, under conditions on state and operands alone, for: ldrow, strow, rdbank. -/
def Obligations.RowsAndBanksMove : Prop :=
  ∀ (s : State) (c : CellIdx) (t : TcIdx) (o : CellOps),
    let d := s.dev
    let imm := o.imm.toNat
    let b := imm / 256 % 256
    b < sramTb (d.cell c).active →
    (d.issues c t 0x06 o = true → b ∉ (d.cell c).bufFresh → (d.bufHdr c b).format = 0x01 →
      Does (.ldrow c t o) s fun e =>
        (∀ i n k, operand d c t o (o.d + BitVec.ofNat 6 i) = .vreg n → o.d.toNat + i < 32 → imm % 256 + i < 32 → k < 32 →
          vLane e c n k = BitVec.ofNat 32 (d.bufElem c b (d.bufHdr c b) (imm % 256 + i) k)) ∧
        (∀ i n k, operand d c t o (o.d + BitVec.ofNat 6 i) = .vreg n → o.d.toNat + i < 32 → (32 ≤ imm % 256 + i ∨ 32 ≤ k) → k < 64 →
          vLane e c n k = vLane d c n k) ∧
        (∀ n k, n < 32 → k < 64 → (∀ i, o.d.toNat + i < 32 → operand d c t o (o.d + BitVec.ofNat 6 i) ≠ .vreg n) → vLane e c n k = vLane d c n k) ∧
        (e.cell c).acc = (d.cell c).acc ∧ ((e.cell c).tc t).sums = ((d.cell c).tc t).sums ∧
        ContextAt d e c t (((d.cell c).tc t).pc + 1) ∧ CellFrame d e c false ∧ e.mem = d.mem) ∧
    (d.issues c t 0x07 o = true → (d.bufHdr c b).format = 0x01 → hdrValid (d.bufHdr c b) = true →
      Does (.strow c t o) s fun e =>
        (∀ i n k, operand d c t o (o.a + BitVec.ofNat 6 i) = .vreg n → o.a.toNat + i < 32 → imm % 256 + i < 32 → k < 32 →
          e.bufElem c b (d.bufHdr c b) (imm % 256 + i) k = if imm % 256 + i < hdrRows (d.bufHdr c b) ∧ k < hdrCols (d.bufHdr c b) then (vLane d c n k).toNat else 0) ∧
        BytesBut (bufAddr c b) 4416 d e ∧ (e.cell c).vregs = (d.cell c).vregs ∧ (e.cell c).acc = (d.cell c).acc ∧
        ((e.cell c).tc t).pc = ((d.cell c).tc t).pc + 1 ∧ CellFrame d e c false) ∧
    (∀ n, d.issues c t 0x09 o = true → operand d c t o o.a = .bank n → bankBusy (d.cell c) n = false →
      Does (.rdbank c t o) s fun e =>
        (∀ r k, r < 32 → k < 32 → e.bufElem c b (e.bufHdr c b) r k = (accAt d c n (32 * (imm / 2 % 2) + r) (32 * (imm % 2) + k)).toNat) ∧
        (e.bufHdr c b).format = 0x01 ∧ hdrRows (e.bufHdr c b) = 32 ∧ hdrCols (e.bufHdr c b) = 32 ∧ tileCrcOk (e.bytes (bufAddr c b) 4416) = true ∧
        BytesBut (bufAddr c b) 4608 d e ∧ (e.cell c).vregs = (d.cell c).vregs ∧ (e.cell c).acc = (d.cell c).acc ∧
        ((e.cell c).tc t).pc = ((d.cell c).tc t).pc + 1 ∧ CellFrame d e c false)

/-- R84, R121, R122: CHAIN of a part that passes its checks (an unsplit chain is not bound by the least L of R122: the model's reading, log entry 86)
zeroes the lowest free bank of the context and starts the chain; an operand pair outside Table 3-5 records 0x0703 and starts nothing. R75, R79 to R81:
a chain of one product whose two operand tiles wait in their queues ends with each element of its bank the tree sum of the grain results, and the
chain index is free again. It concludes that exec answers a next state, under conditions on state and operands alone, for: chain, tileProductDone. -/
def Obligations.ChainsAccumulate : Prop :=
  (
    ∀ (s : State) (c : CellIdx) (t : TcIdx) (o : CellOps) (r : CfgRec) (img : Img) (fa fb : StreamDesc) (p : Nat),
      let d := s.dev
      let i := o.imm.toNat % 8
      let v := d.chainVals c r
      d.issues c t 0x08 o = true → chainRec (d.cell c).active t i = some r → d.partOfComb (combOf c) = some p → d.activeImg p = some img →
      d.chainIssue c t i = none → bit (r.b 16) 0 = false → d.desc img (r.n 2 2) = some fa → d.desc img (r.n 4 2) = some fb →
      (∀ bank z, pairOk fa.format fb.format = true → v.2.1 < v.1 → v.1 ≤ 1048576 → v.2.1 % 2 ^ v.2.2.2.1 = 0 → (grainsOf fa.format ≤ 2 ^ v.2.2.2.1 ∨ v.2.1 = 0 ∧ v.2.2.1 = v.1) →
        d.freeBank c t = some bank → tcSetup (d.cell c).active t = some z →
        ((d.cell c).tc t).chains = [] → treeSlots (ceilDiv v.2.2.1 (grainsOf fa.format)) ≤ z.b 5 →
        Does (.chain c t o) s fun e =>
          chainOf (e.cell c) t i =
            some ⟨bank, v.2.1, min (2 ^ v.2.2.2.1) (v.1 - v.2.1), v.1, v.2.2.2.2, false, 0, ceilDiv v.2.2.1 (grainsOf fa.format), [], 0⟩ ∧
          (∀ x y, x < 64 → y < 64 → accAt e c bank x y = 0) ∧
          (∀ b x y, b ≠ bank → x < 64 → y < 64 → accAt e c b x y = accAt d c b x y) ∧ (e.cell c).vregs = (d.cell c).vregs ∧
          ((e.cell c).tc t).pc = ((d.cell c).tc t).pc + 1 ∧ CellFrame d e c false ∧ e.mem = d.mem) ∧
      (pairOk fa.format fb.format = false → d.curCtx p = none → d.fltq.length < 64 →
        Does (.chain c t o) s fun e =>
          e.fltq.length = d.fltq.length + 1 ∧ (e.fltq.getLast?.map fun x => x.w0.toNat / 256 % 65536) = some 0x0703 ∧
          NoResult d e c t ∧ ContextAt d e c t ((d.cell c).tc t).pc ∧ e.mem = d.mem)) ∧
  (
    ∀ (s : State) (c : CellIdx) (t : TcIdx) (i : Fin 8) (r : CfgRec) (run : ChainRun) (img : Img) (p : Nat) (ha hb : Hdr) (ta tb : List Byte) (na nb : Nat)
      (ea eb : Bool) (d1 d2 : Dev),
      let d := s.dev
      let extra := fun n => match d.desc img n with | some sd => sd.eosSeparate | none => false
      chainRec (d.cell c).active t i = some r → chainOf (d.cell c) t i = some run → d.partOfComb (combOf c) = some p → d.activeImg p = some img →
      run.combine = false → run.done = 0 → run.total = 1 → run.pend = [] → bit (r.b 16) 1 = false → run.bank < 2 →
      d.spareEos c t (r.n 2 2) = false → d1.spareEos c t (r.n 4 2) = false → (ea = true → extra (r.n 2 2) = false) → (eb = true → extra (r.n 4 2) = false) →
      d.takeOperand c t (r.n 2 2) = .tile ha ta ea na d1 → d1.takeOperand c t (r.n 4 2) = .tile hb tb eb nb d2 →
      Does (.tileProductDone c t i) s fun e =>
        (∀ x y, x < 64 → y < 64 → accAt e c run.bank x y =
          tree ((List.range (min (grainsOf ha.format) run.c)).map fun z => grainOf ha hb ta tb x y z (run.k - 32 * (run.b + z)))) ∧
        (∀ b x y, b ≠ run.bank → x < 64 → y < 64 → accAt e c b x y = accAt d2 c b x y) ∧ (e.cell c).vregs = (d2.cell c).vregs ∧
        chainOf (e.cell c) t i = none ∧ e.mem = d2.mem ∧ e.srv = d2.srv ∧ e.fltq = d2.fltq)

/-! ### The mesh, queues and memory (chapters 02 and 06) -/

/-- R47, R51, R54: PACKET_INJECT puts a packet that passes the router's checks into the mesh with PART of the cell's comb; one for another partition's
comb does not enter and is recorded with cause 0x0401. R58, R59: STEER_TILE of a BRANCH whose PRED source gives an output with a credit sends the
front tile there as it stands and frees its slot; with no tile it waits for its input. R61, R63: a context that has waited, with its comb in ON, for
the watchdog's limit stalls: the first stall of a comb in a step epoch is recorded as FLT_STALL, a later one only counted. It concludes that exec
answers a next state, under conditions on state and operands alone, for: packetInject, stallWatchdog, steerTile. -/
def Obligations.InjectionSteeringAndStalls : Prop :=
  (
    ∀ (s : State) (c : CellIdx) (p : Packet),
      let d := s.dev
      (enters d c p = true → Does (.packetInject c p) s fun e =>
        e.fab = { d.fab with transit := d.fab.transit ++ [stamped d c p] } ∧ e = { d with regs := e.regs, fab := e.fab } ∧ RegsButFlits [] d e ∧
        e.rf (Reg.DBG_FLIT_INJ c) cnt48 = (if d.frozen c then d.rf (Reg.DBG_FLIT_INJ c) cnt48 else satAdd 48 (d.rf (Reg.DBG_FLIT_INJ c) cnt48) p.flits)) ∧
      (∀ q, kindOk p = true → p.outer = false → (∃ l, routeOf p c = some (l, p.flit.dstX.toNat, p.flit.dstY.toNat)) → d.partOfComb (combOf c) = some q → d.partOfComb (combOf p.dst) ≠ some q →
        d.curCtx q = none → d.fltq.length < 64 →
        Does (.packetInject c p) s fun e =>
          e.fab = d.fab ∧ e.mem = d.mem ∧ e.srv = d.srv ∧ RegsBut [Reg.DBG_INJ_REFUSE c] d e ∧
          (e.fltq.getLast?.map fun x => (x.w0.toNat % 256, x.w0.toNat / 256 % 65536)) = some (cSecurity, 0x0401) ∧ e.fltq.length = d.fltq.length + 1)) ∧
  (
    ∀ (s : State) (c : CellIdx) (t : TcIdx) (r : CfgRec),
      let d := s.dev
      let q := (steerIns r).headD 0
      let y := (d.cell c).tc t
      steerRec (d.cell c).active t = some r → y.st = .running → r.b 0 = cBranch →
      (∀ sl tile o w src tag, d.front c q = some (sl, tile) → (hdrOf tile).eos = false → r.b 9 = 0 →
        steerOut r (if bit (hdrOf tile).pred (r.b 10 % 8) then 0 else 1) = some o → 0 < (y.out o).credits → outRec (d.cell c).active t o = some w →
        sl.prod = .cell src tag →
        (∀ j, d.outIssue c t o = some j → j.sd.kind ≠ skRemote) →
        let p := d.outPkt c w (mkPkt 1 (d.cell c).gen.toNat (outCell c w) c (16 * t + o) 0 tile)
        let credit := mkPkt 6 (d.cell c).gen.toNat src c tag q []
        enters d c p = true → enters d c credit = true →
        Does (.steerTile c t) s fun e =>
          e.fab.transit = d.fab.transit ++ [stamped d c credit, stamped d c p] ∧ ((e.cell c).queue q).slots = ((d.cell c).queue q).slots.tail ∧
          (((e.cell c).tc t).out o).credits = (y.out o).credits - 1 ∧ (∀ z, z ≠ c.val → e.cell z = d.cell z) ∧ e.mem = d.mem ∧ RegsButFlits [] d e ∧
          e.fltq = d.fltq) ∧
      (((d.cell c).queue q).slots = [] → d.queueIssue c q = none →
        Does (.steerTile c t) s fun e =>
          ((e.cell c).tc t).st = .waitIn ∧ ((e.cell c).tc t).wait = .queue q ∧ e.fab.transit = d.fab.transit ∧ e.mem = d.mem)) ∧
  (
    ∀ (s : State) (c : CellIdx) (t : TcIdx),
      let d := s.dev
      let k := combOf c
      watched (d.cell c) ((d.cell c).tc t) = true → (d.cell c).haltAt = none → d.combPs k = 3 → ((d.cell c).tc t).since + d.wdogLimit c ≤ d.ps →
      (k ∈ d.fab.stalled → Does (.stallWatchdog c t) s fun e =>
        OnlyRegs d e ∧ RegsBut [Reg.DBG_STALL_SUPPR c] d e ∧
        (d.frozen c = false → e.rf (Reg.DBG_STALL_SUPPR c) cnt48 = satAdd 48 (d.rf (Reg.DBG_STALL_SUPPR c) cnt48) 1)) ∧
      (∀ p, k ∉ d.fab.stalled → d.partOfComb k = some p → d.curCtx p = none → d.fltq.length < 64 →
        Does (.stallWatchdog c t) s fun e =>
          e.fab = { d.fab with stalled := k :: d.fab.stalled } ∧ e.fltq.length = d.fltq.length + 1 ∧
          (e.fltq.getLast?.map fun x => (x.w0.toNat % 256, x.w0.toNat / 256 % 65536)) = some (cStall, (d.stallOf c t).1) ∧
          e.mem = d.mem ∧ RegsBut [] d e))

/-- R43, R52: a TILE of the cell's generation takes the next slot of its queue, its bytes land there, and a context that waits for the queue is no longer
waiting; R52: one of another generation is discarded and counted. R43, R179: a QCREDIT gives the output that its TAG names, or, at the port of a
forager, that forager for the queue of the cell that freed the slot, one credit more; a sequencer takes none. It concludes that exec answers a next
state, under conditions on state and operands alone, for: tile, qcredit. -/
def Obligations.TilesAndCreditsLand : Prop :=
  (
    ∀ (s : State) (p : Packet),
      let d := s.dev
      let c := p.dst
      let x := d.cell c
      p.outer = false → p.flit.kind = 1 → kindOk p = true →
      (p.gen = x.gen.toNat → (x.queue p.queue).slots.length < queueDepth x.active p.queue →
        Does (.tile p) s fun e =>
          (∀ a, e.byte a = if slotAddr x.active c p.queue (x.queue p.queue).next ≤ a ∧ a < slotAddr x.active c p.queue (x.queue p.queue).next + 4608
            then (slotBytes p.payload).getD (a - slotAddr x.active c p.queue (x.queue p.queue).next) 0#8 else d.byte a) ∧
          ((e.cell c).queue p.queue).slots =
            (x.queue p.queue).slots ++ [⟨(x.queue p.queue).next, if p.tag < 0x4000 then .cell p.src p.tag else .edge p.src p.tag p.addr, true,
              (hdrOf p.payload).eos, d.ps⟩] ∧
          (∀ q, q ≠ p.queue → (e.cell c).queue q = x.queue q) ∧
          (∀ t, (x.tc t).st = .waitIn → (x.tc t).wait = .queue p.queue → ((e.cell c).tc t).wait = .none ∧
            (((e.cell c).tc t).st = .ready ∨ ((e.cell c).tc t).st = .running)) ∧
          (∀ z, z ≠ c → e.cell z = d.cell z) ∧ e.fab.transit = d.fab.transit.erase p ∧
          RegsBut [Reg.DBG_FLIT_EJ c, Reg.DBG_TC_SWITCH c] d e ∧ e.srv = d.srv ∧ e.fltq = d.fltq) ∧
      (p.gen ≠ x.gen.toNat →
        Does (.tile p) s fun e =>
          e.mem = d.mem ∧ e.fab = { d.fab with transit := d.fab.transit.erase p } ∧ RegsBut [Reg.DBG_FLIT_EJ c, Reg.DBG_GEN_DISCARD c] d e ∧
          (d.frozen c = false → e.rf (Reg.DBG_GEN_DISCARD c) cnt48 = satAdd 48 (d.rf (Reg.DBG_GEN_DISCARD c) cnt48) 1) ∧ OnlyRegs { d with fab := e.fab } e)) ∧
  (
    ∀ (s : State) (p : Packet),
      let d := s.dev
      let c := p.dst
      let t := p.tag / 16 % 4
      let o := p.tag % 16
      p.outer = false → arrives d 6 p = true →
      (toFor c p.tag = true → Does (.qcredit p) s fun e =>
        e.cell p.src = (d.cell p.src).setForCredit (p.addr % 16) ((d.cell p.src).forCredit (p.addr % 16) + 1) ∧ (∀ z, z ≠ p.src → e.cell z = d.cell z) ∧
        e.fab = { d.fab with transit := d.fab.transit.erase p, cells := e.fab.cells } ∧ OnlyRegs { d with fab := e.fab } e ∧ RegsBut [Reg.DBG_FLIT_EJ c] d e) ∧
      (toSeq c p.tag = true → Does (.qcredit p) s fun e =>
        e.fab = { d.fab with transit := d.fab.transit.erase p } ∧ OnlyRegs { d with fab := e.fab } e ∧ RegsBut [Reg.DBG_FLIT_EJ c] d e) ∧
      (toFor c p.tag = false → toSeq c p.tag = false → (∀ i, d.outIssue c t o = some i → i.sd.eosSeparate = false ∧ i.total ≠ 0) → Does (.qcredit p) s fun e =>
        (((e.cell c).tc t).out o).credits = (((d.cell c).tc t).out o).credits + 1 ∧
        (∀ u q, ¬ (u = t ∧ q = o) → ((e.cell c).tc u).out q = ((d.cell c).tc u).out q) ∧
        (((d.cell c).tc t).st = .waitOut → ((d.cell c).tc t).wait = .output (16 * t + o) → ((e.cell c).tc t).wait = .none) ∧
        (∀ z, z ≠ c → e.cell z = d.cell z) ∧ e.mem = d.mem ∧ RegsBut [Reg.DBG_FLIT_EJ c, Reg.DBG_TC_SWITCH c] d e ∧ e.fab.issues = d.fab.issues))

/-- R170, R172, R180: READ_REQ of mapped memory of its own partition answers one READ_RESP with the tile's bytes, to the cell, queue and TAG that it
names; WRITE stores its payload at its address, no other byte, and answers WRITE_ACK; by a local port a packet of another generation is discarded
(R52). R147: a WRITE into the area of a registered image changes no byte and is recorded as FLT_RO 0x0941. It concludes that exec answers a next
state, under conditions on state and operands alone, for: readReq, write. -/
def Obligations.MemoryPacketsServed : Prop :=
  (
    ∀ (s : State) (p : Packet),
      let d := s.dev
      let a := p.addr
      (p.outer = true → p.flit.kind = 2 → kindOk p = true → d.mapped a = true → d.mapped (a + 4415) = true → d.reaches p.part a 4416 = true → d.ldr.ecc = [] →
        Does (.readReq p) s fun e =>
          e.fab = { d.fab with transit := d.fab.transit.erase p ++
            [((mkPkt 3 p.gen p.src p.dst p.tag 0 (d.bytes a 4416)).withTc p.tc p.queue).withPart p.part] } ∧
          e.mem = d.mem ∧ RegsButFlits [] d e ∧ e.fltq = d.fltq ∧ e.srv = d.srv) ∧
      (p.outer = true → p.flit.kind = 4 → kindOk p = true → p.flit.len.toNat ≠ 69 → p.payload ≠ [] → d.mapped a = true →
        d.mapped (a + (p.payload.length - 1)) = true → d.imageHit a p.payload.length = false → d.reaches p.part a p.payload.length = true → a < t2Base →
        Does (.write p) s fun e =>
          (∀ x, e.byte x = if a ≤ x ∧ x < a + p.payload.length then p.payload.getD (x - a) 0#8 else d.byte x) ∧
          e.fab = { d.fab with transit := d.fab.transit.erase p ++ [((mkPkt 5 p.gen p.src p.dst p.tag 0 []).withTc p.tc p.queue).withPart p.part] } ∧
          RegsButFlits [] d e ∧ e.fltq = d.fltq ∧ e.srv = d.srv) ∧
      (let r := ((mkPkt 3 p.gen p.src p.dst p.tag 0 (d.bytes a 4416)).withTc p.tc p.queue).withPart p.part
       p.outer = false → arrives d 2 p = true → d.mapped a = true → d.mapped (a + 4415) = true → d.reaches p.part a 4416 = true → d.ldr.ecc = [] → enters d p.dst r = true →
        Does (.readReq p) s fun e =>
          e.fab = { d.fab with transit := d.fab.transit.erase p ++ [stamped d p.dst r] } ∧ e.mem = d.mem ∧ RegsButFlits [] d e ∧ e.fltq = d.fltq ∧ e.srv = d.srv) ∧
      (let r := ((mkPkt 5 p.gen p.src p.dst p.tag 0 []).withTc p.tc p.queue).withPart p.part
       p.outer = false → arrives d 4 p = true → p.flit.len.toNat ≠ 69 → p.payload ≠ [] → d.mapped a = true → d.mapped (a + (p.payload.length - 1)) = true →
        d.imageHit a p.payload.length = false → d.reaches p.part a p.payload.length = true → a < t2Base → enters d p.dst r = true →
        Does (.write p) s fun e =>
          (∀ x, e.byte x = if a ≤ x ∧ x < a + p.payload.length then p.payload.getD (x - a) 0#8 else d.byte x) ∧
          e.fab = { d.fab with transit := d.fab.transit.erase p ++ [stamped d p.dst r] } ∧ RegsButFlits [] d e ∧ e.fltq = d.fltq ∧ e.srv = d.srv) ∧
      (∀ kind cmd, (kind, cmd) ∈ [(2, Instr.readReq p), (4, .write p)] → p.outer = false → p.flit.kind.toNat = kind → kindOk p = true → p.gen ≠ (d.cell p.dst).gen.toNat →
        Does cmd s fun e =>
          e.mem = d.mem ∧ e.fab = { d.fab with transit := d.fab.transit.erase p } ∧ RegsBut [Reg.DBG_FLIT_EJ p.dst, Reg.DBG_GEN_DISCARD p.dst] d e)) ∧
  (
    ∀ (s : State) (p : Packet),
      let d := s.dev
      p.flit.kind = 4 → kindOk p = true → (p.outer = true ∨ p.gen = (d.cell p.dst).gen.toNat) → p.flit.len.toNat ≠ 69 → d.mapped p.addr = true → d.mapped (p.addr + (p.payload.length - 1)) = true →
      d.imageHit p.addr p.payload.length = true → d.fltq.length < 64 → d.curCtx p.part = none →
      Does (.write p) s fun e =>
        e.mem = d.mem ∧ RegsBut [Reg.DBG_FLIT_EJ p.dst] d e ∧ e.fab = { d.fab with transit := d.fab.transit.erase p } ∧
        (e.fltq.getLast?.map fun x => (x.w0.toNat % 256, x.w0.toNat / 256 % 65536, x.detail.toNat)) = some (cRo, 0x0941, p.addr) ∧
        e.fltq.length = d.fltq.length + 1)

/-- R180: READ_RESP puts its bytes into the queue slot that TAG names and marks it landed; with TAG bit 13 into the tile buffer. WRITE_ACK at the port of
its forager completes one write of its issue, and takes one from the writes that a cell awaits. R36: a SUMMARY writes the named register of a task
context, valid and not EMPTY, or, for queue 15 at a sequencer's port, a sequencer's register. It concludes that exec answers a next state, under
conditions on state and operands alone, for: readResp, writeAck, summary. -/
def Obligations.AnswersAndSummariesLand : Prop :=
  (
    ∀ (s : State) (p : Packet),
      let d := s.dev
      let c := p.dst
      let x := d.cell c
      (∀ sl tok, arrives d 3 p = true → toSeq c p.tag = false → toFor c p.tag = false → bit p.tag 13 = false →
        (x.queue p.queue).slots.find? (fun r => r.pos == p.tag % 64 && !r.landed) = some sl → sl.prod = .forager tok →
        Does (.readResp p) s fun e =>
          (∀ a, e.byte a = if slotAddr x.active c p.queue sl.pos ≤ a ∧ a < slotAddr x.active c p.queue sl.pos + 4608
            then (slotBytes p.payload).getD (a - slotAddr x.active c p.queue sl.pos) 0#8 else d.byte a) ∧
          ((e.cell c).queue p.queue).slots = (x.queue p.queue).slots.map (fun r => if r.pos = sl.pos then { r with landed := true, at_ := d.ps } else r) ∧
          (∀ z, z ≠ c → e.cell z = d.cell z) ∧ RegsBut [Reg.DBG_FLIT_EJ c, Reg.DBG_TC_SWITCH c] d e ∧
          e.fab.issues = d.fab.issues.map (fun i => if i.uid = tok then i.landOne else i)) ∧
      (∀ i pos, arrives d 3 p = true → toSeq c p.tag = false → toFor c p.tag = false → bit p.tag 13 = true → d.awaitingBuf c (p.tag % 64) = some (i, pos) →
        Does (.readResp p) s fun e =>
          (∀ a, e.byte a = if bufAddr c (p.tag % 64) ≤ a ∧ a < bufAddr c (p.tag % 64) + 4608 then (slotBytes p.payload).getD (a - bufAddr c (p.tag % 64)) 0#8
            else d.byte a) ∧
          p.tag % 64 ∈ (e.cell c).bufFresh ∧ (∀ z, z ≠ c → e.cell z = d.cell z) ∧ RegsBut [Reg.DBG_FLIT_EJ c, Reg.DBG_TC_SWITCH c] d e ∧
          e.fab.issues = d.fab.issues.map (fun j => if j.uid = i.uid then j.landFetch pos else j)) ∧
      (arrives d 3 p = true → (toSeq c p.tag = true ∨ toFor c p.tag = true) → Does (.readResp p) s fun e =>
        e.fab = { d.fab with transit := d.fab.transit.erase p } ∧ e.mem = d.mem ∧ RegsBut [Reg.DBG_FLIT_EJ c] d e) ∧
      (∀ i, arrives d 5 p = true → toFor c p.tag = true → (d.fab.issues.find? fun j => j.uid % 0x4000 == p.tag % 0x4000) = some i →
        Does (.writeAck p) s fun e =>
          e.fab.issues = d.fab.issues.map (fun j => if j.uid = i.uid then (if j.eos = true ∧ j.landed + 1 = j.sent then Issue.finish { j with landed := j.landed + 1 } else { j with landed := j.landed + 1 }) else j) ∧
          (e.cell i.cell).unacked = (d.cell i.cell).unacked - 1 ∧ e.mem = d.mem ∧ e.srv = d.srv ∧ e.fltq = d.fltq ∧ e.fab.transit = d.fab.transit.erase p) ∧
      (arrives d 5 p = true → toFor c p.tag = false → toSeq c p.tag = false →
        Does (.writeAck p) s fun e =>
          e.cell c = { x with unacked := x.unacked - 1 } ∧ (∀ z, z ≠ c → e.cell z = d.cell z) ∧ e.mem = d.mem ∧ RegsBut [Reg.DBG_FLIT_EJ c] d e ∧
          e.fab.issues = d.fab.issues)) ∧
  (
    ∀ (s : State) (p : Packet),
      let d := s.dev
      let c := p.dst
      let r := p.addr / 2 ^ 32 % 16
      arrives d 8 p = true →
      ((∀ i, seqAt c = some i → p.queue ≠ 15) → Does (.summary p) s fun e =>
        sReg e c p.tc r = ⟨BitVec.ofNat 32 p.addr, true, false⟩ ∧ (∀ t n, ¬ (t = p.tc ∧ n = r) → sReg e c t n = sReg d c t n) ∧
        (((d.cell c).tc p.tc).st = .waitIn → ((d.cell c).tc p.tc).wait = .summary (16 * p.tc + r) → ((e.cell c).tc p.tc).wait = .none) ∧
        (∀ z, z ≠ c → e.cell z = d.cell z) ∧ e.fab.seqs = d.fab.seqs ∧ e.mem = d.mem ∧ RegsBut [Reg.DBG_FLIT_EJ c, Reg.DBG_TC_SWITCH c] d e) ∧
      (∀ i, seqAt c = some i → p.queue = 15 → Does (.summary p) s fun e =>
        (e.seq (combOf c) i).sum r = ⟨BitVec.ofNat 32 p.addr, true, false⟩ ∧ (∀ n, n ≠ r → (e.seq (combOf c) i).sum n = (d.seq (combOf c) i).sum n) ∧
        (e.seq (combOf c) i).pc = (d.seq (combOf c) i).pc ∧ e.fab.cells = d.fab.cells ∧ e.mem = d.mem ∧ RegsBut [Reg.DBG_FLIT_EJ c] d e))

/-- R124 to R127: at the home cell FETCH_ADD answers the value before the add, READ the value, RESET zero of a counter that is not live; the counter then
holds the sum, the value, zero. R127: a RESET of a live counter changes nothing and is FLT_COUNTER 0x0821. R125, R151: a WKC_RESP ends SQ.WKC of the
sequencer at its port: rd takes the value, the pc goes on, the sequencer waits no more. It concludes that exec answers a next state, under conditions
on state and operands alone, for: wkcFetchAdd, wkcRead, wkcReset, wkcResp. -/
def Obligations.WorkCountersServe : Prop :=
  (
    ∀ (s : State) (p : Packet) (op : Nat) (cmd : Packet → Instr),
      let d := s.dev
      let n := p.addr / 2 ^ 40 % 256
      let w := d.wkc (wkcKey false p.part n)
      let reply := fun (v : Nat) => (mkPkt 0xA p.gen p.src p.dst p.tag v []).withTc p.tc p.queue
      (op, cmd) ∈ [(0, Instr.wkcFetchAdd), (1, .wkcRead), (2, .wkcReset)] →
      arrives d 9 p = true → p.addr / 2 ^ 38 % 4 = op → d.homeOf p.part n = some (p.dst, false) →
      (op = 0 → 0 < p.addr % 2 ^ 32 ∧ w.val + p.addr % 2 ^ 32 < 2 ^ 48) → (op = 2 → w.live = false) →
      (∀ v, enters d p.dst (reply v) = true) →
      Does (cmd p) s fun e =>
        e.wkc (wkcKey false p.part n) = (if op = 0 then ⟨w.val + p.addr % 2 ^ 32, true⟩ else if op = 1 then w else ⟨0, false⟩) ∧
        (∀ k, k ≠ wkcKey false p.part n → e.wkc k = d.wkc k) ∧
        e.fab.transit = d.fab.transit.erase p ++ [stamped d p.dst (reply (if op = 2 then 0 else w.val))] ∧
        e.fab.cells = d.fab.cells ∧ e.mem = d.mem ∧ RegsButFlits [] d e ∧ e.fltq = d.fltq) ∧
  (
    ∀ (s : State) (p : Packet),
      let d := s.dev
      let n := p.addr / 2 ^ 40 % 256
      arrives d 9 p = true → p.addr / 2 ^ 38 % 4 = 2 → d.homeOf p.part n = some (p.dst, false) → (d.wkc (wkcKey false p.part n)).live = true →
      d.fltq.length < 64 → d.partOfComb (combOf p.dst) = some p.part → d.curCtx p.part = none →
      Does (.wkcReset p) s fun e =>
        e.fab.wkc = d.fab.wkc ∧ e.fab.cells = d.fab.cells ∧ e.mem = d.mem ∧ e.fltq.length = d.fltq.length + 1 ∧
        (e.fltq.getLast?.map fun x => (x.w0.toNat % 256, x.w0.toNat / 256 % 65536)) = some (cCounter, 0x0821)) ∧
  (
    ∀ (s : State) (p : Packet) (i rd : Nat),
      let d := s.dev
      let k := combOf p.dst
      arrives d 0xA p = true → seqAt p.dst = some i → bit p.tag 15 = true → (d.seq k i).wait = .wkc rd →
      Does (.wkcResp p) s fun e =>
        (e.seq k i).wait = .none ∧ (e.seq k i).pc = (d.seq k i).pc + 4 ∧
        (∀ r, (e.seq k i).get r = if r = rd ∧ rd ≠ 0 then BitVec.ofNat 64 p.addr else (d.seq k i).get r) ∧
        (e.seq k i).q = (d.seq k i).q ∧ (∀ k2 j, 4 * k2 + j ≠ 4 * k + i → e.seq k2 j = d.seq k2 j) ∧ e.fab.cells = d.fab.cells ∧ e.mem = d.mem ∧
        RegsBut [Reg.DBG_FLIT_EJ p.dst] d e)

/-- R38, R39, R155: CFG_WRITE of the active generation plus 1 adds its records to the shadow bank and answers CFG_ACK, leaving the active bank; one of
another generation is discarded and counted. CFG_ACK with TAG 0 takes its cell from those that the load awaits. R159, R160: a drained cell of a
footprint whose barrier runs sends one DRAIN to its comb's collector, which counts it; when every comb has counted 512 and the foragers are done, the
barrier completes. It concludes that exec answers a next state, under conditions on state and operands alone, for: cfgWrite, cfgAck, cellDrainSend,
drain, drainBarrierComplete. -/
def Obligations.ShadowLoadsAndDrains : Prop :=
  (
    ∀ (s : State) (p : Packet),
      let d := s.dev
      let c := p.dst
      let x := d.cell c
      let ack := mkPkt 0x11 x.gen.toNat p.src c p.tag 0 []
      (arrives d 0x10 p = true → p.gen = (x.gen.toNat + 1) % 256 → p.tag ≠ 0 → enters d c ack = true →
        Does (.cfgWrite p) s fun e =>
          e.cell c = { x with shadow := (packetRecs 600 p.payload).foldl applyRec x.shadow } ∧ (∀ z, z ≠ c → e.cell z = d.cell z) ∧
          e.fab.transit = d.fab.transit.erase p ++ [stamped d c ack] ∧ e.mem = d.mem ∧ RegsButFlits [] d e) ∧
      (arrives d 0x10 p = true → p.gen ≠ (x.gen.toNat + 1) % 256 →
        Does (.cfgWrite p) s fun e =>
          e.fab = { d.fab with transit := d.fab.transit.erase p } ∧ e.mem = d.mem ∧ RegsBut [Reg.DBG_FLIT_EJ c, Reg.DBG_CFG_DISCARD c] d e ∧
          (d.frozen c = false → e.rf (Reg.DBG_CFG_DISCARD c) cnt48 = satAdd 48 (d.rf (Reg.DBG_CFG_DISCARD c) cnt48) 1)) ∧
      (∀ q, arrives d 0x11 p = true → d.partOfComb (combOf c) = some q → p.tag = 0 → p.src ∈ (d.molt q).unacked → 2 ≤ (d.molt q).unacked.length →
        Does (.cfgAck p) s fun e =>
          e.molt q = { d.molt q with unacked := (d.molt q).unacked.erase p.src } ∧ (∀ z, z ≠ q → e.molt z = d.molt z) ∧ e.fab.cells = d.fab.cells ∧
          e.mem = d.mem ∧ RegsBut [Reg.DBG_FLIT_EJ c] d e)) ∧
  (
    ∀ (s : State),
      let d := s.dev
      (∀ (c : CellIdx) q img,
        d.partOfComb (combOf c) = some q → d.activeImg q = some img → combOf c ∈ d.footCombs img → (d.molt q).draining = true → cellDrained (d.cell c) = true →
        (d.cell c).drainSent = false → enters d c (mkPkt 0x18 (d.cell c).gen.toNat (collectorCell (combOf c)) c 0 0 []) = true →
        Does (.cellDrainSend c) s fun e =>
          e.cell c = { d.cell c with drainSent := true } ∧ (∀ z, z ≠ c.val → e.cell z = d.cell z) ∧
          e.fab.transit = d.fab.transit ++ [stamped d c (mkPkt 0x18 (d.cell c).gen.toNat (collectorCell (combOf c)) c 0 0 [])] ∧ e.mem = d.mem ∧ RegsButFlits [] d e) ∧
      (∀ (p : Packet) q,
        arrives d 0x18 p = true → d.partOfComb (combOf p.dst) = some q → p.dst = collectorCell (combOf p.dst) →
        Does (.drain p) s fun e =>
          sget (fun _ => 0) (e.molt q).drained (combOf p.dst) = sget (fun _ => 0) (d.molt q).drained (combOf p.dst) + 1 ∧
          (∀ k, k ≠ combOf p.dst → sget (fun _ => 0) (e.molt q).drained k = sget (fun _ => 0) (d.molt q).drained k) ∧
          e.fab.cells = d.fab.cells ∧ e.mem = d.mem ∧ RegsBut [Reg.DBG_FLIT_EJ p.dst] d e) ∧
      (∀ (p : PartIdx) img,
        d.activeImg p = some img → (d.molt p).draining = true → (d.molt p).barrier = false →
        (∀ k ∈ d.footCombs img, sget (fun _ => 0) (d.molt p).drained k = 512) →
        (∀ j ∈ d.fab.issues, j.comb ∈ d.footCombs img → j.spilled = [] ∧ (j.sd.kind = skStore → j.landed = j.sent)) →
        Does (.drainBarrierComplete p) s fun e =>
          (e.molt p).barrier = true ∧ FieldNow d e (Reg.MOLT_TIMES p) Fld.MOLT_TIMES_DRAIN (min ((d.ps - (d.molt p).drainStart) / 10000) 0xFFFF) ∧
          e.fab = d.fab ∧ e.mem = d.mem ∧ OnlyRegs { d with img := e.img } e))

/-- R64, R65: through a view that may, TC_HALT halts and releases the named contexts, FREEZE sets its bit, CLR clears the cell's twelve counters. R10: a
view that may not write a sealed partition's debug control changes nothing there; the attempt is recorded as FLT_SECURITY 0x0E21. It concludes that
exec answers a next state, under conditions on state and operands alone, for: dbgTcHalt, dbgFreeze, dbgClr. -/
def Obligations.DebugControl : Prop :=
  (
    ∀ (s : State) (v : View) (c : CellIdx),
      let d := s.dev
      d.hostUp (Reg.DBG_CTL c) = true → d.mayDbg v c = true →
      (∀ halt : BitVec 4, Does (.dbgTcHalt v c halt) s fun e =>
        e.rf (Reg.DBG_CTL c) Fld.DBG_CTL_TC_HALT = halt.toNat ∧
        (∀ t : TcIdx, bit halt.toNat t = true → ((d.cell c).tc t).st ≠ .unused → ((d.cell c).tc t).st ≠ .done → ((e.cell c).tc t).st = .halted) ∧
        (∀ t : TcIdx, bit halt.toNat t = false → ((d.cell c).tc t).st = .halted → ((e.cell c).tc t).st = .ready ∨ ((e.cell c).tc t).st = .running) ∧
        (∀ t : TcIdx, ((e.cell c).tc t).pc = ((d.cell c).tc t).pc) ∧ (∀ z, z ≠ c.val → e.cell z = d.cell z) ∧ e.mem = d.mem ∧
        RegsBut [Reg.DBG_CTL c, Reg.DBG_TC_SWITCH c] d e) ∧
      (∀ f : Bool, Does (.dbgFreeze v c f) s fun e => FieldNow d e (Reg.DBG_CTL c) Fld.DBG_CTL_FREEZE (b2n f) ∧ OnlyRegs d e) ∧
      (Does (.dbgClr v c) s fun e => (∀ o ∈ dbgCounters c, e.rd o = 0#64) ∧ RegsBut (dbgCounters c) d e ∧ OnlyRegs d e)) ∧
  (
    ∀ (s : State) (v : View) (c : CellIdx) (p : Nat) (cmd : Instr),
      let d := s.dev
      cmd ∈ [Instr.dbgTcHalt v c 0, .dbgTcHalt v c 15, .dbgFreeze v c true, .dbgFreeze v c false, .dbgClr v c] →
      d.hostUp (Reg.DBG_CTL c) = true → d.ownerOf (combOf c) = some p → d.sealed p = true → d.fltq.length < 64 →
      Does cmd s fun e =>
        e = { d with fltq := e.fltq } ∧ e.fltq.length = d.fltq.length + 1 ∧
        (e.fltq.getLast?.map fun x => (x.w0.toNat % 256, x.w0.toNat / 256 % 65536, x.w0.toNat / 2 ^ 28 % 16)) = some (cSecurity, 0x0E21, p % 16))

/-! ### Sequencers (chapter 05) -/

/-- R151, R115, R150: SQ.BNDW and SQ.BNDR write and read a bound register of the comb; SQ.SUMR and SQ.SUMP read a summary register with its valid and
EMPTY flags, SQ.SUMR waiting until it is valid. R151, R164, R237: SQ.STAT reads the molt status of the partition, SQ.STEP the epoch of an attempt that
this sequencer has not seen and else waits, SQ.WAIT the tiles of an issue once all its parts have ended and else waits, SQ.LAUNCH waits for its slot.
It concludes that exec answers a next state, under conditions on state and operands alone, for: sqBndw, sqBndr, sqWait, sqSumr, sqSump, sqStat,
sqStep, sqLaunch. -/
def Obligations.SequencerMovesAndWaits : Prop :=
  (
    ∀ (s : State) (k : CombIdx) (i : SeqIdx) (o : SeqOps) (p : Nat),
      let d := s.dev
      let a := ((d.seq k i).get o.rs1.toNat).toNat
      let b := ((d.seq k i).get o.rs2.toNat).toNat
      let r := (d.seq k i).sum (a % 16)
      let word := BitVec.ofNat 64 (r.val.toNat + b2n r.valid * 2 ^ 32 + b2n r.empty * 2 ^ 33)
      (seqIssues d k i 0 0 o p → Does (.sqBndw k i o) s fun e =>
        e.bndOf k (a % 64) = b % 2 ^ 32 ∧ (∀ k2 n, ¬ (k2 = k.val ∧ n = a % 64) → n < 64 → e.bndOf k2 n = d.bndOf k2 n) ∧
        SeqDone d { e with fab := { e.fab with bnd := d.fab.bnd } } k i 0 0#64) ∧
      (seqIssues d k i 1 0 o p → Does (.sqBndr k i o) s fun e => SeqDone d e k i o.rd.toNat (BitVec.ofNat 64 (d.bndOf k a))) ∧
      (seqIssues d k i 0 2 o p →
        (r.valid = true → Does (.sqSumr k i o) s fun e => SeqDone d e k i o.rd.toNat word) ∧
        (r.valid = false → Does (.sqSumr k i o) s fun e => e = d)) ∧
      (seqIssues d k i 1 2 o p → Does (.sqSump k i o) s fun e => SeqDone d e k i o.rd.toNat word)) ∧
  (
    ∀ (s : State) (k : CombIdx) (i : SeqIdx) (o : SeqOps) (p : Nat),
      let d := s.dev
      let a := ((d.seq k i).get o.rs1.toNat).toNat
      let stat := fun f => d.rf (Reg.MOLT_STAT p) f
      let is := d.fab.issues.filter fun (z : Issue) => z.part == p && z.token == a
      (seqIssues d k i 2 4 o p → Does (.sqStat k i o) s fun e =>
        SeqDone d e k i o.rd.toNat (BitVec.ofNat 64 (stat Fld.MOLT_STAT_GEN * 2 ^ 56 + stat Fld.MOLT_STAT_ACTIVE_INSTAR * 2 ^ 40 +
          stat Fld.MOLT_STAT_SHADOW_INSTAR * 2 ^ 16 + stat Fld.MOLT_STAT_SHADOW_VALID * 2 ^ 11))) ∧
      (∀ c, seqIssues d k i 0 5 o p → d.curCtx p = some c →
        (d.phase c = phExecute → (d.seq k i).stepEpoch ≠ (d.att c).epoch → Does (.sqStep k i o) s fun e =>
          (e.seq k i).stepEpoch = (d.att c).epoch ∧ (e.seq k i).pc = (d.seq k i).pc + 4 ∧
          (∀ r, (e.seq k i).get r = if r = o.rd.toNat ∧ r ≠ 0 then BitVec.ofNat 64 (d.att c).epoch else (d.seq k i).get r) ∧ OthersAsBefore d e k i) ∧
        (d.phase c ≠ phExecute ∨ (d.seq k i).stepEpoch = (d.att c).epoch → Does (.sqStep k i o) s fun e => SeqWaits d e k i (.step o.rd.toNat))) ∧
      (seqIssues d k i 2 1 o p →
        ((∀ z ∈ is, z.ended = true) → (∀ z ∈ is, z.producing = false ∧ z.chain = none) → Does (.sqWait k i o) s fun e =>
          SeqDone d e k i o.rd.toNat (BitVec.ofNat 64 ((is.map Issue.landed).sum))) ∧
        ((∃ z ∈ is, z.ended = false) → Does (.sqWait k i o) s fun e => e = d)) ∧
      (seqIssues d k i 2 5 o p → Does (.sqLaunch k i o) s fun e => SeqWaits d e k i (.launch o.rd.toNat a)))

/-- R149: an RV64 register-register instruction of the base set or the M extension gives rd its function of rs1 and rs2, x0 staying zero, and the pc goes
on by its length. R149: LD and SD reach the data memory at 0x1_0000, a taken BEQ adds its offset to the pc, and an access outside the data memory or
misaligned is no base instruction but the exception 0x0915, which is recorded for the comb. It concludes that exec answers a next state, under
conditions on state and operands alone, for: sequencerException, sequencerBaseInstruction. -/
def Obligations.SequencerBaseInstructions : Prop :=
  (
    ∀ row ∈ rvRows, ∀ (s : State) (k : CombIdx) (i : SeqIdx) (rd r1 r2 : BitVec 5),
      let d := s.dev
      let x := d.seq k i
      d.seqReady k i = true → d.seqFetch k i = some (encR row.f7 r2.toNat r1.toNat row.f3 rd.toNat row.opc, 4) →
      Does (.sequencerBaseInstruction k i) s fun e =>
        (∀ r, (e.seq k i).get r = if r = rd.toNat ∧ r ≠ 0 then row.fn (x.get r1.toNat) (x.get r2.toNat) else x.get r) ∧
        (e.seq k i).pc = x.pc + 4 ∧ (e.seq k i).data = x.data ∧ (e.seq k i).q = x.q ∧ OthersAsBefore d e k i) ∧
  (
    ∀ (s : State) (k : CombIdx) (i : SeqIdx) (r1 r2 : BitVec 5) (imm : BitVec 12),
      let d := s.dev
      let x := d.seq k i
      let ld := encI imm.toNat r1.toNat 3 r2.toNat 0x03
      let sd := encS imm.toNat r2.toNat r1.toNat 3 0x23
      let a := (x.get r1.toNat + imm.signExtend 64).toNat
      d.seqReady k i = true →
      (d.seqFetch k i = some (ld, 4) → 0x10000 ≤ a → a + 8 ≤ 0x14000 → a % 8 = 0 → Does (.sequencerBaseInstruction k i) s fun e =>
        (∀ r, (e.seq k i).get r = if r = r2.toNat ∧ r ≠ 0 then
          BitVec.ofNat 64 (leNat ((List.range 8).map fun n => sget (fun _ => 0#8) x.data (a - 0x10000 + n))) else x.get r) ∧
        (e.seq k i).pc = x.pc + 4 ∧ (e.seq k i).data = x.data ∧ OthersAsBefore d e k i) ∧
      (d.seqFetch k i = some (sd, 4) → 0x10000 ≤ a → a + 8 ≤ 0x14000 → a % 8 = 0 → Does (.sequencerBaseInstruction k i) s fun e =>
        (∀ n, sget (fun _ => 0#8) (e.seq k i).data n = if a - 0x10000 ≤ n ∧ n < a - 0x10000 + 8
          then (x.get r2.toNat).extractLsb' (8 * (n - (a - 0x10000))) 8 else sget (fun _ => 0#8) x.data n) ∧
        (∀ r, (e.seq k i).get r = x.get r) ∧ (e.seq k i).pc = x.pc + 4 ∧ OthersAsBefore d e k i) ∧
      (d.seqFetch k i = some (encB (2 * imm.toNat) r2.toNat r1.toNat 0, 4) → x.get r1.toNat = x.get r2.toNat → Does (.sequencerBaseInstruction k i) s fun e =>
        (e.seq k i).pc = (BitVec.ofNat 64 x.pc + (2 * imm.signExtend 64)).toNat ∧ (∀ r, (e.seq k i).get r = x.get r) ∧ OthersAsBefore d e k i) ∧
      (∀ p, d.seqFetch k i = some (ld, 4) → (a < 0x10000 ∨ 0x14000 < a + 8 ∨ a % 8 ≠ 0) → d.partOfComb k = some p → d.curCtx p = none → d.fltq.length < 64 →
        Does (.sequencerException k i) s fun e =>
          e = { d with fltq := e.fltq } ∧ e.fltq.length = d.fltq.length + 1 ∧
          (e.fltq.getLast?.map fun z => (z.w0.toNat % 256, z.w0.toNat / 256 % 65536, z.w0.toNat / 2 ^ 32 % 256)) = some (cConfig, 0x0915, k.val)))

/-- R84, R115, R116, R119, R133: SQ.CHAIN issues the CHAIN records of its station and index in the comb, each with the values that the bound registers
hold; SQ.ISSUE of a LOAD whose checks pass issues its binding with the counts read now; each gives rd the token. Where a task context is UNUSED or no
bank is free, SQ.CHAIN issues nothing and the fault names its comb. A STORE to T2 is refused with FLT_RO 0x0809 and issues nothing. R125, R126, R151:
SQ.WKC and SQ.WKCRST ask the home of a counter that is not brood-wide, with FETCH_ADD of rs2 or RESET, and wait for the reply. It concludes that exec
answers a next state, under conditions on state and operands alone, for: sqIssue, sqChain, sqWkc, sqWkcrst. -/
def Obligations.SequencerIssues : Prop :=
  (
    ∀ (s : State) (k : CombIdx) (i : SeqIdx) (o : SeqOps) (p : Nat),
      let d := s.dev
      let a := ((d.seq k i).get o.rs1.toNat).toNat
      let b := ((d.seq k i).get o.rs2.toNat).toNat
      let tok := d.fab.nextToken
      let recs := (d.fab.cells.filter fun q => combOf q.1 == k.val).flatMap fun q => (bankRecs q.2.active rChain fun r => r.n 0 2 == a && r.b 15 == b).map fun r => (q.1, r)
      (seqIssues d k i 1 1 o p → (∀ q ∈ recs, d.chainLack q = none ∧ d.chainSplitBad p q = false) →
        Does (.sqChain k i o) s fun e =>
          (∃ l : List Issue, e.fab.issues = d.fab.issues ++ l ∧
            l.map (fun j => (j.cell, j.tc, j.token, j.chain, j.ended, j.counts)) = recs.map fun q =>
              (q.1, q.2.tc, tok, some b, false, [(d.chainVals q.1 q.2).1, (d.chainVals q.1 q.2).2.1, (d.chainVals q.1 q.2).2.2.1, (d.chainVals q.1 q.2).2.2.2.1,
                (d.chainVals q.1 q.2).2.2.2.2])) ∧
          tok < e.fab.nextToken ∧
          SeqDone d { e with fab := { e.fab with issues := d.fab.issues, nextToken := tok } } k i o.rd.toNat (BitVec.ofNat 64 tok)) ∧
      (∀ cause, seqIssues d k i 1 1 o p → recs.findSome? d.chainLack = some cause → d.curCtx p = none → d.fltq.length < 64 →
        Does (.sqChain k i o) s fun e =>
          e.fab.issues = d.fab.issues ∧ Recorded d e cResource cause (resDetail a 0 1 0) ∧ (e.fltq.getLast?.map fun z => z.w0.toNat / 2 ^ 32 % 256) = some k.val ∧ e.mem = d.mem) ∧
      (∀ img sd bd planes, seqIssues d k i 0 1 o p → d.activeImg p = some img → d.desc img a = some sd → sd.kind = skLoad →
        planes = (match (d.curCtx p).bind (d.geo p) with | some g => g.planes | none => 256) → descCheck sd planes (d.footW img) (d.footH img) = none → (d.readCounts k sd).contains 0 = false →
        overMax sd (d.readCounts k sd) = none → d.bindings img k a = [bd] → bd.producer = false → d.resourceCheck p sd (d.readCounts k sd) bd = none →
        d.lnk.groups = [] → (∀ z ∈ d.fab.issues, z.sd.kind ≠ skRemote) →
        Does (.sqIssue k i o) s fun e =>
          (∃ j : Issue, e.fab.issues = d.fab.issues ++ [j] ∧ j.token = tok ∧ j.cell = bd.cell ∧ j.tc = bd.tc ∧ j.descIdx = a ∧ j.sd = sd ∧ j.counts = d.readCounts k sd ∧
            j.sent = 0 ∧ j.landed = 0 ∧ j.ended = false ∧ j.chain = none ∧ j.forager = some (forOf bd.cell)) ∧
          (e.seq k i).get o.rd.toNat = (if o.rd = 0 then 0 else BitVec.ofNat 64 tok) ∧ (e.seq k i).pc = (d.seq k i).pc + 4 ∧ e.fab.transit = d.fab.transit ∧
          (∀ z, z ≠ bd.cell → e.cell z = d.cell z) ∧ e.mem = d.mem ∧ RegsBut [] d e ∧ e.fltq = d.fltq ∧ e.srv = d.srv) ∧
      (∀ img sd, seqIssues d k i 0 1 o p → d.activeImg p = some img → d.desc img a = some sd → sd.kind = skStore → sd.tier = 2 → d.curCtx p = none → d.fltq.length < 64 →
        Does (.sqIssue k i o) s fun e =>
          e.fab.issues = d.fab.issues ∧ e.fltq.length = d.fltq.length + 1 ∧
          (e.fltq.getLast?.map fun z => (z.w0.toNat % 256, z.w0.toNat / 256 % 65536)) = some (cRo, 0x0809) ∧ e.mem = d.mem)) ∧
  (
    ∀ (s : State) (k : CombIdx) (i : SeqIdx) (o : SeqOps) (p h : Nat),
      let d := s.dev
      let n := ((d.seq k i).get o.rs1.toNat).toNat % 256
      let inc := ((d.seq k i).get o.rs2.toNat).toNat
      let c := seqCell k i
      let req := fun (addr : Nat) => mkPkt 9 (d.cell h).gen.toNat h c (0x8000 + i) addr []
      d.homeOf p n = some (h, false) →
      (seqIssues d k i 0 3 o p → enters d c (req (n * 2 ^ 40 + inc % 2 ^ 32)) = true → Does (.sqWkc k i o) s fun e =>
        (e.seq k i) = { d.seq k i with wait := .wkc o.rd.toNat } ∧ e.fab.transit = d.fab.transit ++ [stamped d c (req (n * 2 ^ 40 + inc % 2 ^ 32))] ∧
        e.fab.cells = d.fab.cells ∧ e.mem = d.mem ∧ RegsButFlits [] d e ∧ e.fltq = d.fltq) ∧
      (seqIssues d k i 1 3 o p → enters d c (req (n * 2 ^ 40 + 2 * 2 ^ 38)) = true → Does (.sqWkcrst k i o) s fun e =>
        (e.seq k i) = { d.seq k i with wait := .wkc 0 } ∧ e.fab.transit = d.fab.transit ++ [stamped d c (req (n * 2 ^ 40 + 2 * 2 ^ 38))] ∧
        e.fab.cells = d.fab.cells ∧ e.mem = d.mem ∧ RegsButFlits [] d e ∧ e.fltq = d.fltq))

/-- R155 to R158, R161: SQ.PRELOAD of an instar of the active image sends its records as CFG_WRITE packets of the next generation and awaits every cell
that has one; a second preload of the same instar has no effect; one that the image lacks is recorded as 0x0913. R152, R158, R161: SQ.MOLT makes the
sequencer wait; one for an instar that the image lacks is recorded as 0x0913; the request of a voter for the instar that others asked for is added,
the barrier starting only with the last voter. SQ.VOTE 0 of a voter counts its comb once; of another sequencer it only goes on. It concludes that exec
answers a next state, under conditions on state and operands alone, for: sqPreload, sqMolt, sqVote. -/
def Obligations.PreloadsAndVoters : Prop :=
  (
    ∀ (s : State) (k : CombIdx) (i : SeqIdx) (o : SeqOps) (p : Nat) (img : Img),
      let d := s.dev
      let n := ((d.seq k i).get o.rs1.toNat).toNat
      let h := d.activeH p
      let writes := instarWrites d img n
      let busy := (writes.filter fun w => !w.2.isEmpty).map (·.1)
      let pkts := writes.flatMap fun w => cfgPackets w.1 ((d.rf (Reg.MOLT_STAT p) Fld.MOLT_STAT_GEN + 1) % 256) w.2
      seqIssues d k i 0 4 o p → d.img? p h = some img →
      (n < d.instarCount img → d.shadowHolds p h n = true → Does (.sqPreload k i o) s fun e => SeqDone d e k i 0 0#64) ∧
      (n < d.instarCount img → n < 65536 → d.shadowTaken p = false → d.shadowHolds p h n = false → (d.molt p).unacked = [] → d.moltState p = mIdle → d.badWalk img (d.instarRecs img n) = none →
        (∀ w ∈ writes, w.1 < 8192) → (∀ q ∈ pkts, enters d q.src q = true) → busy ≠ [] →
        Does (.sqPreload k i o) s fun e =>
          e.rf (Reg.MOLT_STAT p) Fld.MOLT_STAT_STATE = mLoading ∧ e.rf (Reg.MOLT_STAT p) Fld.MOLT_STAT_SHADOW_INSTAR = n ∧
          e.rf (Reg.MOLT_STAT p) Fld.MOLT_STAT_SHADOW_VALID = 0 ∧ (e.molt p).unacked = busy ∧
          (∃ l, e.fab.transit = l ++ pkts.map (fun q => stamped d q.src q)) ∧ (e.seq k i).pc = (d.seq k i).pc + 4 ∧
          (∀ c, (e.cell c).active = (d.cell c).active ∧ (e.cell c).gen = (d.cell c).gen) ∧ e.mem = d.mem ∧ RegsButFlits [Reg.MOLT_STAT p] d e) ∧
      (d.instarCount img ≤ n → d.curCtx p = none → d.fltq.length < 64 → Does (.sqPreload k i o) s fun e =>
        e = { d with fltq := e.fltq } ∧ e.fltq.length = d.fltq.length + 1 ∧
        (e.fltq.getLast?.map fun z => (z.w0.toNat % 256, z.w0.toNat / 256 % 65536)) = some (cConfig, 0x0913))) ∧
  (
    ∀ (s : State) (k : CombIdx) (i : SeqIdx) (o : SeqOps) (p : Nat),
      let d := s.dev
      let n := ((d.seq k i).get o.rs1.toNat).toNat
      (seqIssues d k i 1 4 o p → d.isVoter k i = false → (∀ m, d.img? p (d.activeH p) = some m → n < d.instarCount m) → Does (.sqMolt k i o) s fun e => SeqWaits d e k i (.molt o.rd.toNat n)) ∧
      (∀ m, seqIssues d k i 1 4 o p → d.img? p (d.activeH p) = some m → d.instarCount m ≤ n → d.curCtx p = none → d.fltq.length < 64 → Does (.sqMolt k i o) s fun e =>
        e.seq k i = { d.seq k i with wait := .molt o.rd.toNat n } ∧ e.img = d.img ∧ e.fab.cells = d.fab.cells ∧ e.mem = d.mem ∧ Recorded d e cConfig 0x0913 (n % 65536)) ∧
      (∀ img q rest z, seqIssues d k i 1 4 o p → d.isVoter k i = true → d.activeHandle p = some (16 * p + d.activeH p) → d.img? p (d.activeH p) = some img →
        n < d.instarCount img → (d.molt p).requests = (q, n) :: rest → z ∈ d.voterCombs p (d.activeH p) → z ≠ k.val → (∀ r ∈ (d.molt p).requests, r.1 ≠ z) →
        Does (.sqMolt k i o) s fun e =>
          e.seq k i = { d.seq k i with wait := .molt o.rd.toNat n } ∧ e.molt p = { d.molt p with requests := (d.molt p).requests ++ [(k.val, n)] } ∧
          (∀ x, x ≠ p → e.molt x = d.molt x) ∧ e.fab.cells = d.fab.cells ∧ e.mem = d.mem ∧ RegsBut [] d e) ∧
      (seqIssues d k i 1 5 o p → n = 0 → d.isVoter k i = false → Does (.sqVote k i o) s fun e => SeqDone d e k i 0 0#64) ∧
      (∀ c, seqIssues d k i 1 5 o p → n = 0 → d.isVoter k i = true → d.curCtx p = some c → d.phase c = phExecute →
        (∃ z ∈ d.voterCombs p (d.rf (Reg.SCHED_CTX c) Fld.SCHED_CTX_HANDLE), z ≠ k.val ∧ z ∉ (d.att c).votes) →
        Does (.sqVote k i o) s fun e =>
          (e.att c).votes = (if k.val ∈ (d.att c).votes then (d.att c).votes else (d.att c).votes ++ [k.val]) ∧ (∀ x, x ≠ c → e.att x = d.att x) ∧
          (e.seq k i).pc = (d.seq k i).pc + 4 ∧ e.fab.cells = d.fab.cells ∧ e.mem = d.mem ∧ RegsBut [] d e))

/-! ### Images, molts, foragers, loader and model store (chapters 05 and 06) -/

/-- R180, R183: a forager whose next transfer is a queue read of a LOAD tile in T1 spends a credit, reserves the next slot of the queue and sends one
READ_REQ for the tile's address to the memory's edge; its issue counts one more tile sent. R182: FQ_LIMIT takes the values 1 to 64 through a view that
may write it, and keeps its value for any other. It concludes that exec answers a next state, under conditions on state and operands alone, for:
foragerTransferSend, fqLimitWrite. -/
def Obligations.ForagersReadAhead : Prop :=
  (
    ∀ (s : State) (k : CombIdx) (f : ForIdx) (i : Issue) (t : List Nat) (last : Bool),
      let d := s.dev
      let x := d.cell i.cell
      let y := x.queue i.queue
      let port := forCell i.comb (forOf i.cell)
      let m := memPort (tileAddr i.sd t) i.cell
      let q := ((mkPkt 2 x.gen.toNat (cellAt m.1 m.2.1) i.cell y.next (tileAddr i.sd t) []).withTc i.tc i.queue).withEject m.2.2
      d.nextFor k f = some (i, false) → d.nextTransfer i = .queueRead t last → i.sd.blocked = false → i.sd.tier = 1 → i.queue < 16 → enters d port q = true →
      Does (.foragerTransferSend k f) s fun e =>
        ((e.cell i.cell).queue i.queue).slots = y.slots ++ [⟨y.next, .forager i.uid, false, last, 0⟩] ∧
        (e.cell i.cell).forCredit i.queue = x.forCredit i.queue - 1 ∧ (∀ z, z ≠ i.queue → (e.cell i.cell).queue z = x.queue z) ∧ (∀ z, z ≠ i.cell → e.cell z = d.cell z) ∧
        e.fab.issues = d.fab.issues.map (fun j => if j.uid = i.uid then { j with sent := j.sent + 1 } else j) ∧
        e.fab.transit = d.fab.transit ++ [stamped d port q] ∧ e.mem = d.mem ∧ RegsButFlits [] d e ∧ e.fltq = d.fltq) ∧
  (
    ∀ (s : State) (v : View) (k : CombIdx) (f : ForIdx) (val : Word) (p : Nat),
      let d := s.dev
      let off := Reg.MEM_FQ_LIMIT (16 * k + f)
      d.hostUp off = true → d.ownerOf k = some p → d.sealed p = false → (v.val = 0 ∨ v.val = p + 1) →
      Does (.fqLimitWrite v k f val) s fun e =>
        e.rd off = (if 1 ≤ val.toNat % 128 ∧ val.toNat % 128 ≤ 64 then BitVec.ofNat 64 (val.toNat % 128) else d.rd off) ∧ RegsBut [off] d e ∧ OnlyRegs d e)

/-- R145, R146, R148: REGISTER of a free handle makes it REGISTERING with the command running; RETIRE of a refused handle frees it; a second command while
one runs is answered BUSY; the end of a registration whose checks pass makes the handle REGISTERED and extends MRP. It concludes that exec answers a
next state, under conditions on state and operands alone, for: registerImage, registrationEnd, retire. -/
def Obligations.HandleCommands : Prop :=
  ∀ (s : State) (v : View) (p : PartIdx) (h : Fin 16) (o : CombIdx),
    let d := s.dev
    let n := 16 * p.val + h.val
    (d.hostUp (Reg.MOLT_CMD p) = true → d.mayPart v p = true →
      (d.rf (Reg.MOLT_CMD p) Fld.MOLT_CMD_OP = 0 → d.handleState n ≠ 1 → d.handleState n ≠ 2 → Does (.registerImage v p h o) s fun e =>
        e.rf (Reg.MOLT_CMD p) Fld.MOLT_CMD_OP = 1 ∧ e.rf (Reg.MOLT_CMD p) Fld.MOLT_CMD_HANDLE = h.val ∧ e.rf (Reg.MOLT_CMD p) Fld.MOLT_CMD_ORIGIN = o.val ∧
        e.handleState n = 1 ∧ e.rf (Reg.MOLT_STAT p) Fld.MOLT_STAT_CMD_RESULT = crRunning ∧
        RegsBut [Reg.MOLT_CMD p, Reg.MOLT_HSTAT n, Reg.MOLT_STAT p] d e ∧ OnlyRegs { d with img := e.img } e ∧ e.img.imgs = d.img.imgs ∧ e.img.progs = d.img.progs) ∧
      (d.rf (Reg.MOLT_CMD p) Fld.MOLT_CMD_OP ≠ 0 → ∀ cmd ∈ [Instr.registerImage v p h o, .retire v p h], Does cmd s fun e =>
        FieldNow d e (Reg.MOLT_STAT p) Fld.MOLT_STAT_CMD_RESULT crBusy ∧ OnlyRegs d e) ∧
      (d.rf (Reg.MOLT_CMD p) Fld.MOLT_CMD_OP = 0 → d.handleState n = 3 → Does (.retire v p h) s fun e =>
        e.handleState n = 0 ∧ e.imgAt n = none ∧ (∀ m, m ≠ n → e.imgAt m = d.imgAt m) ∧ (∀ m, m / 64 = n → e.progAt m = none) ∧
        e.rf (Reg.MOLT_STAT p) Fld.MOLT_STAT_CMD_RESULT = crDone ∧ e.mem = d.mem ∧
        RegsBut [Reg.MOLT_CMD p, Reg.MOLT_HSTAT n, Reg.MOLT_HDIG n, Reg.MOLT_STAT p, Reg.STEP_EVT_LOST p] d e)) ∧
    (∀ i, (d.molt p).cmdHandle = h.val → d.rf (Reg.MOLT_CMD p) Fld.MOLT_CMD_OP = 1 → d.handleState n = 1 →
      i = d.candidate p (d.rf (Reg.MOLT_CMD p) Fld.MOLT_CMD_ORIGIN) →
      (d.regCheck p h i = none → Does (.registrationEnd p) s fun e =>
        e.handleState n = 2 ∧ e.imgAt n = some i ∧ e.rf (Reg.MOLT_CMD p) Fld.MOLT_CMD_OP = 0 ∧ e.rf (Reg.MOLT_STAT p) Fld.MOLT_STAT_CMD_RESULT = crDone ∧
        (List.range 8).flatMap (fun j => toLe 8 (e.rd (Reg.SEC_MRP p j)).toNat) =
          sha512 ((List.range 8).flatMap (fun j => toLe 8 (d.rd (Reg.SEC_MRP p j)).toNat) ++ d.bytes (i.addr + 64) 64) ∧
        (∀ m, m ≠ n → e.imgAt m = d.imgAt m)) ∧
      (∀ cls cause detail, d.regCheck p h i = some (cls, cause, detail) → d.fltq.length < 64 → Does (.registrationEnd p) s fun e =>
        e.handleState n = 3 ∧ e.img = d.img ∧ e.mem = d.mem ∧ e.rf (Reg.MOLT_STAT p) Fld.MOLT_STAT_CMD_RESULT = crRefused ∧ e.fltq.length = d.fltq.length + 1))

/-- R162, R164: FLIP_START of a complete barrier with a valid shadow of the active handle renews each cell of the footprint: the shadow bank becomes the
active one, the generation is the next, registers, banks, queues and flags are clear; R162: FLIP_END makes the controller IDLE. R163: the end of
ABORTING re-tags the footprint in place: every cell keeps its active bank, takes the next generation and holds no tile; the controller is IDLE. It
concludes that exec answers a next state, under conditions on state and operands alone, for: flipStart, flipEnd, abortingEnd. -/
def Obligations.FlipsAndAborts : Prop :=
  (
    ∀ (s : State) (p : PartIdx),
      let d := s.dev
      let n := d.rf (Reg.MOLT_STAT p) Fld.MOLT_STAT_SHADOW_INSTAR
      let h := d.rf (Reg.MOLT_STAT p) Fld.MOLT_STAT_SHADOW_HANDLE
      (∀ i, d.moltState p = mDraining → (d.molt p).barrier = true → d.rf (Reg.MOLT_STAT p) Fld.MOLT_STAT_SHADOW_VALID = 1 → d.genRested p = true →
        d.img? p h = some i → d.activeHandle p = some (16 * p.val + h) → (d.footCells i).Nodup → (∀ c ∈ d.footCells i, c < 8192) →
        Does (.flipStart p) s fun e =>
          (∀ c ∈ d.footCells i, (e.cell c).active = (d.cell c).shadow ∧ (e.cell c).shadow = (d.cell c).active ∧ (e.cell c).gen = (d.cell c).gen + 1 ∧
            (e.cell c).bank = !(d.cell c).bank ∧ (e.cell c).queues = [] ∧ (e.cell c).vregs = [] ∧ (e.cell c).acc = [] ∧ (e.cell c).shadowValid = false) ∧
          (∀ c, c ∉ d.footCells i → e.cell c = d.cell c) ∧
          e.rf (Reg.MOLT_STAT p) Fld.MOLT_STAT_GEN = (d.rf (Reg.MOLT_STAT p) Fld.MOLT_STAT_GEN + 1) % 256 ∧ e.moltState p = mFlipping ∧
          e.rf (Reg.MOLT_STAT p) Fld.MOLT_STAT_ACTIVE_INSTAR = n ∧ e.rf (Reg.MOLT_STAT p) Fld.MOLT_STAT_SHADOW_VALID = 0 ∧
          e.rf (Reg.MOLT_FLIPS p) cnt48 = satAdd 48 (d.rf (Reg.MOLT_FLIPS p) cnt48) 1 ∧ e.fab.seqs = d.fab.seqs ∧ e.mem = d.mem) ∧
      (d.moltState p = mFlipping → (d.molt p).abortWaits = false →
        Does (.flipEnd p) s fun e =>
          e.moltState p = mIdle ∧ (e.molt p).draining = false ∧ (e.molt p).requests = [] ∧ (e.molt p).barrier = false ∧ e.fab.cells = d.fab.cells ∧ e.mem = d.mem ∧
          RegsBut [Reg.MOLT_STAT p, Reg.MOLT_TIMES p] d e ∧
          (∀ k rd m, k ∈ d.partCombs p → ∀ i, i < 4 → (d.seq k i).wait = .molt rd m → (e.seq k i).wait = .none ∧
            (∀ r, (e.seq k i).get r = if r = rd ∧ r ≠ 0 then BitVec.ofNat 64 (d.rf (Reg.MOLT_STAT p) Fld.MOLT_STAT_GEN) else (d.seq k i).get r)))) ∧
  (
    ∀ (s : State) (p : PartIdx) (i : Img) (h : Nat),
      let d := s.dev
      d.moltState p = mAborting → d.genRested p = true → d.activeHandle p = some h → d.activeImg p = some i → (d.footCells i).Nodup → (∀ c ∈ d.footCells i, c < 8192) →
      (∀ c : CtxIdx, d.phase c ≠ phAbort) →
      Does (.abortingEnd p) s fun e =>
        (∀ c ∈ d.footCells i, (e.cell c).active = (d.cell c).active ∧ (e.cell c).gen = (d.cell c).gen + 1 ∧ (e.cell c).queues = [] ∧ (e.cell c).acc = []) ∧
        (∀ c, c ∉ d.footCells i → e.cell c = d.cell c) ∧ e.moltState p = mIdle ∧
        e.rf (Reg.MOLT_STAT p) Fld.MOLT_STAT_GEN = (d.rf (Reg.MOLT_STAT p) Fld.MOLT_STAT_GEN + 1) % 256 ∧ e.mem = d.mem)

/-- R188, R190: a job whose record passes its checks starts: it is RUNNING with STATUS 1 in its record; a COPY with a good source ends with the
destination's bytes those of the source, STATUS 2 and the units written in the record, and HEAD past it. R188, R203: LD_TAIL takes a value that leaves
at most a ring of records between HEAD and it; LD_BASE sets the ring, and TAIL and HEAD to 0, while no job of the partition runs. It concludes that
exec answers a next state, under conditions on state and operands alone, for: loaderCopy, loaderTransform, loaderJxp, loaderJobEnd, ldTailWrite,
ldBaseWrite. -/
def Obligations.LoaderRuns : Prop :=
  (
    ∀ (s : State) (p : PartIdx) (idx : Nat),
      let d := s.dev
      let a := d.jobAddr p idx
      let j : Job := ⟨p, idx, d.bytes a 64, [], 0, 1, [], 0, none, d.ps⟩
      (∀ row ∈ [(1, Instr.loaderCopy p), (2, .loaderTransform p), (3, .loaderJxp p)],
        d.nextJob p = some idx → j.op = row.1 → d.nextLoad = some p.val → d.ldr.jobs.length < 8 → j.kind ≤ 1 → j.formatOk = true →
        d.dstCheck p j.dst (d.dstLen j) = none → j.entry = 0xFFFF →
        Does row.2 s fun e =>
          e.ldr.jobs = d.ldr.jobs ++ [j] ∧ e.ldr.turn = (p.val + 1) % 16 ∧ e.num (a + 56) 4 = 1 ∧ BytesBut (a + 56) 8 d e ∧ OnlyRegs { d with mem := e.mem, ldr := e.ldr } e ∧
          RegsBut [] d e) ∧
      (∀ q : Job, d.ldr.jobs = [q] → d.ldr.ended = [] → q.part = p.val → q.status = 1 → q.holes = [] → q.op = 1 → q.kind = 0 → q.entry = 0xFFFF → q.srcLen % 512 = 0 →
        d.srcReadable q = true → (q.dst < t2Base ∨ d.t2Refs q.dst (max 1 q.srcLen) = 0) → q.index = d.ldHead p → q.notify = false → q.dst + q.srcLen ≤ d.jobAddr p q.index ∨ d.jobAddr p q.index + 64 ≤ q.dst →
        Does (.loaderJobEnd p true) s fun e =>
          (∀ n, n < q.srcLen → e.byte (q.dst + n) = d.byte (q.srcAddr + n)) ∧ e.num (d.jobAddr p q.index + 56) 4 = 2 ∧ e.num (d.jobAddr p q.index + 60) 4 = q.srcLen / 512 % 2 ^ 32 ∧
          (∀ x, (x < q.dst ∨ q.dst + q.srcLen ≤ x) → (x < d.jobAddr p q.index + 56 ∨ d.jobAddr p q.index + 64 ≤ x) → e.byte x = d.byte x) ∧
          e.ldr.jobs = [] ∧ e.ldHead p = (q.index + 1) % 2 ^ 32)) ∧
  (
    ∀ (s : State) (v : View) (p : PartIdx) (val : Word),
      let d := s.dev
      (d.hostUp (Reg.MEM_LD_TAIL p) = true → d.mayPart v p = true → Does (.ldTailWrite v p val) s fun e =>
        e.rd (Reg.MEM_LD_TAIL p) = (if (val.toNat % 2 ^ 32 + 2 ^ 32 - d.ldHead p) % 2 ^ 32 ≤ 2 ^ d.ldLog p then BitVec.ofNat 64 (val.toNat % 2 ^ 32)
          else d.rd (Reg.MEM_LD_TAIL p)) ∧ RegsBut [Reg.MEM_LD_TAIL p] d e ∧ OnlyRegs d e) ∧
      (d.hostUp (Reg.MEM_LD_BASE p) = true → d.sealed p = false → (v.val = 0 ∨ v.val = p.val + 1) → (∀ j ∈ d.ldr.jobs, j.part ≠ p.val) →
        fget val Fld.MEM_LD_BASE_BASE % 64 = 0 → t1Base ≤ fget val Fld.MEM_LD_BASE_BASE → fget val Fld.MEM_LD_BASE_BASE < t1End →
        Does (.ldBaseWrite v p val) s fun e =>
          e.ldBase p = fget val Fld.MEM_LD_BASE_BASE ∧ e.ldLog p = fget val Fld.MEM_LD_BASE_LOG2N ∧ e.ldTail p = 0 ∧ e.ldHead p = 0 ∧
          RegsBut [Reg.MEM_LD_BASE p, Reg.MEM_LD_TAIL p, Reg.MEM_LD_HEAD p] d e ∧ e.mem = d.mem))

/-- R198: CREATE of a FREE entry makes it LOADING for the partition; SEAL of an own LOADING entry makes it RESIDENT with the image's digest; DELETE of an
own entry that nothing refers to makes it FREE. Each ends with RESULT 2; a command that may not act ends with RESULT 3 and changes no byte. It
concludes that exec answers a next state, under conditions on state and operands alone, for: msCreate, msSeal, msDelete. -/
def Obligations.ModelStoreCommands : Prop :=
  ∀ (s : State) (v : View) (p : PartIdx) (en : Fin 512) (h : Fin 16),
    let d := s.dev
    let result := fun (e : Dev) => e.rf (Reg.MEM_MS_CMD p) Fld.MEM_MS_CMD_RESULT
    d.hostUp (Reg.MEM_MS_CMD p) = true → d.mayPart v p = true →
    (d.t2Here = true → d.partUsable p = true → d.msState en = msFree → Does (.msCreate v p en) s fun e =>
      e.msState en = msLoading ∧ e.msPart en = p.val ∧ e.msRegions en = 0 ∧ BytesBut (msAddr en) 4096 d e ∧ result e = msDone ∧ RegsBut [Reg.MEM_MS_CMD p] d e) ∧
    (d.msState en ≠ msFree → Does (.msCreate v p en) s fun e => e.mem = d.mem ∧ result e = msRefused ∧ RegsBut [Reg.MEM_MS_CMD p] d e) ∧
    (∀ i, d.img? p h = some i → d.t2Here = true → d.msOwned p en = true → d.msState en = msLoading → Does (.msSeal v p en h) s fun e =>
      e.msState en = msResident ∧ e.bytes (msAddr en + 64) 64 = d.bytes (i.addr + 64) 64 ∧ BytesBut (msAddr en) 128 d e ∧ result e = msDone ∧
      RegsBut [Reg.MEM_MS_CMD p, Reg.MEM_MS_DIG en] d e) ∧
    (d.t2Here = true → d.msOwned p en = true → d.msRefs en = 0 → Does (.msDelete v p en) s fun e =>
      e.msState en = msFree ∧ BytesBut (msAddr en) 4096 d e ∧ result e = msDone ∧ RegsBut [Reg.MEM_MS_CMD p, Reg.MEM_MS_DIG en] d e) ∧
    (d.msRefs en ≠ 0 → Does (.msDelete v p en) s fun e => e.mem = d.mem ∧ result e = msRefused ∧ RegsBut [Reg.MEM_MS_CMD p] d e)

/-- R200, R201: a patrol slot that passes is counted and the walk goes on, after the last slot from its start with PASSES one higher; one that fails is
recorded with cause 0x0A03 and its address. A repair whose source has all come rewrites a failing slot with the re-derived bytes; one whose source
fails makes the entry DAMAGED. It concludes that exec answers a next state, under conditions on state and operands alone, for: patrolSlotCheck,
repairEnd. -/
def Obligations.PatrolAndRepair : Prop :=
  ∀ (s : State),
    let d := s.dev
    (∀ w : PatrolSlot, d.rf Reg.MEM_PATROL_CTL Fld.MEM_PATROL_CTL_ENABLE = 1 → d.patrolNext = some w → d.ldr.ecc = [] →
      (d.patrolLast w = false → d.slotOk w.addr = true → Does .patrolSlotCheck s fun e =>
        e.ldr = { d.ldr with patrolAt := { w.key with slot := w.key.slot + 1 } } ∧
        e.rf Reg.MEM_PATROL_STAT Fld.MEM_PATROL_STAT_TILES = satAdd Fld.MEM_PATROL_STAT_TILES.w (d.rf Reg.MEM_PATROL_STAT Fld.MEM_PATROL_STAT_TILES) 1 ∧
        RegsBut [Reg.MEM_PATROL_STAT] d e ∧ OnlyRegs { d with ldr := e.ldr } e) ∧
      (d.patrolLast w = true → d.slotOk w.addr = true → Does .patrolSlotCheck s fun e =>
        e.ldr = { d.ldr with patrolAt := ⟨0, 0, 0, 0⟩ } ∧ e.rf Reg.MEM_PATROL_STAT Fld.MEM_PATROL_STAT_TILES = 0 ∧
        e.rf Reg.MEM_PATROL_STAT Fld.MEM_PATROL_STAT_PASSES = satAdd Fld.MEM_PATROL_STAT_PASSES.w (d.rf Reg.MEM_PATROL_STAT Fld.MEM_PATROL_STAT_PASSES) 1 ∧
        RegsBut [Reg.MEM_PATROL_STAT] d e ∧ OnlyRegs { d with ldr := e.ldr } e) ∧
      (d.slotOk w.addr = false → w.region = none → d.fltq.length < 64 → Does .patrolSlotCheck s fun e =>
        (e.fltq.getLast?.map fun z => (z.w0.toNat % 256, z.w0.toNat / 256 % 65536, z.detail)) = some (cTileCheck, 0x0A03, BitVec.ofNat 64 w.addr) ∧
        e.fltq.length = d.fltq.length + 1 ∧ RegsBut [Reg.MEM_PATROL_STAT, Reg.MEM_PATROL_LAST] d e ∧ e.mem = d.mem)) ∧
    (∀ (r : Repair) (rest : List Repair) (out : List (List Byte)),
      d.ldr.repairs = r :: rest → (∀ c : CtxIdx, d.phase c ≠ phHeld) →
      (r.holes = [] →
        let j : Job := ⟨d.msPart r.entry, 0, d.msRecord r.entry r.region ++ zeros 16, r.src, 0, 1, [], 0, none, d.ps⟩
        j.kind ≠ 3 → d.srcReadable j = true → d.jobOutput j = (out, true) → cutSlots out.flatten = [out.flatten] → out.flatten.length = 4608 → d.slotOk j.dst = false →
        Does (.repairEnd true) s fun e => e.bytes j.dst 4608 = out.flatten ∧ BytesBut j.dst 4608 d e ∧ e.ldr = { d.ldr with repairs := rest } ∧ RegsBut schedStats d e ∧ e.fltq = d.fltq) ∧
      (d.fltq.length < 64 → Does (.repairEnd false) s fun e =>
        e.msState r.entry = msDamaged ∧ BytesBut (msAddr r.entry) 1 d e ∧ e.ldr = { d.ldr with repairs := rest } ∧ RegsBut schedStats d e ∧
        (e.fltq.getLast?.map fun z => (z.w0.toNat % 256, z.w0.toNat / 256 % 65536)) = some (cTileCheck, 0x0A04)))

/-! ### Serving (chapter 07) -/

/-- R205, R235, R253: LOOP_START of a STOPPED loop that may start makes it RUNNING with F at 0 and is refused otherwise; LOOP_STOP makes a RUNNING loop
STOPPING, or STOPPED where no slot holds a request, and is refused on a HALTED loop that holds one; LOOP_RESUME makes a HALTED loop RUNNING with F at
0 and is refused on any other. R287, R288: CTX_ENABLE of a context whose handle holds an image of its scope enables it and its priority counts;
CTX_DISABLE of a STOPPED one disables it and takes it from its resident slot; a write of the settings changes the priority at any time, handle and
scope only while disabled; what may not be is recorded with cause 0x0E12 and changes nothing. It concludes that exec answers a next state, under
conditions on state and operands alone, for: loopStart, loopStop, loopResume, ctxEnable, ctxDisable, ctxSettingsWrite. -/
def Obligations.LoopsAndTheirSettings : Prop :=
  (
    ∀ (s : State) (v : View) (c : CtxIdx) (p : Nat),
      let d := s.dev
      let result := fun (e : Dev) => e.rf (Reg.STEP_STAT c) Fld.STEP_STAT_RESULT
      let startable := (d.partUsable p && d.enabled c && d.geomOk p c) = true
      let refused := fun (e : Dev) => e.loopState c = d.loopState c ∧ result e = lrRefused ∧ OnlyRegs d e ∧ RegsBut [Reg.STEP_CTL c, Reg.STEP_STAT c] d e
      d.hostUp (Reg.STEP_CTL c) = true → d.partOfCtx c = some p → d.mayPart v p = true →
      (d.loopState c = lpStopped → startable → Does (.loopStart v c) s fun e =>
        e.loopState c = lpRunning ∧ result e = lrDone ∧ e.fails c = 0 ∧ e.rf (Reg.STEP_PHASE c) Fld.STEP_PHASE_HALT_CAUSE = 0 ∧ e.phase c = d.phase c ∧
        RegsBut [Reg.STEP_CTL c, Reg.STEP_STAT c, Reg.STEP_PHASE c, Reg.SCHED_STAT p] d e ∧ e.mem = d.mem ∧ e.fab = d.fab ∧ ∀ x, x ≠ c.val → e.att x = d.att x) ∧
      (d.loopState c = lpStopped → ¬ startable → Does (.loopStart v c) s refused) ∧
      (d.loopState c = lpRunning → Does (.loopStop v c) s fun e =>
        e.loopState c = (if d.holds c = [] ∧ d.phase c = phIdle then lpStopped else lpStopping) ∧ result e = lrDone ∧ e.holds c = d.holds c ∧
        RegsButTraffic [Reg.STEP_CTL c, Reg.STEP_STAT c] d e ∧ e.fab = d.fab ∧ ∀ x, x ≠ c.val → e.att x = d.att x) ∧
      (d.loopState c = lpHalted → d.holds c ≠ [] → Does (.loopStop v c) s refused) ∧
      (d.loopState c = lpHalted → d.holds c = [] → Does (.loopStop v c) s fun e =>
        e.loopState c = lpStopped ∧ result e = lrDone ∧ RegsBut [Reg.STEP_CTL c, Reg.STEP_STAT c, Reg.STEP_PHASE c] d e ∧ e.mem = d.mem) ∧
      (d.loopState c = lpHalted → Does (.loopResume v c) s fun e =>
        e.loopState c = lpRunning ∧ result e = lrDone ∧ e.fails c = 0 ∧ e.phase c = d.phase c ∧
        RegsBut [Reg.STEP_CTL c, Reg.STEP_STAT c, Reg.STEP_PHASE c, Reg.SCHED_STAT p] d e ∧ e.mem = d.mem ∧ e.fab = d.fab) ∧
      (d.loopState c ≠ lpHalted → Does (.loopResume v c) s refused)) ∧
  (
    ∀ (s : State) (v : View) (c : CtxIdx),
      let d := s.dev
      let f := fun (e : Dev) (x : Fld) => e.rf (Reg.SCHED_CTX c) x
      d.hostUp (Reg.SCHED_CTX c) = true → d.mayCtx v c = true →
      (∀ p i, d.partOfCtx c = some p → d.ctxImg p c = some i → d.partUsable p = true → d.imgBrood i = d.broodCtx c → Does (.ctxEnable v c) s fun e =>
        e.enabled c = true ∧ e.prioOf c = f d Fld.SCHED_CTX_PRIO ∧ (∀ g, Apart Fld.SCHED_CTX_ENABLE g → f e g = f d g) ∧
        RegsBut [Reg.SCHED_CTX c, Reg.SCHED_STAT p] d e ∧ e.mem = d.mem ∧ e.srv = d.srv) ∧
      (∀ p, d.partOfCtx c = some p → d.ctxImg p c = none → d.fltq.length < 64 → Does (.ctxEnable v c) s fun e => Recorded d e cHostProto 0x0E12 c ∧ e = { d with fltq := e.fltq }) ∧
      (d.loopState c = lpStopped → Does (.ctxDisable v c) s fun e =>
        e.enabled c = false ∧ (∀ g, Apart Fld.SCHED_CTX_ENABLE g → f e g = f d g) ∧ (∀ p, d.partOfCtx c = some p → e.chosenOf p ≠ some c.val) ∧ e.mem = d.mem ∧ e.srv = d.srv) ∧
      (d.loopState c ≠ lpStopped → d.fltq.length < 64 → Does (.ctxDisable v c) s fun e => Recorded d e cHostProto 0x0E12 c ∧ e = { d with fltq := e.fltq }) ∧
      (∀ (h : BitVec 4) (b : Bool) (pr : BitVec 3), d.enabled c = false → Does (.ctxSettingsWrite v c h b pr) s fun e =>
        f e Fld.SCHED_CTX_PRIO = pr.toNat ∧ f e Fld.SCHED_CTX_HANDLE = h.toNat ∧ f e Fld.SCHED_CTX_BROOD = b2n b ∧ e.enabled c = false ∧ OnlyRegs d e ∧
        RegsBut [Reg.SCHED_CTX c] d e) ∧
      (∀ (h : BitVec 4) (b : Bool) (pr : BitVec 3), d.enabled c = true → (f d Fld.SCHED_CTX_HANDLE ≠ h.toNat ∨ d.broodCtx c ≠ b) → d.fltq.length < 64 →
        Does (.ctxSettingsWrite v c h b pr) s fun e =>
          Recorded d e cHostProto 0x0E12 c ∧ f e Fld.SCHED_CTX_PRIO = pr.toNat ∧ f e Fld.SCHED_CTX_HANDLE = f d Fld.SCHED_CTX_HANDLE ∧
          f e Fld.SCHED_CTX_BROOD = f d Fld.SCHED_CTX_BROOD ∧ e.enabled c = true ∧ RegsBut [Reg.SCHED_CTX c] d e))

/-- R211 to R213: while no commit is being applied, SUBMIT of a FREE entry that passes every check makes it QUEUED with the time of its submission, and
one that fails makes it FAILED with the STATUS and the number of the first failing check; CANCEL ends a request without a slot at once and only marks
one with a slot; RELEASE of a terminal entry makes it FREE with its status zero; each is counted as taken. R211, R210, R214: a doorbell that the
entry's state does not allow is counted as refused and recorded with cause 0x0B01, and changes no entry; while a commit is being applied a doorbell
waits; REQ_DESC_WRITE stores its word, reserved bytes zero (R7), while the entry is FREE, and is recorded with 0x0B03 and changes nothing otherwise.
It concludes that exec answers a next state, under conditions on state and operands alone, for: submit, cancel, release, reqDescWrite. -/
def Obligations.Doorbells : Prop :=
  (
    ∀ (s : State) (v : View) (p : PartIdx) (n : ReqIdx),
      let d := s.dev
      let taken := fun (e : Dev) =>
        e.rf (Reg.STEP_DB_STAT p) Fld.STEP_DB_STAT_TAKEN = satAdd Fld.STEP_DB_STAT_TAKEN.w (d.rf (Reg.STEP_DB_STAT p) Fld.STEP_DB_STAT_TAKEN) 1 ∧ e.fab = d.fab
      d.hostUp (Reg.STEP_DB p) = true → d.mayPart v p = true → d.committing p = false →
      (d.allowed p dbSubmit n = true → ((d.noteDoorbell p dbSubmit n).submitting n).submitCheck p n = none → Does (.submit v p n) s fun e =>
        e.rqState n = rsQueued ∧ e.rq n 296 8 = d.sysTime.toNat ∧ taken e ∧ RequestOnly n false d e ∧
        RegsBut [Reg.STEP_DB p, Reg.STEP_DB_STAT p, Reg.SCHED_STAT p] d e) ∧
      (∀ check status, d.allowed p dbSubmit n = true → ((d.noteDoorbell p dbSubmit n).submitting n).submitCheck p n = some (check, status) →
        Does (.submit v p n) s fun e =>
          e.rqState n = rsFailed ∧ e.rq n 257 1 = status ∧ e.rq n 332 1 = check ∧ taken e ∧ RequestOnly n true d e ∧
          RegsButTraffic [Reg.STEP_DB p, Reg.STEP_DB_STAT p, Reg.SCHED_STAT p] d e) ∧
      (d.allowed p dbCancel n = true → (d.holdsSlot p n || d.admitting p n) = false → Does (.cancel v p n) s fun e =>
        e.rqState n = rsCancelled ∧ e.rq n 257 1 = 3 ∧ taken e ∧ RequestOnly n true d e ∧
        RegsButTraffic [Reg.STEP_DB p, Reg.STEP_DB_STAT p, Reg.SCHED_STAT p] d e) ∧
      (d.allowed p dbCancel n = true → (d.holdsSlot p n || d.admitting p n) = true → (∀ c, d.reqCtx p n = some c → d.loopState c ≠ lpHalted) →
        Does (.cancel v p n) s fun e =>
          e.rqFlag n flCancel = true ∧ e.rqState n = d.rqState n ∧ taken e ∧ BytesBut (reqWork n + 258) 2 d e ∧
          RegsBut [Reg.STEP_DB p, Reg.STEP_DB_STAT p, Reg.SCHED_STAT p] d e) ∧
      (d.allowed p dbRelease n = true → Does (.release v p n) s fun e =>
        e.rqState n = rsFree ∧ (∀ k, 256 ≤ k → k < 512 → e.byte (reqWork n + k) = 0#8) ∧ taken e ∧ RequestOnly n false d e ∧
        RegsBut [Reg.STEP_DB p, Reg.STEP_DB_STAT p, Reg.SCHED_STAT p] d e)) ∧
  (
    ∀ (s : State) (v : View) (p : PartIdx) (n : ReqIdx),
      let d := s.dev
      (∀ q ∈ [(dbSubmit, Instr.submit v p n), (dbCancel, .cancel v p n), (dbRelease, .release v p n)],
        d.hostUp (Reg.STEP_DB p) = true → d.mayPart v p = true →
        (d.committing p = false → d.allowed p q.1 n = false → d.fltq.length < 64 → Does q.2 s fun e =>
          e.rf (Reg.STEP_DB_STAT p) Fld.STEP_DB_STAT_REFUSED = satAdd Fld.STEP_DB_STAT_REFUSED.w (d.rf (Reg.STEP_DB_STAT p) Fld.STEP_DB_STAT_REFUSED) 1 ∧
          Recorded d e cHostProto 0x0B01 (q.1 * 2 ^ 60 + n) ∧ RegsBut [Reg.STEP_DB_STAT p, Reg.SCHED_STAT p] d e ∧ e.mem = d.mem ∧ e.srv = d.srv) ∧
        (d.committing p = true → (d.srv.doorbells.foldl (fun a q => a + q.2.length) 0) < 4096 → Does q.2 s fun e =>
          e = d.setDoorbells p (d.doorbells p ++ [(q.1, n.val, v.val)]))) ∧
      (∀ (w : Fin 32) (val : Word), d.hostUp (Reg.REQ_ENT n w) = true → d.mayReq v n = true →
        (d.rqState n = rsFree → Does (.reqDescWrite v n w val) s fun e =>
          e.num (reqWork n + 8 * w) 8 = val.toNat % 2 ^ (8 * reqFields w) ∧ e.num (reqComm n + 8 * w) 8 = val.toNat % 2 ^ (8 * reqFields w) ∧
          (∀ x, (x < reqWork n + 8 * w ∨ reqWork n + 8 * w + 8 ≤ x) → (x < reqComm n ∨ reqComm n + 512 ≤ x) → e.byte x = d.byte x) ∧ OnlyRegs { d with mem := e.mem } e ∧ RegsBut [] d e) ∧
        (d.rqState n ≠ rsFree → d.fltq.length < 64 → Does (.reqDescWrite v n w val) s fun e => Recorded d e cHostProto 0x0B03 n ∧ e = { d with fltq := e.fltq })))

/-- R222 to R224: DEMOTE of a VALID handle without uses, never demoted before, starts the copies of its blocks to T2; PFX_RELEASE makes a handle FREE and
its generation one higher; either is refused for a value that names no handle; the end of the last copy of a demotion leaves the block's bytes in T2
and the handle DEMOTED, and the T1 block loses the handle's reference: with the last one it is free, its GEN one higher. R231, R233: the poll of a
PAUSED request's ring every 100 µs, of a SUSPENDED one every 10 ms, and of the event ring sends an RDMA READ of the HEAD word behind the ring; a
request PAUSED for 2 s becomes due for suspension at the next commit. It concludes that exec answers a next state, under conditions on state and
operands alone, for: headPoll, pauseTimeout, eventHeadPoll, demote, pfxRelease, prefixCopyEnd. -/
def Obligations.PrefixesAndRings : Prop :=
  (
    ∀ (s : State) (v : View) (p : PartIdx) (i : Nat),
      let d := s.dev
      let h := d.handle i
      let result := fun (e : Dev) => e.rf (Reg.STEP_PFX_CMD p) Fld.STEP_PFX_CMD_RESULT
      let named := d.findHandle p (d.rd (Reg.STEP_PFX_ARG p)).toNat
      (d.hostUp (Reg.STEP_PFX_CMD p) = true → d.mayPart v p = true → d.pfxBusy p = false →
        (named = some i → h.st = .valid → h.uses = 0 → h.copies = [] → h.blocks ≠ [] → h.blocks.length ≤ (d.freeT2 p).length → Does (.demote v p) s fun e =>
          e.handle i = { h with st := .demoting } ∧ (∀ j, j ≠ i → e.handle j = d.handle j) ∧ (∀ b ∈ h.blocks, blkMoving (e.blk b) = true) ∧
          e.srv.copies = d.srv.copies ++ (h.blocks.zip (d.freeT2 p)).zipIdx.map (fun q => ⟨p, q.1.1, q.2, blkUnit (d.blk q.1.1) * 512, q.1.2, true, i⟩) ∧
          result e = pfRunning ∧
          RegsBut [Reg.STEP_PFX_CMD p] d e ∧ ∀ x, (∀ b ∈ h.blocks, x < blkAddr b ∨ blkAddr b + 8 ≤ x) → e.byte x = d.byte x) ∧
        (named = some i → (h.st ≠ .valid ∨ h.uses ≠ 0) → Does (.demote v p) s fun e => result e = pfRefused ∧ OnlyRegs d e ∧ RegsBut [Reg.STEP_PFX_CMD p] d e) ∧
        (named = some i → Does (.pfxRelease v p) s fun e =>
          (e.handle i).st = .free ∧ (e.handle i).gen = (h.gen + 1) % 2 ^ 24 ∧ (∀ j, j ≠ i → e.handle j = d.handle j) ∧ result e = pfDone ∧
          RegsBut [Reg.STEP_PFX_CMD p, Reg.SCHED_STAT p] d e ∧ e.fab = d.fab) ∧
        (named = none → ∀ cmd ∈ [Instr.demote v p, .pfxRelease v p], Does cmd s fun e => result e = pfRefused ∧ OnlyRegs d e ∧ RegsBut [Reg.STEP_PFX_CMD p] d e)) ∧
      (∀ (b : BitVec 24) (x : BlockCopy),
        (d.srv.copies.find? fun y => y.block == b.toNat) = some x → x.toT2 = true → x.handle = i → i ≠ rewriteHandle → x.part = p.val → (d.srv.copies.erase x).any (fun y => y.handle == i) = false →
        t2Base ≤ x.dst → d.t2Refs x.dst blockBytes = 0 →
        Does (.prefixCopyEnd b) s fun e =>
          let old := d.blk b.toNat
          e.handle i = { h with st := .demoted, blocks := [], copies := h.copies ++ [(x.pos, x.dst)] } ∧ e.srv.copies = d.srv.copies.erase x ∧ result e = pfDone ∧
          (∀ k, k < blockBytes → e.byte (x.dst + k) = d.byte (x.src + k)) ∧
          (d.refs b.toNat ≤ 1 → e.refs b.toNat = 0 ∧ blkT2 (e.blk b.toNat) = true ∧ blkMoving (e.blk b.toNat) = false ∧ blkGen (e.blk b.toNat) = (blkGen old + 1) % 256 ∧
            blkUnit (e.blk b.toNat) = x.dst / 512 % 2 ^ 39) ∧
          (1 < d.refs b.toNat → e.refs b.toNat = d.refs b.toNat - 1 ∧ blkT2 (e.blk b.toNat) = blkT2 old ∧ blkMoving (e.blk b.toNat) = false ∧
            blkGen (e.blk b.toNat) = blkGen old ∧ blkUnit (e.blk b.toNat) = blkUnit old) ∧
          RegsBut [Reg.STEP_PFX_CMD p] d e)) ∧
  (
    ∀ (s : State) (n : ReqIdx) (p : Nat),
      let d := s.dev
      let q := d.rqQp n
      let poll := d.reading (.ringHead n) = false → d.qpRts q = true → Does (.headPoll n) s fun e =>
        ReadSent d e q (d.rqOutVa n + 16 * d.rqOutSize n) (d.rqOutKey n) (.ringHead n) ∧ RegsButTraffic [] d e ∧ e.mem = d.mem ∧ e.fab = d.fab
      let last := sget (fun _ => 0) d.srv.polledAt n
      d.partOfReq n = some p →
      (d.rqState n = rsPaused → (∀ c, d.reqCtx p n = some c → d.executing c = false ∧ d.phase c ≠ phCommit) → last + 100 * us ≤ d.ps → poll) ∧
      (d.rqState n = rsSuspended → last + 10 * ms ≤ d.ps → poll) ∧
      (d.rqState n = rsPaused → (∀ c, d.reqCtx p n = some c → d.executing c = false ∧ d.phase c ≠ phCommit) → d.dueOf n = 0 →
        sget (fun _ => 0) d.srv.pausedAt n + 2000 * ms ≤ d.ps → Does (.pauseTimeout n) s fun e =>
          e.dueOf n = dueSuspend ∧ (∀ m, m ≠ n.val → e.dueOf m = d.dueOf m) ∧ RegsBut [Reg.SCHED_STAT p] d e ∧ e.mem = d.mem) ∧
      (∀ t : PartIdx, sget (fun _ => []) d.srv.evts t ≠ [] → d.reading (.eventHead t) = false → sget (fun _ => 0) d.srv.evtPolledAt t + 100 * us ≤ d.ps →
        let cfg := d.rd (Reg.STEP_EVT_CFG t)
        d.qpRts (fget cfg Fld.STEP_EVT_CFG_QP) = true → Does (.eventHeadPoll t) s fun e =>
          ReadSent d e (fget cfg Fld.STEP_EVT_CFG_QP) ((d.rd (Reg.STEP_EVT_VA t)).toNat + 32 * 2 ^ fget cfg Fld.STEP_EVT_CFG_LOG2N) (fget cfg Fld.STEP_EVT_CFG_RKEY) (.eventHead t) ∧
          RegsButTraffic [] d e ∧ e.mem = d.mem))

/-! ### Step commit and the scheduler (chapters 08 and 10) -/

/-- R289, R290, R296, R300: an idle partition's step boundary ends a pending pre-emption, counting it, latches every context's priority, and chooses only
an enabled resident context, none when none is enabled. R173, R206, R237, R238: the chosen context of a partition that may start begins an attempt: it
is CURRENT and in EXECUTE with the next epoch of its series and the admissions due, no comb has voted, and a sequencer that waits in SQ.STEP goes on
with that epoch; an uncorrectable error in a table that the serving engine reads for it aborts it with 0x0A02. It concludes that exec answers a next
state, under conditions on state and operands alone, for: stepBoundary, attemptStart. -/
def Obligations.StepsStart : Prop :=
  (
    ∀ (s : State) (p : PartIdx),
      let d := s.dev
      let pend := d.rf (Reg.SCHED_STAT p) Fld.SCHED_STAT_PREEMPT_PENDING
      d.partUsable p = true → d.attemptIn p = false → d.rf Reg.PWR_STAT Fld.PWR_STAT_EMERG = 0 → d.moltState p ≠ mAborting →
      Does (.stepBoundary p) s fun e =>
        e.rf (Reg.SCHED_STAT p) Fld.SCHED_STAT_PREEMPT_PENDING = 0 ∧
        e.rf (Reg.SCHED_PREEMPTS p) cnt48 = (if pend = 1 then satAdd 48 (d.rf (Reg.SCHED_PREEMPTS p) cnt48) 1 else d.rf (Reg.SCHED_PREEMPTS p) cnt48) ∧
        (∀ c ∈ d.partCtxs p, e.prioOf c = d.rf (Reg.SCHED_CTX c) Fld.SCHED_CTX_PRIO) ∧
        (∀ c, e.chosenOf p = some c → d.enabled c = true ∧ c ∈ e.residents p) ∧
        ((∀ c ∈ d.partCtxs p, d.enabled c = false) → e.chosenOf p = none)) ∧
  (
    ∀ (s : State) (c : CtxIdx) (p : Nat) (g : Geo) (i : Img),
      let d := s.dev
      d.partOfCtx c = some p → d.geo p c = some g → d.ctxImg p c = some i → d.mayStart p c = true → d.emptyDue p c = false → d.memberCtx c = false →
      (d.att c).pendStart = none → (d.att c).pend = none → d.hasPrev c = false →
      (d.ldr.ecc = [] → Does (.attemptStart c) s fun e =>
        e.phase c = phExecute ∧ e.curCtx p = some c.val ∧ (e.att c).epoch = (d.att c).epoch + 1 ∧ (e.att c).admits = d.nextAdmits p c ∧ (e.att c).votes = [] ∧
        e.stepCount p = 0 ∧ (∀ x, x ≠ c.val → e.phase x = d.phase x) ∧
        (∀ k ∈ d.partCombs p, ∀ j, j < 4 → ∀ rd, (d.seq k j).wait = .step rd → (e.seq k j).wait = .none ∧
          (e.seq k j).get rd = (if rd = 0 then 0#64 else BitVec.ofNat 64 ((d.att c).epoch + 1)))) ∧
      (∀ x, d.ldr.ecc = [x] → x.fatal = true → (((d.startAttempt p c g i).tablesOf p c g).any fun r => x.within r.1 r.2) = true → (d.startAttempt p c g i).fltq.length < 64 →
        Does (.attemptStart c) s fun e => e.phase c = phAbort ∧ Recorded (d.startAttempt p c g i) e cTileCheck 0x0A02 (x.unit * 512) ∧ (e.att c).mustReplay = true ∧ e.ldr.ecc = []))

/-- R246, R248, R254: COMMIT_APPLIED of a context in COMMIT gives STEP_EPOCH the attempt's epoch, counts the commit, sets F to 0 and the phase to IDLE; an
empty commit that is due takes the next epoch, counts and leaves the phase, and a request marked for cancellation that holds a slot ends CANCELLED
with it. It concludes that exec answers a next state, under conditions on state and operands alone, for: emptyCommit, commitApplied. -/
def Obligations.CommitsAreApplied : Prop :=
  ∀ (s : State) (c : CtxIdx) (p : Nat),
    let d := s.dev
    let counted := fun (e : Dev) (epoch : Nat) =>
      e.rd (Reg.STEP_EPOCH c) = BitVec.ofNat 64 epoch ∧ e.rf (Reg.STEP_COMMITS c) cnt48 = satAdd 48 (d.rf (Reg.STEP_COMMITS c) cnt48) 1 ∧ e.fails c = 0 ∧
      (e.att c).lastCommitted = epoch ∧ (∀ x, x ≠ c.val → e.phase x = d.phase x)
    d.partOfCtx c = some p → d.reqFirst p + d.reqCount p ≤ 16384 →
    (∀ g, d.geo p c = some g → d.phase c = phCommit → (d.att c).applying = true → d.doorbells p = [] → d.srv.held = [] → Does (.commitApplied c) s fun e =>
      counted e (d.att c).epoch ∧ e.phase c = phIdle ∧ (e.att c).admits = [] ∧ (e.att c).mustReplay = false ∧ (e.att c).votes = []) ∧
    (d.partUsable p = true → d.emptyDue p c = true → (d.loopState c = lpRunning ∨ d.loopState c = lpStopping) → d.attemptIn p = false → d.phase c = phIdle →
      Does (.emptyCommit c) s fun e =>
        counted e ((d.att c).epoch + 1) ∧ e.phase c = phIdle ∧ (e.att c).epoch = (d.att c).epoch + 1 ∧
        ∀ h ∈ d.holds c, h.entry < 16384 → d.rqFlag h.entry flCancel = true → e.rqState h.entry = rsCancelled)

/-- R163, R240, R250, R251: SQ.VOTE ABORT, the step deadline, the pre-emption timer and, in a brood domain, a missing ACK or decision end the attempt
before the decision instant, each with its own cause. It concludes that exec answers a next state, under conditions on state and operands alone, for:
sqVote, ackDeadline, memberDecisionTimeout, preemptTimer, stepDeadline. -/
def Obligations.AttemptsAreAborted : Prop :=
  ∀ (s : State) (p : PartIdx) (c : Nat),
    let d := s.dev
    (d.att c).decided = false → (d.att c).acked = false → d.executing c = true → d.partOfCtx c = some p.val →
    (d.curCtx p = some c → c < 64 →
      (d.phase c = phExecute → (d.rd (Reg.SCHED_CDL c)).toNat * 1000000 ≤ d.stepCount p → d.fltq.length < 64 → Does (.stepDeadline p) s fun e =>
        Aborted d e p c cDeadline 0x0E01 true d.pos ∧ Recorded d e cDeadline 0x0E01 (c * 2 ^ 58 + (d.rd (Reg.SCHED_CDL c)).toNat)) ∧
      (∀ x, sget (fun _ => none) d.sch.compare p = some x → x ≤ d.stepCount p → d.stepCount p < (d.rd (Reg.SCHED_CDL c)).toNat * 1000000 →
        Does (.preemptTimer p) s fun e => Aborted d e p c 0x40 0 false d.pos ∧ e.fltq = d.fltq)) ∧
    (∀ cc : CtxIdx, cc.val = c → d.phase c = phVote → d.fltq.length < 64 →
      ((d.att c).decideSent = true → (d.att c).tc ≤ d.sysTime.toNat + usTicks → Does (.ackDeadline cc) s fun e =>
        Aborted d e p c cRemoteTimeout 0x0C02 true d.pos ∧
        Recorded d e cRemoteTimeout 0x0C02 (((d.partners c).filter fun q => !(d.att c).acks.contains q).foldl (fun m q => m + 2 ^ q) 0)) ∧
      (d.memberCtx c = true → (d.att c).voteAt + 50 * us ≤ d.ps → Does (.memberDecisionTimeout cc) s fun e =>
        Aborted d e p c cRemoteTimeout 0x0C01 true d.pos ∧ Recorded d e cRemoteTimeout 0x0C01 (d.att c).epoch)) ∧
    (∀ (k : CombIdx) (i : SeqIdx) (o : SeqOps), seqIssues d k i 1 5 o p → d.curCtx p = some c → ((d.seq k i).get o.rs1.toNat).toNat = 1 →
      Does (.sqVote k i o) s fun e => e.phase c = phAbort ∧ (e.att c).mustReplay = true ∧
        e.rf (Reg.STEP_ABORTS c) cnt48 = satAdd 48 (d.rf (Reg.STEP_ABORTS c) cnt48) 1)

/-- R241 to R245, R261: at the lead a member's COMMIT vote is counted and its ABORT vote ends the attempt; at a member DECIDE is acknowledged with ACK and
ABORT ends the attempt, one with cause LOST halts its loop; the last ACK that comes 1 µs before Tc makes the lead's decision final; at Tc the commit
is applied. R218, R238, R241, R244, R245, R331: a START that passes its checks, newer than the member's series, is held until its serving tiles are
there; a commit beyond the one that it names is taken back, and empty commits up to that one are followed (the model's reading, log entry 91); one of
the present epoch changes nothing, an older one is counted; one that fails is recorded with cause 0x0F24 and the number of the condition; SERVE_TILE
stores its tile in the serving region. It concludes that exec answers a next state, under conditions on state and operands alone, for: start, vote,
decideMsg, ack, abort, broodCommitApply, serveTile. -/
def Obligations.BroodsDecide : Prop :=
  (
    ∀ (s : State) (x : FrPkt) (c p : Nat),
      let d := s.dev
      let from_ := x.src.toNat % 8
      let mine := d.pktCtx x = some (p, c) ∧ d.broodCtx c = true ∧ x.epoch.toNat = (d.att c).epoch
      let kept := fun (e : Dev) => Heard d e x ∧ e.mem = d.mem ∧ e.fab = d.fab ∧ ∀ y, y ≠ c → e.att y = d.att y
      (inTurn d 0x22 x = true → mine → d.isLead = true → from_ ∈ d.partners c → d.executing c = true →
        (argN x 33 1 % 2 = 0 → d.phase c = phExecute → Does (.vote x) s fun e =>
          (∀ q, q ∈ (e.att c).mvotes ↔ q ∈ (d.att c).mvotes ∨ q = from_) ∧ e.phase c = phExecute ∧ kept e ∧ RegsBut [] d e) ∧
        (argN x 33 1 % 2 = 0 → d.phase c = phVote → (d.att c).decideSent = false → (∀ q ∈ d.partners c, q = from_ ∨ q ∈ (d.att c).mvotes) → Does (.vote x) s fun e =>
          (e.att c).decideSent = true ∧ (e.att c).tc = d.sysTime.toNat + 2500 ∧ e.phase c = phVote ∧ kept e) ∧
        (argN x 33 1 % 2 = 1 → (d.att c).decided = false → (d.att c).acked = false → Does (.vote x) s fun e =>
          Aborted d e p c (argN x 34 1) (argN x 36 2) (causeCounts (argN x 34 1)) from_)) ∧
      (inTurn d 0x23 x = true → mine → d.memberCtx c = true → d.lnk.lead = some from_ → d.phase c = phVote → (d.flowTx x.src.toNat 0).unacked.length < 256 → Does (.decideMsg x) s fun e =>
        (e.att c).acked = true ∧ (e.att c).tc = argN x 40 8 ∧ Queued d e x.src.toNat 0x24 (mkArg []) [] ∧ kept e) ∧
      (inTurn d 0x24 x = true → mine → d.isLead = true → d.phase c = phVote → (d.att c).decideSent = true → from_ ∈ d.partners c → Does (.ack x) s fun e =>
        (∀ q, q ∈ (e.att c).acks ↔ q ∈ (d.att c).acks ∨ q = from_) ∧
        ((d.att c).decided = false → ((e.att c).decided = true ↔ (∀ q ∈ d.partners c, q = from_ ∨ q ∈ (d.att c).acks) ∧ d.sysTime.toNat + 1250 ≤ (d.att c).tc)) ∧
        kept e ∧ RegsBut [] d e) ∧
      (inTurn d 0x25 x = true → mine → d.memberCtx c = true → d.lnk.lead = some from_ → d.executing c = true → argN x 34 1 ≠ 0x43 → Does (.abort x) s fun e =>
        Aborted d e p c 0x41 0 (causeCounts (argN x 34 1)) (argN x 33 1)) ∧
      (inTurn d 0x25 x = true → d.pktCtx x = some (p, c) → d.hearsLoss x c = true → d.fltq.length < 64 →
        (d.executing c = true → Does (.abort x) s fun e => Aborted d e p c 0x43 0 false (argN x 33 1) ∧ e.loopState c = lpHalted) ∧
        (d.phase c = phIdle → Does (.abort x) s fun e =>
          e.loopState c = lpHalted ∧ e.rf (Reg.STEP_PHASE c) Fld.STEP_PHASE_HALT_CAUSE = 0x43 ∧ e.fltq.length = d.fltq.length + 1 ∧
          (e.fltq.getLast?.map fun z => (z.w0.toNat % 256, z.w0.toNat / 256 % 65536)) = some (cLinkDown, 0x0C03) ∧ e.mem = d.mem ∧ e.fab = d.fab)) ∧
      (∀ cc : CtxIdx, cc.val = c → d.broodCtx c = true → d.phase c = phVote → (d.att c).tc ≤ d.sysTime.toNat → (d.att c).decided = true ∨ (d.memberCtx c = true ∧ (d.att c).acked = true) →
        Does (.broodCommitApply cc) s fun e =>
          e.phase c = phCommit ∧ (e.att c).applying = true ∧ (e.att c).decided = true ∧ RegsBut [Reg.STEP_PHASE c] d e ∧ e.mem = d.mem ∧ e.fab = d.fab)) ∧
  (
    ∀ (s : State) (x : FrPkt) (c p : Nat),
      let d := s.dev
      (inTurn d 0x21 x = true → x.ctx.toNat = c → d.partOfCtx c = some p →
        (d.startCheck x = none → (d.att c).epoch < x.epoch.toNat → d.executing c = false → argN x 36 2 ≠ 0 → (sget (fun _ => (0, 0)) d.lnk.served c).1 ≠ x.epoch.toNat → d.loopState c ≠ lpStopped →
          ((d.rd (Reg.STEP_EPOCH c)).toNat ≤ argN x 40 8 → ((d.att c).lateAbort = false ∨ (d.rd (Reg.STEP_EPOCH c)).toNat = argN x 40 8) → argN x 40 8 ≤ (d.att c).epoch → Does (.start x) s fun e =>
            (e.att c).pendStart = some ⟨x.epoch.toNat, argN x 36 2, argN x 48 8⟩ ∧ (e.att c).epoch = (d.att c).epoch ∧
            sget (fun _ => []) e.lnk.participants c = filterBelow 8 (bit (argN x 33 1)) ∧ Heard d e x ∧ RegsBut [] d e ∧ e.mem = d.mem ∧ e.fab = d.fab) ∧
          (argN x 40 8 < (d.rd (Reg.STEP_EPOCH c)).toNat → argN x 40 8 ≤ (d.att c).epoch → Does (.start x) s fun e =>
            e.rd (Reg.STEP_EPOCH c) = BitVec.ofNat 64 (argN x 40 8) ∧ e.rf (Reg.STEP_COMMITS c) cnt48 = (d.rf (Reg.STEP_COMMITS c) cnt48 - 1) % 2 ^ 48 ∧ (e.att c).lastCommitted = argN x 40 8 ∧ Heard d e x) ∧
          ((d.rd (Reg.STEP_EPOCH c)).toNat ≤ argN x 40 8 → (d.att c).lateAbort = false → (d.att c).epoch < argN x 40 8 → (d.loopState c = lpRunning ∨ d.loopState c = lpStopping) → Does (.start x) s fun e =>
            e.rd (Reg.STEP_EPOCH c) = BitVec.ofNat 64 (argN x 40 8) ∧ e.rf (Reg.STEP_COMMITS c) cnt48 = satAdd 48 (d.rf (Reg.STEP_COMMITS c) cnt48) (argN x 40 8 - (d.att c).epoch) ∧ e.fails c = 0 ∧
            (e.att c).lastCommitted = argN x 40 8 ∧ Heard d e x)) ∧
        (d.startCheck x = none → x.epoch.toNat = (d.att c).epoch → Does (.start x) s fun e => e.srv = d.srv ∧ e.mem = d.mem ∧ e.fab = d.fab ∧ RegsBut [] d e ∧ Heard d e x) ∧
        (d.startCheck x = none → x.epoch.toNat < (d.att c).epoch → Does (.start x) s fun e =>
          FieldNow d e (Reg.STEP_STALE c) cnt48 (satAdd 48 (d.rf (Reg.STEP_STALE c) cnt48) 1) ∧ e.srv = d.srv ∧ Heard d e x)) ∧
      (∀ n, inTurn d 0x21 x = true → d.startCheck x = some n → d.fltq.length < 64 → Does (.start x) s fun e =>
        Recorded d e cConfig 0x0F24 (x.ctx.toNat + n * 256) ∧ e.srv = d.srv ∧ RegsBut [] d e ∧ e.mem = d.mem) ∧
      (∀ g, inTurn d 0x20 x = true → d.pktCtx x = some (p, c) → d.geo p c = some g → d.memberCtx c = true → (d.att c).pendStart = none → (d.att c).epoch < x.epoch.toNat →
        (sget (fun _ => (0, 0)) d.lnk.served c).1 ≤ x.epoch.toNat → argN x 34 2 < serveCount g → x.payload.length = tileWire →
        let a := serveTile (d.serveBase p c g) (argN x 34 2)
        Does (.serveTile x) s fun e => e.bytes a tileWire = x.payload ∧ BytesBut a tileWire d e ∧ Heard d e x ∧ RegsBut [] d e ∧ e.srv = d.srv ∧ e.fab = d.fab))

/-- R302 to R306: a CREATE that passes its checks makes the partition CREATING and writes the routers' map; the end of its scrubs makes it ACTIVE; SEAL of
an ACTIVE partition with a key runs, any other command being busy, and at the next tick of the reference clock (the model's choice, log entry 93)
makes it SEALED; TEARDOWN makes a usable one TEARDOWN with no context enabled, and the end of its scrubs makes it FREE, its combs OFF and its tables
empty; a command that fails a check is refused with the number of the check and recorded. R303, R309, R314, R334: through the operator view, while the
partition is not SEALED, a share or cap that passes its check, a domain that no other partition holds and, while every partition is FREE, ISOLATE are
stored; a domain that another holds is refused and recorded with cause 0x0F41. ACCT_CMD's RELEASE zeroes and frees a client record, ZERO clears all
but a record's key. It concludes that exec answers a next state, under conditions on state and operands alone, for: partCreate, scrubEnd, partSeal,
partTeardown, partIsolateWrite, partShareWrite, partCapWrite, acctRelease, acctZero, lnkDomainWrite. -/
def Obligations.PartitionsLiveAndEnd : Prop :=
  (
    ∀ (s : State) (p : PartIdx),
      let d := s.dev
      let v : View := 0
      let field := fun (e : Dev) (x : Fld) => e.rf Reg.PART_CMD x
      let calm := ∀ q, q < 16 → d.partState q ≠ psCreating ∧ d.partState q ≠ psTeardown ∧ d.sch.sealing = none
      (d.hostUp Reg.PART_CMD = true → calm →
        (d.createCheck p = none → Does (.partCreate v p) s fun e =>
          e.partState p = psCreating ∧ (∀ k ∈ d.partCombs p, e.partOfComb k = some p.val) ∧ (∀ k, k ∉ d.partCombs p → e.partOfComb k = d.partOfComb k) ∧
          field e Fld.PART_CMD_RESULT = prRunning ∧ e.mem = d.mem ∧ RegsBut [Reg.PART_CMD, Reg.PART_STAT p, Reg.LNK_VIEW_KEY (1 + p)] d e) ∧
        (d.partState p = psActive → (∃ j, j < 4 ∧ (d.keySlot p j).all (· == 0#8) = false) → Does (.partSeal v p) s fun e =>
          e.sch = { d.sch with sealing := some p.val } ∧ field e Fld.PART_CMD_RESULT = prRunning ∧ RegsBut [Reg.PART_CMD] d e ∧ e.mem = d.mem ∧ e.fab = d.fab) ∧
        (d.partUsable p = true → Does (.partTeardown v p) s fun e =>
          e.partState p = psTeardown ∧ field e Fld.PART_CMD_RESULT = prRunning ∧ (∀ c ∈ d.partCtxs p, e.enabled c = false ∧ e.loopState c = lpStopped ∧ e.phase c = phIdle) ∧
          (∀ j, j.part = p.val → j ∉ e.ldr.jobs)) ∧
        (∀ n, d.fltq.length < 64 → ∀ q ∈ [(d.createCheck p, Instr.partCreate v p), (d.sealCheck p, .partSeal v p), (d.teardownCheck p, .partTeardown v p)], q.1 = some n →
          Does q.2 s fun e => field e Fld.PART_CMD_RESULT = prRefused ∧ field e Fld.PART_CMD_CHECK = n ∧ Recorded d e cHostProto 0x0E11 (p * 16 + n) ∧
            e.mem = d.mem ∧ RegsBut [Reg.PART_CMD] d e)) ∧
      (d.sch.sealing = some p.val → s.pending = [] → d.boot.held = false → d.boot.porstLow = false → d.boot.pgAon = true → ∃ t, step s = .next t ∧
        t.dev.partState p = psSealed ∧ field t.dev Fld.PART_CMD_RESULT = prDone ∧ t.dev.sch.sealing = none) ∧
      (d.hostUp Reg.PART_CMD = true → d.sch.sealing ≠ none → ∀ cmd ∈ [Instr.partCreate v p, .partSeal v p, .partTeardown v p], Does cmd s fun e =>
        FieldNow d e Reg.PART_CMD Fld.PART_CMD_RESULT prBusy ∧ OnlyRegs d e) ∧
      (d.partState p = psCreating → Does (.scrubEnd p) s fun e => e.partState p = psActive ∧ field e Fld.PART_CMD_RESULT = prDone ∧ e.srv = d.srv) ∧
      (d.partState p = psTeardown → Does (.scrubEnd p) s fun e =>
        e.partState p = psFree ∧ field e Fld.PART_CMD_RESULT = prDone ∧ (∀ k ∈ d.partCombs p, e.partOfComb k = none ∧ e.combPs k = 0) ∧
        (∀ i, i < 8 → e.rd (Reg.SEC_MRP p i) = 0#64))) ∧
  (
    ∀ (s : State) (p : PartIdx) (val : Word),
      let d := s.dev
      let v : View := 0
      (d.hostUp (Reg.PART_SHARE p) = true → d.partState p = psFree ∨ (d.partState p = psActive ∧ d.sharesFit p (val &&& 0x1F1F1F1F#64) = true) →
        Does (.partShareWrite v p val) s fun e => e.rd (Reg.PART_SHARE p) = val &&& 0x1F1F1F1F#64 ∧ RegsBut [Reg.PART_SHARE p] d e ∧ OnlyRegs d e) ∧
      (d.hostUp (Reg.PART_CAP p) = true → d.partState p = psFree ∨ (d.partState p = psActive ∧ capOk (val &&& 0xFFF#64) = true) →
        Does (.partCapWrite v p val) s fun e => e.rd (Reg.PART_CAP p) = val &&& 0xFFF#64 ∧ RegsBut [Reg.PART_CAP p] d e ∧ OnlyRegs d e) ∧
      (d.hostUp (Reg.LNK_DOMAIN p) = true → d.sealed p = false → (val.toNat % 65536 = 0 ∨ ∀ q ∈ d.otherParts p, d.domainOf q ≠ val.toNat % 65536) →
        Does (.lnkDomainWrite v p val) s fun e => e.rd (Reg.LNK_DOMAIN p) = BitVec.ofNat 64 (val.toNat % 65536) ∧ RegsBut [Reg.LNK_DOMAIN p] d e ∧ OnlyRegs d e) ∧
      (d.hostUp (Reg.LNK_DOMAIN p) = true → d.sealed p = false → d.fltq.length < 64 → val.toNat % 65536 ≠ 0 → (∃ q ∈ d.otherParts p, d.domainOf q = val.toNat % 65536) →
        Does (.lnkDomainWrite v p val) s fun e => Recorded d e cHostProto 0x0F41 p ∧ e = { d with fltq := e.fltq }) ∧
      (∀ b : Bool, d.hostUp Reg.PART_GLB = true → (∀ q, q < 16 → d.partState q = psFree) → Does (.partIsolateWrite v b) s fun e =>
        FieldNow d e Reg.PART_GLB Fld.PART_GLB_ISOLATE (b2n b) ∧ OnlyRegs d e) ∧
      (∀ i : BitVec 13, d.hostUp Reg.ACCT_CMD = true →
        (i.toNat < 4096 → 2 ^ 63 ≤ (d.rd (acctOff i.toNat 0)).toNat → Does (.acctRelease v i) s fun e =>
          (∀ w, w < 16 → e.rd (acctOff i.toNat w) = 0#64) ∧ e.rf Reg.ACCT_USED Fld.ACCT_USED_USED = d.rf Reg.ACCT_USED Fld.ACCT_USED_USED - 1 ∧
          e.rf Reg.ACCT_CMD Fld.ACCT_CMD_RESULT = acctDone ∧ OnlyRegs d e ∧ RegsBut ([Reg.ACCT_USED, Reg.ACCT_CMD] ++ (List.range 16).map (acctOff i.toNat)) d e) ∧
        (i.toNat < 4112 → Does (.acctZero v i) s fun e =>
          (∀ w, 1 ≤ w → w < 16 → e.rd (acctOff i.toNat w) = 0#64) ∧ e.rf Reg.ACCT_CMD Fld.ACCT_CMD_RESULT = acctDone ∧ OnlyRegs d e ∧
          RegsBut (Reg.ACCT_CMD :: (List.range 15).map (fun w => acctOff i.toNat (w + 1))) d e)))

/-! ### Brood and fabric (chapter 11) -/

/-- R321, R322: a good DATA flit in sequence is taken, with its acknowledgement and credits; one received before delivers nothing again; a bad flit, or
the first out of sequence, is answered with a RESEND and the rest are skipped; a RESEND makes every kept flit go out again; 500 ns without sending an
IDLE flit goes out. It concludes that exec answers a next state, under conditions on state and operands alone, for: linkFlit, idleFlitTimer. -/
def Obligations.LinkFlitsInOrder : Prop :=
  ∀ (s : State) (l : PortIdx) (f : LinkFlit),
    let d := s.dev
    let x := d.port l
    let good := f.crc.toNat = flitCrc f
    let left := x.replay.filter fun r => !seqCovered r.lseq f.lack.toNat
    let still := fun (e : Dev) => (∀ m, m ≠ l.val → e.port m = d.port m) ∧ e.mem = d.mem ∧ e.fab = d.fab ∧ e.srv = d.srv
    (portState d l = 3 → x.txq = [] → good → f.typ = 1 → f.lseq.toNat = (x.rxSeq + 1) % 65536 → Does (.linkFlit l f) s fun e =>
      e.port l = { x with
        lastRx := d.ps, rxSeq := f.lseq.toNat, skip := false, replay := left, helloAcked := x.helloAcked || decide (left.length < x.replay.length),
        creditsCtrl := x.creditsCtrl + f.crdCtrl.toNat, creditsResp := x.creditsResp + f.crdResp.toNat, creditsData := x.creditsData + f.crdData.toNat,
        freedCtrl := x.freedCtrl + b2n (f.cls == 0), freedResp := x.freedResp + b2n (f.cls == 1), freedData := x.freedData + b2n (f.cls == 2) } ∧
      RegsBut [] d e ∧ still e) ∧
    (portLive d l = true → (¬ good ∨ (f.typ = 1 ∧ f.lseq.toNat ≠ (x.rxSeq + 1) % 65536 ∧ seqCovered f.lseq.toNat x.rxSeq = false ∧ x.skip = false)) → Does (.linkFlit l f) s fun e =>
      (e.port l).skip = true ∧ (e.port l).rxSeq = x.rxSeq ∧ (e.port l).replay = x.replay ∧ (∃ g : LinkFlit, g.typ = 2 ∧ e.out = .flit l g :: d.out) ∧ RegsBut [] d e ∧ still e) ∧
    (portState d l = 3 → x.txq = [] → good → (f.typ = 0 ∨ (f.typ = 1 ∧ seqCovered f.lseq.toNat x.rxSeq = true ∧ f.lseq.toNat ≠ (x.rxSeq + 1) % 65536)) → Does (.linkFlit l f) s fun e =>
      e.port l = { x with
        lastRx := d.ps, replay := left, helloAcked := x.helloAcked || decide (left.length < x.replay.length),
        creditsCtrl := x.creditsCtrl + f.crdCtrl.toNat, creditsResp := x.creditsResp + f.crdResp.toNat, creditsData := x.creditsData + f.crdData.toNat } ∧
      RegsBut [] d e ∧ still e) ∧
    (portLive d l = true → good → f.typ = 1 → f.lseq.toNat ≠ (x.rxSeq + 1) % 65536 → seqCovered f.lseq.toNat x.rxSeq = false → x.skip = true → Does (.linkFlit l f) s fun e =>
      e.port l = { x with lastRx := d.ps } ∧ e.out = d.out ∧ RegsBut [] d e ∧ still e) ∧
    (portState d l = 3 → x.txq = [] → good → f.typ = 2 → (∀ r ∈ left, r.sends < 7) → Does (.linkFlit l f) s fun e =>
      (e.port l).replay = left.map (fun r => { r with sends := r.sends + 1 }) ∧ e.out.length = d.out.length + left.length ∧
      e.rf (portStat l + 0x28) cnt48 = satAdd 48 (d.rf (portStat l + 0x28) cnt48) left.length ∧ RegsBut [portStat l + 0x28] d e ∧ still e) ∧
    (portLive d l = true → x.lastTx + 500 * ns ≤ d.ps → Does (.idleFlitTimer l) s fun e =>
      (∃ g : LinkFlit, g.typ = 0 ∧ g.lack = BitVec.ofNat 16 x.rxSeq ∧ e.out = .flit l g :: d.out) ∧ (e.port l).lastTx = d.ps ∧ RegsBut [] d e ∧ still e)

/-- R323, R324: the states of a port: TRAIN 10 ms after DOWN or on RETRAIN, with no hello heard, HELLO with fresh credits once trained, DOWN with its
cause when training, hello or the link fails, DISABLED by its bit and back; fabric ports may open behind the last brood link that trained. A WITHDRAW
takes the port down only where it comes from the port's own peer. R325, R327: a hello is kept and shown in the port's PEER register, and brings a port
UP whose own hello was acknowledged and whose lanes are all in lock; a changed identity on an UP port takes it DOWN; every 100 µs a hello goes out;
MISMATCH and DUPLICATE clear 1 ms after their last cause. It concludes that exec answers a next state, under conditions on state and operands alone,
for: portTrainStart, portTrained, portTrainTimeout, portHelloTimeout, portSilence, portFecLimit, laneLockLoss, portRetrain, portDisable, hello,
helloTimer, broodFlagClear, withdraw. -/
def Obligations.PortsComeUp : Prop :=
  (
    ∀ (s : State) (l : PortIdx),
      let d := s.dev
      let x := d.port l
      let st := portState d l
      let down := fun (cause state : Nat) (e : Dev) =>
        portState e l = state ∧ e.rf (portStat l) Fld.LNK_BL_STAT_DOWN_CAUSE = cause ∧ (e.port l).replay = [] ∧ (e.port l).hello = x.hello ∧ (e.port l).since = d.ps ∧
        e.rf (portStat l + 0x30) cnt48 = (if st = 3 then satAdd 48 (d.rf (portStat l + 0x30) cnt48) 1 else d.rf (portStat l + 0x30) cnt48)
      let training := fun (e : Dev) =>
        portState e l = 1 ∧ e.rf (portPeer l) Fld.LNK_BL_PEER_VALID = 0 ∧ RegsBut [portStat l, portPeer l] d e ∧ (e.port l).since = d.ps ∧ e.mem = d.mem ∧ e.fab = d.fab
      (st = 0 → x.since + 10 * ms ≤ d.ps → Does (.portTrainStart l) s training) ∧
      (st = 0 → d.hostUp (portCtl l) = true → Does (.portRetrain 0 l) s training) ∧
      (st = 1 → d.ps ≤ x.since + 25 * ms → Does (.portTrained l) s fun e =>
        portState e l = 2 ∧ (e.port l).hello = none ∧ (e.port l).creditsResp = (if l.val < 7 then 64 else 128) ∧ (e.port l).creditsData = (if l.val < 7 then 128 else 512) ∧
        e.rf (portStat l) Fld.LNK_BL_STAT_LANES = fullLanes l ∧ RegsBut (portStat l :: (List.range 12).map fun g => portStat (7 + g)) d e ∧
        (∀ g, g < 12 → 7 + g ≠ l.val → portState e (7 + g) = portState d (7 + g) ∨ (portState d (7 + g) = 4 ∧ portState e (7 + g) = 0)) ∧ e.mem = d.mem ∧ e.fab = d.fab ∧ ∃ y, Sent d e (Output.frarax l 0x01 y)) ∧
      (st = 1 → x.since + 25 * ms ≤ d.ps → Does (.portTrainTimeout l) s (down cseTrain 0)) ∧
      (st = 2 → x.since + ms ≤ d.ps → Does (.portHelloTimeout l) s (down cseSilence 0)) ∧
      (st = 3 → x.lastRx + 2 * us ≤ d.ps → Does (.portSilence l) s (down cseSilence 0)) ∧
      (st = 3 → Does (.portFecLimit l) s (down cseFec 0)) ∧
      (∀ n, st = 3 → Does (.laneLockLoss l n) s fun e => down cseLane 0 e ∧ e.rf (portStat l) Fld.LNK_BL_STAT_LANES = n.toNat % 2 ^ Fld.LNK_BL_STAT_LANES.w) ∧
      (∀ n, st ≠ 3 → Does (.laneLockLoss l n) s fun e => FieldNow d e (portStat l) Fld.LNK_BL_STAT_LANES n.toNat ∧ OnlyRegs d e) ∧
      (∀ y : FrPkt, portLive d l = true → frOk 0x03 y = true → Does (.withdraw l y) s fun e =>
        (e.peer y.src.toNat).withdrawn = true ∧ (st = 3 → d.fromPeer l y = true → down cseWithdraw 0 e) ∧ (st = 2 ∨ d.fromPeer l y = false → portState e l = st)) ∧
      (d.hostUp (portCtl l) = true →
        (st ≠ 4 → Does (.portDisable 0 l true) s fun e => down cseDisabled 4 e ∧ e.rf (portCtl l) Fld.LNK_BL_CTL_DISABLE = 1) ∧
        (st = 4 → d.rolePort l = true → 8 ≤ d.stage → Does (.portDisable 0 l false) s fun e =>
          portState e l = 0 ∧ e.rf (portCtl l) Fld.LNK_BL_CTL_DISABLE = 0 ∧ RegsBut [portStat l, portCtl l] d e ∧ e.mem = d.mem))) ∧
  (
    ∀ (s : State) (l : PortIdx) (y : FrPkt),
      let d := s.dev
      let h := helloOf y.payload
      let st := portState d l
      let same := ∀ g, (d.port l).hello = some g → g.node = h.node ∧ g.session = h.session
      (portLive d l = true → frOk 0x01 y = true → (same ∨ st = 2) → Does (.hello l y) s fun e =>
        (e.port l).hello = some h ∧ e.rd (portPeer l) = d.peerWord h ∧ portState e l = (if st = 2 ∧ (d.port l).helloAcked = true ∧ d.rf (portStat l) Fld.LNK_BL_STAT_LANES = fullLanes l then 3 else st)) ∧
      (st = 3 → frOk 0x01 y = true → ¬ same → Does (.hello l y) s fun e =>
        portState e l = 0 ∧ e.rf (portStat l) Fld.LNK_BL_STAT_DOWN_CAUSE = cseIdentity ∧ e.rd (portPeer l) = d.peerWord h) ∧
      (portLive d l = true → (d.port l).lastHello + 100 * us ≤ d.ps → Does (.helloTimer l) s fun e =>
        (e.port l).lastHello = d.ps ∧ RegsBut [] d e ∧ e.mem = d.mem ∧ e.fab = d.fab ∧ ∃ z : FrPkt, Sent d e (Output.frarax l 0x01 z) ∧ z.payload = d.helloBytes (if l.val < 7 then l.val else l.val - 7) (if l.val < 7 then 0 else 1)) ∧
      (∀ t, d.lnk.misEnd = some t → t + ms ≤ d.ps → d.misSeen = false → (d.broodHellos.any fun q => isBroodPeer d q.2 && bit q.2.flags 1) = false →
        Does .broodFlagClear s fun e => e.rf Reg.LNK_BROOD_STAT Fld.LNK_BROOD_STAT_MISMATCH = 0) ∧
      (∀ t, d.lnk.dupEnd = some t → t + ms ≤ d.ps → d.dupSeen = false → (d.broodHellos.any fun q => isBroodPeer d q.2 && bit q.2.flags 0) = false →
        Does .broodFlagClear s fun e => e.rf Reg.LNK_BROOD_STAT Fld.LNK_BROOD_STAT_DUPLICATE = 0) ∧
      (frOk 0x01 y = false → portLive d l = true → Does (.hello l y) s fun e => FieldNow d e Reg.LNK_BADPKT cnt48 (satAdd 48 (d.rf Reg.LNK_BADPKT cnt48) 1) ∧ OnlyRegs d e))

/-- R335 to R340: the sending side: acknowledged packets are kept no longer and their node is reachable; acknowledgements go out 2 µs after the first
packet; a kept packet goes out again after 10 µs, with RETX; a relay's refusal is noted; a relay sends on or refuses; heartbeats are heard and sent; a
node silent for 1 ms is lost; one of these packets for another node changes nothing. R333 to R335: a sequenced packet that is bad is counted and has
no other effect; one behind its flow is counted as a duplicate and one ahead is held, and both will be acknowledged; one more than 255 ahead waits for
a retransmission; one whose domain no partition holds is delivered to none and counted. It concludes that exec answers a next state, under conditions
on state and operands alone, for: start, vote, decideMsg, ack, abort, handoffTile, handoffCommit, handoffAck, xptEntry, xptEnd, xptReturn, xptDrop,
e2eAck, e2eAckTimer, packetRetransmit, nackUnreach, relayForward, linkLossResend, heartbeat, heartbeatTimer, memberLossTimeout, remoteTile,
remoteQcredit, remoteWkcReq, remoteWkcResp, serveTile, collData, collAbort, launchRefuse. -/
def Obligations.DeliveryIsKept : Prop :=
  (
    ∀ (s : State) (x : FrPkt),
      let d := s.dev
      let node := x.src.toNat
      let still := fun (e : Dev) => e.mem = d.mem ∧ e.fab = d.fab ∧ e.srv = d.srv
      let came := fun (kind : Nat) => match d.usedLink (node % 8) with | some l => expertBytes kind l true | none => []
      (frOk 0x04 x = true → x.dst.toNat = d.node → (d.flowTx node (argN x 33 1)).waiting = [] → Does (.e2eAck x) s fun e =>
        (∀ z : SentPkt, z ∈ (e.flowTx node (argN x 33 1)).unacked → z ∈ (d.flowTx node (argN x 33 1)).unacked ∧ fseqCovered z.pkt.fseq.toNat (argN x 36 4) = false) ∧
        (∀ z : SentPkt, z ∈ (d.flowTx node (argN x 33 1)).unacked → fseqCovered z.pkt.fseq.toNat (argN x 36 4) = false → argN x 40 8 = 0 → z ∈ (e.flowTx node (argN x 33 1)).unacked) ∧
        (e.peer node).unreachAt = none ∧ RegsBut [] d e ∧ still e) ∧
      (∀ (src : BitVec 18) (cls : BitVec 2), 0 < (d.flowRx src.toNat cls.toNat).toAck → (d.flowRx src.toNat cls.toNat).since + 2 * us ≤ d.ps → Does (.e2eAckTimer src cls) s fun e =>
        (e.flowRx src.toNat cls.toNat).toAck = 0 ∧ (e.flowRx src.toNat cls.toNat).next = (d.flowRx src.toNat cls.toNat).next ∧ RegsBut [] d e ∧ still e) ∧
      (∀ (dst : BitVec 18) (cls : BitVec 2) (q : BitVec 32) (z : SentPkt) (l : Nat),
        ((d.flowTx dst.toNat cls.toNat).unacked.find? fun t => t.pkt.fseq.toNat == q.toNat) = some z → d.route dst.toNat cls.toNat (d.flowTx dst.toNat cls.toNat).lastPort = some l →
        z.at_ + (if (d.peer dst.toNat).unreachAt.isSome then ms else 10 * us) ≤ d.ps → 0 < z.sends → Does (.packetRetransmit dst cls q) s fun e =>
          (∃ w : SentPkt, w ∈ (e.flowTx dst.toNat cls.toNat).unacked ∧ w.pkt.fseq = z.pkt.fseq ∧ w.sends = z.sends + 1 ∧ w.at_ = d.ps ∧ w.pkt.retx = true) ∧
          e.rf Reg.LNK_RETX cnt48 = satAdd 48 (d.rf Reg.LNK_RETX cnt48) 1 ∧ RegsBut (Reg.LNK_RETX :: expertBytes z.kind l false) d e ∧
          (3 ≤ z.sends → (e.peer dst.toNat).unreachAt.isSome = true) ∧ still e) ∧
      (frOk 0x05 x = true → x.dst.toNat = d.node → Does (.nackUnreach x) s fun e => node % 8 ∈ (e.peer (argN x 40 4 % 2 ^ 18)).refused ∧ still e) ∧
      (∀ (kind : Byte) (l : Nat), frOk kind.toNat x = true → d.isMember x.dst.toNat = true →
        (d.usedLink (x.dst.toNat % 8) = some l → portState d l = 3 → Does (.relayForward kind x) s fun e =>
          e.rf Reg.LNK_RELAY cnt48 = satAdd 48 (d.rf Reg.LNK_RELAY cnt48) 1 ∧ RegsBut (Reg.LNK_RELAY :: (came kind.toNat ++ expertBytes kind.toNat l false)) d e ∧ still e ∧
          ∃ z : FrPkt, Sent d e (Output.frarax l kind.toNat z) ∧ z.relayed = true ∧ z.payload = x.payload ∧ z.fseq = x.fseq ∧ z.dst = x.dst ∧ z.src = x.src) ∧
        ((∀ l, d.usedLink (x.dst.toNat % 8) = some l → portState d l ≠ 3) → Does (.relayForward kind x) s fun e => RegsBut (came kind.toNat) d e ∧ still e)) ∧
      (∀ l : Fin 7, portState d l ≠ 3 → Does (.linkLossResend l) s fun e => still e ∧ ∀ c, c < 3 →
        let n := d.posNode (d.rf (portStat l) Fld.LNK_BL_STAT_PEER_POS)
        (e.flowTx n c).unacked.map (fun z => z.pkt.fseq) = (d.flowTx n c).unacked.map (fun z => z.pkt.fseq) ∧ ∀ z ∈ (e.flowTx n c).unacked, z.at_ = d.ps) ∧
      (frOk 0x02 x = true → x.dst.toNat = d.node → Does (.heartbeat x) s fun e => e.peer node = { d.peer node with lastBeat := d.ps } ∧ (∀ m, m ≠ node → e.peer m = d.peer m) ∧ RegsBut [] d e ∧ still e) ∧
      (∀ n : BitVec 18, d.formed = true → d.isMember n.toNat = true → (d.peer n.toNat).beatSentAt + 20 * us ≤ d.ps → Does (.heartbeatTimer n) s fun e =>
        (e.peer n.toNat).beatSentAt = d.ps ∧ RegsBut [] d e ∧ still e) ∧
      (∀ n : BitVec 18, d.isMember n.toNat = true → (d.peer n.toNat).withdrawn = false → (d.peer n.toNat).lastBeat + ms ≤ d.ps → Does (.memberLossTimeout n) s fun e =>
        (e.peer n.toNat).withdrawn = true ∧ (∀ c : CtxIdx, d.needsNode c n.toNat = true → (d.partOfCtx c).isSome = true →
          (d.executing c = true → (d.att c).decided = false → (d.att c).acked = false → e.phase c = phAbort ∧ e.loopState c = lpHalted) ∧
          (d.executing c = true → (d.att c).decided = true → e.phase c = d.phase c ∧ (e.att c).pend = some ⟨0x43, 0x0C03, false, d.pos, cLinkDown⟩) ∧
          (d.phase c = phIdle → e.phase c = phIdle ∧ e.loopState c = lpHalted))) ∧
      (∀ q ∈ [(0x04, Instr.e2eAck x), (0x05, .nackUnreach x), (0x02, .heartbeat x)],
        (frOk q.1 x = true → x.dst.toNat ≠ d.node → Does q.2 s (· = d)) ∧ (frOk q.1 x = false → Does q.2 s fun e =>
        FieldNow d e Reg.LNK_BADPKT cnt48 (satAdd 48 (d.rf Reg.LNK_BADPKT cnt48) 1) ∧ OnlyRegs d e))) ∧
  (
    ∀ (s : State) (x : FrPkt) (l : PortIdx), ∀ q ∈ ([
      (0x10, Instr.remoteTile x), (0x11, .remoteQcredit x), (0x12, .remoteWkcReq x), (0x13, .remoteWkcResp x), (0x20, .serveTile x), (0x21, .start x), (0x22, .vote x),
      (0x23, .decideMsg x), (0x24, .ack x), (0x25, .abort x), (0x30, .xptEntry ⟨l, x⟩), (0x31, .xptReturn ⟨l, x⟩), (0x32, .xptDrop ⟨l, x⟩), (0x33, .xptEnd ⟨l, x⟩), (0x40, .collData x),
      (0x41, .collAbort x), (0x50, .handoffTile x), (0x51, .handoffCommit x), (0x52, .handoffAck x), (0x60, .launchRefuse x)] : List (Nat × Instr)),
      let d := s.dev
      let r := d.flowRx x.src.toNat x.cls.toNat
      let off := (x.fseq.toNat + 2 ^ 32 - r.next) % 2 ^ 32
      let known := frOk q.1 x = true ∧ x.dst.toNat = d.node ∧ (∀ c, c < 3 → (d.flowRx x.src.toNat c).session = x.session.toNat) ∧ r.toAck + 1 < 16 ∧ ∀ z ∈ r.held, z.2.fseq ≠ x.fseq
      let owed := { r with toAck := r.toAck + 1, since := if r.toAck = 0 then d.ps else r.since }
      let brought := expertBytes q.1 l true
      let now := fun (e : Dev) (z : FlowRx) => e.flowRx x.src.toNat x.cls.toNat = z ∧ e.mem = d.mem ∧ e.fab = d.fab ∧ e.srv = d.srv ∧
        ∀ o ∈ brought, e.rf o cnt48 = satAdd 48 (d.rf o cnt48) x.payload.length
      (frOk q.1 x = false → Does q.2 s fun e => FieldNow d e Reg.LNK_BADPKT cnt48 (satAdd 48 (d.rf Reg.LNK_BADPKT cnt48) 1) ∧ OnlyRegs d e) ∧
      (frOk q.1 x = true → x.dst.toNat ≠ d.node → Does q.2 s fun e => e = d) ∧
      let counts := fun (e : Dev) (o : Nat) => e.rf o cnt48 = satAdd 48 (d.rf o cnt48) 1 ∧ RegsBut (o :: brought) d e
      (known → 2 ^ 31 ≤ off → Does q.2 s fun e => now e owed ∧ counts e Reg.LNK_DUP) ∧
      (known → 0 < off → off ≤ 255 → Does q.2 s fun e => now e { owed with held := r.held ++ [(q.1, x)] } ∧ RegsBut brought d e) ∧
      (known → 255 < off → off < 2 ^ 31 → Does q.2 s fun e => now e r ∧ RegsBut brought d e) ∧
      (known → off = 0 → r.held = [] → q.1 ≠ 0x60 → d.partOfDomain x.domain.toNat = none → Does q.2 s fun e =>
        now e { owed with next := (r.next + 1) % 2 ^ 32 } ∧ counts e Reg.LNK_DOM_DROP))

/-- R129, R238, R343: a REMOTE_TILE of the receiver's attempt enters the mesh for the cell that it names, one of an older attempt is counted, one of a
newer ends the attempt; a REMOTE_QCREDIT of the attempt returns its credits to the producer's output; the lead serves a request for a brood-wide
counter and answers, and the answer ends the sequencer's wait unless it comes more than 200 µs after its request (R53). It concludes that exec answers
a next state, under conditions on state and operands alone, for: remoteTile, remoteQcredit, remoteWkcReq, remoteWkcResp. -/
def Obligations.RemoteStreamsAndCounters : Prop :=
  ∀ (s : State) (x : FrPkt) (p c : Nat) (i : Img),
    let d := s.dev
    let t := Dev.footCell i (argN x 34 1) (argN x 35 1)
    let tc := argN x 33 1 % 4
    let q := argN x 33 1 / 16
    let now := x.epoch.toNat = (d.att c).epoch
    d.pktCtx x = some (p, c) → d.curCtx p = some c → d.activeImg p = some i →
    (inTurn d 0x10 x = true →
      (now → Does (.remoteTile x) s fun e =>
        (∃ tag, e.fab.transit = d.fab.transit ++ [((mkPkt 1 (d.cell t).gen.toNat t (ioPort t) tag x.src.toNat (x.payload.take tileWire)).withTc tc q).withPart p]) ∧
        e.fab.cells = d.fab.cells ∧ e.mem = d.mem ∧ RegsButFlits [] d e ∧ Heard d e x) ∧
      (x.epoch.toNat < (d.att c).epoch → Does (.remoteTile x) s fun e =>
        FieldNow d e (Reg.STEP_STALE c) cnt48 (satAdd 48 (d.rf (Reg.STEP_STALE c) cnt48) 1) ∧ e.fab = d.fab ∧ e.mem = d.mem ∧ Heard d e x) ∧
      ((d.att c).epoch < x.epoch.toNat → d.executing c = true → (d.att c).decided = false → (d.att c).acked = false → Does (.remoteTile x) s fun e =>
        Aborted d e p c 0x42 0 false d.pos)) ∧
    (∀ r o, inTurn d 0x11 x = true → now →
      ((producerRecs d i (d.cell t) tc).find? fun z => match d.desc i (z.n 0 2) with
        | some sd => sd.kind == skRemote && tgKind sd.base == 0 && tgPos sd.base == posOf x && tgQueue sd.base == q
        | none => false) = some r →
      outputOf d i (d.cell t) tc (r.n 0 2) = some o → (∀ j, d.outIssue t tc o = some j → j.sd.eosSeparate = false) → Does (.remoteQcredit x) s fun e =>
        (((e.cell t).tc tc).out o).credits = (((d.cell t).tc tc).out o).credits + argN x 37 1 ∧ (∀ z, z ≠ t → e.cell z = d.cell z) ∧ e.fab.transit = d.fab.transit ∧
        e.mem = d.mem ∧ RegsBut [Reg.DBG_TC_SWITCH t] d e ∧ Heard d e x) ∧
    (inTurn d 0x11 x = true → ¬ now → Does (.remoteQcredit x) s fun e => e.fab = d.fab ∧ RegsBut [] d e ∧ e.mem = d.mem ∧ Heard d e x) ∧
    (∀ h, let addr := argN x 34 6
      let n := addr / 2 ^ 40
      let w := d.wkc (wkcKey true p n)
      inTurn d 0x12 x = true → now → d.homeOf p n = some (h, true) → d.isLead = true → addr / 2 ^ 38 % 4 = 0 → 0 < addr % 2 ^ 32 → w.val + addr % 2 ^ 32 < 2 ^ 48 →
      (d.flowTx x.src.toNat 1).unacked.length < 256 → Does (.remoteWkcReq x) s fun e =>
        e.wkc (wkcKey true p n) = ⟨w.val + addr % 2 ^ 32, true⟩ ∧ (∀ k, k ≠ wkcKey true p n → e.wkc k = d.wkc k) ∧
        Queued d e x.src.toNat 0x13 (mkArg [(34, 6, w.val), (40, 2, argN x 40 2)]) [] ∧ e.fab.cells = d.fab.cells ∧ e.mem = d.mem ∧ RegsBut [] d e ∧ Heard d e x) ∧
    (∀ rd, let k := argN x 40 2 / 4 % 16
      let j := argN x 40 2 % 4
      inTurn d 0x13 x = true → now → d.lnk.waits.any (fun w => isCounterWait k j w && d.ps ≤ w.since + 200 * us) = true → (d.seq k j).wait = .wkc rd → Does (.remoteWkcResp x) s fun e =>
        (e.seq k j).wait = .none ∧ (e.seq k j).pc = (d.seq k j).pc + 4 ∧
        (∀ r, (e.seq k j).get r = if r = rd ∧ rd ≠ 0 then BitVec.ofNat 64 (argN x 34 6) else (d.seq k j).get r) ∧
        e.lnk.waits = d.lnk.waits.filter (fun w => !isCounterWait k j w) ∧ e.fab.cells = d.fab.cells ∧ e.mem = d.mem ∧ RegsBut [] d e ∧ Heard d e x) ∧
    (let k := argN x 40 2 / 4 % 16
      let j := argN x 40 2 % 4
      inTurn d 0x13 x = true → now → (∀ w ∈ d.lnk.waits, isCounterWait k j w = true → w.since + 200 * us < d.ps) → Does (.remoteWkcResp x) s fun e =>
        e.fab = d.fab ∧ e.lnk.waits = d.lnk.waits ∧ e.mem = d.mem ∧ RegsBut [] d e ∧ Heard d e x)

/-- R341, R346 to R349: a piece ahead of its group is held, a piece of the issue in progress is kept with it, an older one is counted as stale; COLL_ABORT
of the issue in progress, and a remote wait of 50 µs without progress, abort the step with their causes. It concludes that exec answers a next state,
under conditions on state and operands alone, for: collData, collAbort, remoteWaitTimeout. -/
def Obligations.CollectivesAndRemoteWaits : Prop :=
  ∀ (s : State) (x : FrPkt) (p : Nat),
    let d := s.dev
    let k := 256 * p + argN x 40 1
    let g := d.group k
    let kept := fun (e : Dev) => e.mem = d.mem ∧ e.fab = d.fab ∧ e.srv = d.srv ∧ Heard d e x
    (inTurn d 0x40 x = true → d.partOfDomain x.domain.toNat = some p → argN x 33 1 % 2 = 1 → d.pieceRefused x = false →
      (d.mustHold p x = true → Does (.collData x) s fun e =>
        e.lnk.heldPieces = d.lnk.heldPieces ++ [(d.pieceEdge p x, x)] ∧ e.lnk.groups = d.lnk.groups ∧ RegsBut [] d e ∧ kept e) ∧
      (∀ a j, d.lnk.groups = [(k, g)] → g.waiting = [] → g.active = some a → a.op = 3 → a.s ≠ 0 → a.st = pktStamp x → a.nodes.findIdx? (· == x.src.toNat) = some j →
        argN x 44 4 = a.s → (∀ z ∈ d.fab.issues, z.sd.kind ≠ skRemote) → a.piece (argN x 33 1 / 2 % 4) j (argN x 36 4) = none → Does (.collData x) s fun e =>
          (∃ b, (e.group k).active = some b ∧ b.pieces = a.pieces ++ [⟨argN x 33 1 / 2 % 4, j, argN x 36 4, x.payload.take tileWire⟩] ∧ b.delivered = a.delivered ∧ b.inputs = a.inputs) ∧
          (e.group k).issued = g.issued ∧ e.lnk.heldPieces = d.lnk.heldPieces ∧ RegsBut [] d e ∧ kept e) ∧
      (∀ a, d.mustHold p x = false → (g.active.map CollIssue.st) ≠ some (pktStamp x) → g.kept = some a → a.st ≠ pktStamp x → Does (.collData x) s fun e =>
        FieldNow d e Reg.LNK_COLL_STALE cnt48 (satAdd 48 (d.rf Reg.LNK_COLL_STALE cnt48) 1) ∧ e.lnk.groups = d.lnk.groups ∧ kept e)) ∧
    (∀ a, inTurn d 0x41 x = true → d.partOfDomain x.domain.toNat = some p → g.active = some a → a.st = pktStamp x → d.executing a.ctx = true → (d.att a.ctx).decided = false →
      (d.att a.ctx).acked = false → d.fltq.length < 64 → Does (.collAbort x) s fun e =>
        Aborted d e p a.ctx cRemoteTimeout 0x0F03 true d.pos ∧ Recorded d e cRemoteTimeout 0x0F03 (argN x 40 1 * 2 ^ 56 + x.src.toNat)) ∧
    (∀ i w c cause detail, d.remoteWaits[i]? = some w → w.since + 50 * us ≤ d.ps →
      waitCause d p w = some (cause, detail) →
      d.curCtx p = some c → d.executing c = true → (d.att c).decided = false → (d.att c).acked = false → d.fltq.length < 64 →
      ((∀ n ∈ d.awaitedNodes w, (d.peer n).unreachAt = none) → Does (.remoteWaitTimeout i) s fun e =>
        Aborted d e p c cRemoteTimeout cause true d.pos ∧ Recorded d e cRemoteTimeout cause detail) ∧
      (∀ n, (d.awaitedNodes w).find? (fun n => (d.peer n).unreachAt.isSome) = some n → Does (.remoteWaitTimeout i) s fun e =>
        Aborted d e p c cLinkDown 0x0F11 true d.pos ∧ Recorded d e cLinkDown 0x0F11 n))

/-- R258, R350, R351: from the previous stage a HANDOFF_TILE within the size takes its slot in the receive area, one beyond marks the handoff bad;
HANDOFF_COMMIT starts the copy when nothing else is there; the copy's end makes the handoff usable with the tiles moved; the next stage's HANDOFF_ACK
is noted. Of the registers only a pre-emption request may show. It concludes that exec answers a next state, under conditions on state and operands
alone, for: handoffTile, handoffCommit, handoffCopyEnd, handoffAck. -/
def Obligations.StagesHandOff : Prop :=
  ∀ (s : State) (x : FrPkt) (p c : Nat),
    let d := s.dev
    let h := d.handoff c
    let n := argN x 40 8
    let len := tileBytes * d.hoffSize c
    let kept := fun (e : Dev) => e.fab = d.fab ∧ e.srv = d.srv ∧ RegsBut schedStats d e ∧ ∀ z, z ≠ c → e.handoff z = d.handoff z
    (d.pktCtx x = some (p, c) →
      (inTurn d 0x50 x = true → d.fromPrev c x = true →
        (argN x 34 4 < d.hoffSize c → Does (.handoffTile x) s fun e =>
          let a := d.hoffBase c + tileBytes * (d.hoffSize c + argN x 34 4)
          (∀ b, e.byte b = if a ≤ b ∧ b < a + 4608 then (slotBytes (x.payload.take tileWire)).getD (b - a) 0#8 else d.byte b) ∧ kept e ∧ e.handoff c = h ∧ Heard d e x) ∧
        (d.hoffSize c ≤ argN x 34 4 → Does (.handoffTile x) s fun e => n ∈ (e.handoff c).bad ∧ (e.handoff c).complete = h.complete ∧ e.mem = d.mem ∧ kept e ∧ Heard d e x)) ∧
      (inTurn d 0x51 x = true → d.fromPrev c x = true → Does (.handoffCommit x) s fun e =>
        e.handoff c = (if h.consume = none ∧ h.copying = none then { h with src := x.src.toNat, copying := (h.complete ++ [n]).head?, complete := (h.complete ++ [n]).tail }
          else { h with src := x.src.toNat, complete := h.complete ++ [n] }) ∧ e.mem = d.mem ∧ kept e ∧ Heard d e x) ∧
      (inTurn d 0x52 x = true → d.hasNext c = true → d.rf (Reg.LNK_STAGE c) Fld.LNK_STAGE_NEXT = x.src.toNat → Does (.handoffAck x) s fun e =>
        e.handoff c = { h with acked := max h.acked (n + 1) } ∧ e.mem = d.mem ∧ kept e ∧ Heard d e x)) ∧
    (∀ (cc : CtxIdx) m, cc.val = c → h.copying = some m → d.lnk.groups = [] → (∀ z ∈ d.fab.issues, z.sd.kind ≠ skRemote) → Does (.handoffCopyEnd cc) s fun e =>
      e.handoff c = { h with copying := none, consume := some m, usable := true } ∧ BytesBut (d.hoffBase c) len d e ∧
      (∀ k, k < len → e.byte (d.hoffBase c + k) = d.byte (d.hoffBase c + len + k)) ∧ kept e)

/-! ### Expert dispatch (chapter 09) -/

/-- R268 to R270, R275 to R277: at the source a row of a choice tile sends one entry for each expert that it names; a return or a DROP of the present
attempt resolves its entry, one of an older attempt is counted; a bad tile aborts with cause 0x0D07; when every entry is resolved the combine station
hears the number of rows. R271 to R276, R280, R286: at the home an entry waits until every stream that has not ended has one, and the entry with the
lowest key is then admitted while its expert has room; the end of a stream is noted; when all have ended each local expert's station hears its
admitted count; output tiles are gathered in groups, and one before its count or after END_OF_STREAM aborts with cause 0x0D06; 50 µs without what is
awaited abort with cause 0x0D11; XPT_CTL.CLR clears every counter. It concludes that exec answers a next state, under conditions on state and operands
alone, for: choiceTile, xptEntry, xptEnd, expertAdmitNotify, expertOutputTile, xptReturn, xptDrop, combineNotify, expertWaitTimeout, xptClr. -/
def Obligations.ExpertsAreServed : Prop :=
  (
    ∀ (s : State) (p c t : Nat),
      let d := s.dev
      let l := d.layerRec p t
      (∀ (e0 : Fin 2) (pp : PartIdx) (q0 : Fin 16) (tile : List Byte), pp.val = p → d.curCtx p = some c → d.phase c = phExecute →
        (∀ z a n data, tileCrcOk tile = true → hdrValid (hdrOf tile) = true → (hdrOf tile).empty = false → (hdrOf tile).eos = false → hdrRows (hdrOf tile) = 1 →
          d.xsrc c = [z] → z.layer = t → z.ended = false → l.edge = e0.val → l.queue = q0.val → d.expTable p = some (a, n) → t < n → (choiceRow tile 0).2 = t →
          let q := (choiceRow tile 0).1
          rowCheck t l z.rows.getLast? q = none → q.skip = false → d.entryData p c e0 t l q.srcRow = .ok data →
          (∀ y ∈ q.ranks, d.homePos c (l.experts.getD y.2 ⟨0, 0, 0, 0, 0, 0⟩) ≠ d.pos) → Does (.choiceTile e0 pp q0 tile) s fun e =>
            e.xsrc c = [{ z with
              rows := z.rows ++ [q],
              checked := z.checked ++ d.newTiles p c t l q.srcRow,
              sent := z.sent ++ q.ranks.map fun y => ⟨q.slot, q.token, y.1, y.2, leAt tile (320 + 4 * 16) 4 / 65536, q.srcRow, false, false⟩ }] ∧
            e.fltq = d.fltq ∧ e.mem = d.mem ∧ e.fab = d.fab) ∧
        ((tileCrcOk tile && hdrValid (hdrOf tile)) = false → (d.att c).decided = false → (d.att c).acked = false → d.fltq.length < 64 → d.xsrc c = [] →
          Does (.choiceTile e0 pp q0 tile) s fun e => Aborted d e p c cTileCheck 0x0D07 true d.pos ∧ Recorded d e cTileCheck 0x0D07 0)) ∧
      (∀ (x : FrPkt) (pl : PortIdx), d.pktCtx x = some (p, c) → argN x 34 2 = t → d.phase c = phExecute →
        let hit := fun (y : SentEntry) => y.slot == argN x 36 2 && y.token == argN x 38 2 && y.rank == argN x 40 1 && !y.resolved
        let done_ := fun (kept : Bool) (e : Dev) =>
          e.xsrc c = (d.xsrc c).map (fun z => if z.layer = t then { z with sent := z.sent.map fun y => if hit y then { y with resolved := true, kept := kept } else y } else z) ∧
          e.fltq = d.fltq ∧ Heard d e x
        (∀ z, x.epoch.toNat = (d.att c).epoch → (d.xsrc c).find? (fun z => z.layer == t) = some z → z.sent.any hit = true → argN x 42 2 = d.slotGenIn p c (argN x 36 2) →
          (inTurn d 0x31 x = true → Does (.xptReturn ⟨pl, x⟩) s (done_ true)) ∧
          (inTurn d 0x32 x = true → Does (.xptDrop ⟨pl, x⟩) s fun e => done_ false e ∧ e.mem = d.mem ∧ e.fab = d.fab)) ∧
        (x.epoch.toNat < (d.att c).epoch → ∀ y ∈ [(0x31, Instr.xptReturn ⟨pl, x⟩), (0x32, .xptDrop ⟨pl, x⟩)], inTurn d y.1 x = true → Does y.2 s fun e =>
          e.rf (Reg.XPT_STALE c) cnt48 = satAdd 48 (d.rf (Reg.XPT_STALE c) cnt48) 1 ∧ RegsBut (Reg.XPT_STALE c :: expertBytes y.1 pl true) d e ∧ e.xpt = d.xpt ∧ e.mem = d.mem ∧ Heard d e x)) ∧
      (∀ (cc : CtxIdx) (layer : BitVec 12) z i, cc.val = c → layer.toNat = t → d.partOfCtx c = some p → d.activeImg p = some i → (d.xsrc c).find? (fun z => z.layer == t) = some z → d.executing c = true →
        z.ended = true → z.notified = false → (∀ y ∈ z.sent, y.resolved = true) → Does (.combineNotify cc layer) s fun e =>
          let dst := seqCell (i.origin + l.target % 16) (l.target / 16 % 4)
          e.fab.transit = d.fab.transit ++ [((mkPkt 8 (d.cell dst).gen.toNat dst (ioPort dst) 0 (l.target / 256 % 16 * 2 ^ 32 + z.rows.length % 2 ^ 32) []).withTc 0 15).withPart p] ∧
          (∀ y ∈ e.xsrc c, y.layer = t → y.notified = true) ∧ RegsButFlits [] d e ∧ e.fltq = d.fltq)) ∧
  (
    ∀ (s : State) (p c t : Nat) (h : XptHome),
      let d := s.dev
      let l := d.layerRec p t
      (∀ (x : FrPkt) (pl : PortIdx), d.pktCtx x = some (p, c) → argN x 34 2 = t → d.executing c = true → x.epoch.toNat = (d.att c).epoch → d.xhome c = [h] → h.layer = t →
        let en : HomeEntry := ⟨argN x 36 2, argN x 38 2, argN x 40 1, argN x 41 1, argN x 42 2, argN x 44 2, posOf x, x.payload⟩
        (inTurn d 0x30 x = true →
          ((∃ m ∈ d.xptMembers c, m ≠ posOf x ∧ m ∉ h.ended ∧ h.head m = none) → Does (.xptEntry ⟨pl, x⟩) s fun e =>
            e.xhome c = [{ h with waiting := h.waiting ++ [en] }] ∧ e.mem = d.mem ∧ e.fab = d.fab ∧ e.fltq = d.fltq ∧ Heard d e x) ∧
          ((∀ m ∈ d.xptMembers c, m ≠ posOf x → m ∈ h.ended) → posOf x ∈ d.xptMembers c → posOf x ∉ h.ended → h.waiting = [] →
            (h.admitted.filter fun z => z.expert == en.expert).length < (l.experts.getD en.expert ⟨0, 0, 0, 0, 0, 0⟩).cap → Does (.xptEntry ⟨pl, x⟩) s fun e =>
              e.xhome c = [{ h with admitted := h.admitted ++ [en] }] ∧ e.fab = d.fab ∧ e.fltq = d.fltq ∧ Heard d e x)) ∧
        (inTurn d 0x33 x = true → (∃ m ∈ d.xptMembers c, m ≠ posOf x ∧ m ∉ h.ended ∧ h.head m = none) → Does (.xptEnd ⟨pl, x⟩) s fun e =>
          e.xhome c = [{ h with ended := if h.ended.contains (posOf x) then h.ended else h.ended ++ [posOf x] }] ∧ e.mem = d.mem ∧ e.fab = d.fab ∧ RegsBut (expertBytes 0x33 pl true) d e ∧ Heard d e x)) ∧
      (∀ (cc : CtxIdx) (layer : BitVec 12) i, cc.val = c → layer.toNat = t → d.partOfCtx c = some p → d.xhome c = [h] → h.layer = t → d.executing c = true → d.mergeDone c h = true → h.notified = false →
        d.activeImg p = some i → Does (.expertAdmitNotify cc layer) s fun e =>
          let told := fun (q : ExpRec × Nat) =>
            let dst := seqCell (i.origin + q.1.notify % 16) (q.1.notify / 16 % 4)
            ((mkPkt 8 (d.cell dst).gen.toNat dst (ioPort dst) 0 (q.1.notify / 256 % 16 * 2 ^ 32 + (h.admitted.filter fun z => z.expert == q.2).length % 2 ^ 32) []).withTc 0 15).withPart p
          e.fab.transit = d.fab.transit ++ ((l.experts.zipIdx.filter fun q => d.homePos c q.1 == d.pos).map told) ∧ e.xhome c = [{ h with notified := true }] ∧ e.mem = d.mem ∧ RegsButFlits [] d e) ∧
      (∀ (e0 : Fin 2) (pp : PartIdx) (q0 : Fin 16) (tile : List Byte) (n : Nat), pp.val = p → d.curCtx p = some c → d.phase c = phExecute →
        d.xhome c = [h] → h.layer = t → d.outputOf p c e0 q0 = some (t, l, n) → tileCrcOk tile = true → hdrValid (hdrOf tile) = true →
        (h.notified = true → n ∉ h.outEnded → (hdrOf tile).eos = false → (hdrOf tile).empty = false → 2 ≤ l.outTiles → (hdrOf tile).seq < l.outTiles → sget (fun _ => []) h.outs n = [] →
          0 < (h.admitted.filter fun z => z.expert == n).length → Does (.expertOutputTile e0 pp q0 tile) s fun e =>
            (∃ o, e.xhome c = [{ h with outs := o }] ∧ sget (fun _ => []) o n = [((hdrOf tile).seq, tile)]) ∧ RegsBut [] d e ∧ e.mem = d.mem ∧ e.fab = d.fab ∧ e.lnk = d.lnk) ∧
        (h.notified = false ∨ n ∈ h.outEnded → (d.att c).decided = false → (d.att c).acked = false → d.fltq.length < 64 → Does (.expertOutputTile e0 pp q0 tile) s fun e =>
          Aborted d e p c cBounds 0x0D06 true d.pos ∧ Recorded d e cBounds 0x0D06 (t * 2 ^ 52 + n * 2 ^ 46 + (hdrOf tile).seq))) ∧
      (∀ (cc : CtxIdx) (e0 : Fin 2), cc.val = c → d.partOfCtx c = some p → d.phase c = phExecute → d.xptAwaited p c e0 ≠ [] → sget (fun _ => 0) d.xpt.progress (2 * c + e0) + 50 * us ≤ d.ps →
        (∀ q ∈ d.xptAwaited p c e0, (d.peer (d.posNode q)).unreachAt = none) → (d.att c).decided = false → (d.att c).acked = false → d.fltq.length < 64 → Does (.expertWaitTimeout cc e0) s fun e =>
          Aborted d e p c cRemoteTimeout 0x0D11 true d.pos ∧ Recorded d e cRemoteTimeout 0x0D11 ((d.xptAwaited p c e0).foldl (fun a q => a + 2 ^ q) 0)) ∧
      (d.hostUp Reg.XPT_CTL = true → d.mainOn = true → Does (.xptClr 0) s fun e =>
        (∀ k, k < 64 → ∀ o ∈ [Reg.XPT_SENT k, Reg.XPT_ADMIT k, Reg.XPT_DROP k, Reg.XPT_TOKSKIP k, Reg.XPT_STALE k], e.rd o = 0#64) ∧
        (∀ k, k < 7 → e.rd (Reg.XPT_LINK_TX k) = 0#64 ∧ e.rd (Reg.XPT_LINK_RX k) = 0#64) ∧ OnlyRegs d e))

/-! ### Ring and by-pass (chapter 12) -/

/-- R358, R361 to R365: the states of a ring port: HELLO once its lanes lock, UP once hellos have gone both ways, with Thop; FAULTY with its cause on a
late train, a missing hello, RLEAVE, a changed identity, three misses or silence; TRAIN again, with no hello heard, when light returns or on RETRAIN.
A faulty hop is recorded and told three times, and its device is lost after 10 ms. R360, R361, R366 to R370: insertion and removal: what INSERT does
and refuses, RLEAVE and the drive's removal 10 µs later, the switch and both ports, BYPASS_N, EXPEL; and the frames that keep the ring: RKEEP after
0.5 µs, RHELLO every 100 µs, LOOP every 1 ms, which on its return shows its hops and turns. It concludes that exec answers a next state, under
conditions on state and operands alone, for: rhello, rkeep, rleave, expel, loopFrame, hopMiss, hopSilence, expelRepeat, hopLossTimeout, loopTimer,
rkeepTimer, rhelloTimer, ringInsert, ringRemove, driveRemoval, switchInserted, switchBypassed, bypassNLow, ringPortTrained, ringTrainTimeout,
ringHelloTimeout, lightReturn, ringRetrain, bypassNHigh. -/
def Obligations.RingPortsAndDevices : Prop :=
  (
    ∀ (s : State) (a : RingIdx) (x : RingFrame) (v : View),
      let d := s.dev
      let st := d.ringState a
      let r := d.rp a
      let h := helloOf x.payload
      let still := fun (e : Dev) => e.mem = d.mem ∧ e.fab = d.fab ∧ e.srv = d.srv
      let faulty := fun (cause : Nat) (e : Dev) => e.ringState a = rFaulty ∧ (cause ≠ 0 → e.rf Reg.LNK_RING_STAT (ringCauseFld a) = cause) ∧
        e.rf Reg.LNK_RING_WRAPS cnt48 = satAdd 48 (d.rf Reg.LNK_RING_WRAPS cnt48) 1 ∧ still e
      let train := fun (e : Dev) => e.ringState a = rTrain ∧ e.rf (Reg.LNK_RING_PEER a) Fld.LNK_BL_PEER_VALID = 0 ∧ (∀ g, Apart (ringFld a) g → e.rf Reg.LNK_RING_STAT g = d.rf Reg.LNK_RING_STAT g) ∧
        RegsBut [Reg.LNK_RING_STAT, Reg.LNK_RING_PEER a] d e ∧ (e.rp a).since = d.ps ∧ still e
      let node := match r.hello with | some g => fget g.node Fld.GLB_NODE_NODE_ID | none => 0
      let hop := fun (code : Nat) (e : Dev) => faulty (if code = 1 then 2 else 1) e ∧ (d.fltq.length < 64 → Recorded d e cLinkDown 0x1001 (node + (if code = 1 then 2 ^ 32 else 0))) ∧
        (e.rp a).expelLeft = 2 ∧ (e.rp a).lost = some (node, d.ps) ∧ ∃ y, Sent d e (.ring a 0x04 y) ∧ rArg y 36 1 = code
      let identity := ∀ g, r.hello = some g → g.node = h.node ∧ g.session = h.session
      (st = rTrain → d.ps ≤ r.since + 2 * ms → Does (.ringPortTrained a) s fun e => e.ringState a = rHello ∧ (e.rp a).hello = none ∧ (∃ y, Sent d e (.ring a 0x01 y)) ∧ still e) ∧
      (st = rTrain → r.since + 2 * ms ≤ d.ps → Does (.ringTrainTimeout a) s (faulty 5)) ∧
      (st = rHello → r.since + 100 * us ≤ d.ps → Does (.ringHelloTimeout a) s (faulty 0)) ∧
      (ringWhole 0x01 x = true → st = rHello → Does (.rhello a x) s fun e =>
        e.ringState a = (if rArg x 44 8 = 0 then rHello else rUp) ∧ (e.rp a).hello = some h ∧ e.rd (Reg.LNK_RING_PEER a) = d.peerWord h ∧ (∃ y, Sent d e (.ring a 0x01 y)) ∧ still e ∧
        (rArg x 44 8 ≠ 0 → e.rf Reg.LNK_RING_THOP (if a.val = 0 then Fld.LNK_RING_THOP_A else Fld.LNK_RING_THOP_B) = min 65535 ((d.sysTime.toNat - rArg x 44 8) * 2 / 5))) ∧
      (ringWhole 0x01 x = true → st = rUp → identity → Does (.rhello a x) s fun e => (e.rp a).hello = some h ∧ RegsBut [Reg.LNK_RING_PEER a] d e ∧ still e ∧
        ∀ b, b < 2 → ∀ t, (e.rp b).lost = some t → t.1 ≠ fget h.node Fld.GLB_NODE_NODE_ID) ∧
      (ringWhole 0x01 x = true → st = rUp → ¬ identity → Does (.rhello a x) s (faulty 4)) ∧
      (ringWhole 0x03 x = true → st = rUp → Does (.rleave a x) s fun e => faulty 3 e ∧ e.fltq = d.fltq) ∧
      (st = rFaulty → Does (.lightReturn a) s train) ∧
      (st = rFaulty → v.val = 0 → d.hostUp Reg.LNK_RING_CTL = true → Does (.ringRetrain v a) s train) ∧
      (∀ (n : BitVec 16) (t : Nat),
        let deadline := t + 2100 * ns + 2 * d.rf Reg.LNK_RING_THOP (if a.val = 0 then Fld.LNK_RING_THOP_A else Fld.LNK_RING_THOP_B) * ns
        let recent := (r.misses.filter fun u => d.ps < u + 100 * us).length
        st = rUp → (n.toNat, t, false) ∈ r.sent → (∀ q ∈ r.sent, q.1 = n.toNat → q = (n.toNat, t, false)) → deadline ≤ d.ps →
        (recent < 2 → Does (.hopMiss a n) s fun e => FieldNow d e Reg.LNK_RING_MISSES cnt48 (satAdd 48 (d.rf Reg.LNK_RING_MISSES cnt48) 1) ∧ still e) ∧
        (2 ≤ recent → Does (.hopMiss a n) s (hop 1))) ∧
      (st = rUp → r.lastRx + 4 * us ≤ d.ps → Does (.hopSilence a) s (hop 2)) ∧
      (0 < r.expelLeft → st = rFaulty → r.expelAt + us ≤ d.ps → Does (.expelRepeat a) s fun e =>
        (e.rp a).expelLeft = r.expelLeft - 1 ∧ RegsBut [] d e ∧ still e ∧ ∃ y, Sent d e (.ring a 0x04 y) ∧ rArg y 36 1 = r.expelCode % 256) ∧
      (∀ n t, r.lost = some (n, t) → r.lostTold = false → t + 10 * ms ≤ d.ps → Does (.hopLossTimeout a) s fun e => (d.isMember n = true → (e.peer n).withdrawn = true) ∧
        ∀ c : CtxIdx, d.needsNode c n = true → d.executing c = true → (d.att c).decided = false → (d.att c).acked = false → (d.partOfCtx c).isSome = true → e.phase c = phAbort ∧ e.loopState c = lpHalted)) ∧
  (
    ∀ (s : State) (a : RingIdx) (x : RingFrame) (v : View),
      let d := s.dev
      let r := d.rp a
      let sw := d.rf Reg.LNK_RING_STAT Fld.LNK_RING_STAT_SWITCH
      let ins := fun (e : Dev) => e.rf Reg.LNK_RING_CTL Fld.LNK_RING_CTL_INSERT
      let why := b2n (!d.ready) + 2 * b2n (!d.nodeValid) + 4 * b2n (d.role < 2) + 8 * b2n d.ring.bypassLow
      let still := fun (e : Dev) => e.mem = d.mem ∧ e.fab = d.fab ∧ e.srv = d.srv
      let dark := fun (e : Dev) => e.ring.drive = false ∧ e.ring.leaveAt = none ∧ e.ringState 0 = rDark ∧ e.ringState 1 = rDark ∧
        e.rf Reg.LNK_RING_STAT Fld.LNK_RING_STAT_SWITCH = (if sw = 0 then 0 else 1) ∧ still e
      (d.hostUp Reg.LNK_RING_CTL = true →
        (v.val = 0 → why ≠ 0 → d.fltq.length < 64 → Does (.ringInsert v) s fun e => Recorded d e cConfig 0x1021 why ∧ e = { d with fltq := e.fltq }) ∧
        (v.val = 0 → why = 0 → ins d = 0 → Does (.ringInsert v) s fun e => ins e = 1 ∧ e.ring.drive = true ∧ e.rf Reg.LNK_RING_STAT Fld.LNK_RING_STAT_EXPELLED = 0 ∧
          e.rf Reg.LNK_RING_STAT Fld.LNK_RING_STAT_SWITCH = (if sw = 2 then 2 else 1) ∧ e.ringState 0 = d.ringState 0 ∧ e.ringState 1 = d.ringState 1 ∧
          RegsBut [Reg.LNK_RING_CTL, Reg.LNK_RING_STAT] d e ∧ still e) ∧
        (v.val = 0 → ins d = 1 → Does (.ringRemove v) s fun e => FieldNow d e Reg.LNK_RING_CTL Fld.LNK_RING_CTL_INSERT 0 ∧ e.ring.leaveAt = (if d.ring.drive then some (d.ps + 10 * us) else none) ∧
          (∀ b : RingIdx, d.ringState b = rUp → ∃ y, Sent d e (.ring b 0x03 y)) ∧ still e) ∧
        (v.val ≠ 0 → Does (.ringInsert v) s (· = d) ∧ Does (.ringRemove v) s (· = d))) ∧
      (∀ t, d.ring.leaveAt = some t → t ≤ d.ps → Does .driveRemoval s dark) ∧
      (d.ring.drive = true → sw = 1 → Does .switchInserted s fun e => e.rf Reg.LNK_RING_STAT Fld.LNK_RING_STAT_SWITCH = 2 ∧ e.ringState 0 = rTrain ∧ e.ringState 1 = rTrain ∧
        RegsBut [Reg.LNK_RING_STAT, Reg.LNK_RING_PEER 0, Reg.LNK_RING_PEER 1] d e ∧ (∀ b : RingIdx, e.rf (Reg.LNK_RING_PEER b) Fld.LNK_BL_PEER_VALID = 0) ∧ still e) ∧
      (d.ring.drive = false → sw = 1 → Does .switchBypassed s fun e => FieldNow d e Reg.LNK_RING_STAT Fld.LNK_RING_STAT_SWITCH 0 ∧ OnlyRegs d e) ∧
      Does .bypassNLow s (fun e => dark e ∧ ins e = 0 ∧ e.ring.bypassLow = true ∧ e.rf Reg.LNK_RING_STAT Fld.LNK_RING_STAT_BYPASS_N = 1) ∧
      Does .bypassNHigh s (fun e => e.ring = { d.ring with bypassLow := false } ∧ FieldNow d e Reg.LNK_RING_STAT Fld.LNK_RING_STAT_BYPASS_N 0 ∧ still e) ∧
      (ringWhole 0x04 x = true → d.ringState a = rUp → Does (.expel a x) s fun e => ins e = 0 ∧ e.rf Reg.LNK_RING_STAT Fld.LNK_RING_STAT_EXPELLED = 1 ∧ e.ring.leaveAt = some (d.ps + 10 * us) ∧ still e ∧
        (d.ringState (1 - a.val) = rUp → ∃ y, Sent d e (.ring (1 - a.val) 0x03 y)) ∧
        (d.fltq.length < 64 → Recorded d e cLinkDown 0x1002 (match r.hello with | some g => fget g.node Fld.GLB_NODE_NODE_ID | none => 0))) ∧
      (ringWhole 0x02 x = true → d.ringState a = rUp → Does (.rkeep a x) s fun e =>
        e.rp a = { r with lastRx := d.ps, fwdAck := x.hseq.toNat, sent := r.sent.filter fun q => !seqCovered q.1 x.fwdAck.toNat } ∧ e.rp (1 - a.val) = d.rp (1 - a.val) ∧ RegsBut [] d e ∧ still e) ∧
      (d.ringState a = rUp → r.lastTx + 500 * ns ≤ d.ps → Does (.rkeepTimer a) s fun e => (∃ y, Sent d e (.ring a 0x02 y) ∧ y.fwdAck = BitVec.ofNat 16 r.fwdAck) ∧ RegsBut [] d e ∧ still e) ∧
      (d.ringState a = rUp → r.helloTx + 100 * us ≤ d.ps → Does (.rhelloTimer a) s fun e =>
        (∃ y, Sent d e (.ring a 0x01 y) ∧ y.payload = d.helloBytes a 3 ∧ rArg y 36 8 = d.sysTime.toNat ∧ rArg y 44 8 = r.sysRx % 2 ^ 64) ∧ (e.rp a).helloTx = d.ps ∧ RegsBut [] d e ∧ still e) ∧
      (d.inserted = true → d.ring.loopAt + ms ≤ d.ps → d.ringState 1 = rUp → Does .loopTimer s fun e =>
        (∃ y, Sent d e (.ring 1 0x05 y) ∧ y.dst = 0xFF ∧ y.hops = 0 ∧ y.turns = 0) ∧ e.ring.loopAt = d.ps ∧ RegsBut [] d e ∧ still e) ∧
      (ringWhole 0x05 x = true → d.ringState a = rUp → x.src.toNat = d.colony → x.turns.toNat % 2 = 0 → Does (.loopFrame a x) s fun e =>
        e.rf Reg.LNK_RING_STAT Fld.LNK_RING_STAT_LOOP_HOPS = x.hops.toNat ∧ e.rf Reg.LNK_RING_STAT Fld.LNK_RING_STAT_LOOP_TURNS = x.turns.toNat ∧
        e.rf Reg.LNK_RING_STAT Fld.LNK_RING_STAT_LOOP_VALID = 1 ∧ e.out = d.out ∧ RegsBut [Reg.LNK_RING_STAT] d e ∧ still e) ∧
      (ringWhole 0x05 x = true → d.ringState a = rUp → x.src.toNat ≠ d.colony → x.dst = 0xFF → Does (.loopFrame a x) s fun e => Forwarded d e 0x05 x ∧ still e))

/-- R358, R363, R372 to R377: a frame with a bad HCRC is dropped and counted; control messages are kept once, acknowledged and resent; a broadcast's
origin starts, sends its shards in turn, repairs first, repeats BC_END and closes; a keeper lands the bytes it lacks, asks again for holes, and gives
up after 100 ms, with what it made of the bytes before the first hole (R190). It concludes that exec answers a next state, under conditions on state
and operands alone, for: rhello, rkeep, rleave, expel, loopFrame, ctrlMsg, ctrlAck, bcData, bcEnd, bcNak, ctrlMsgResend, bcStart, bcClose,
bcFrameSend, bcEndRepeat, bcNakTimer, broadcastJobTimeout. -/
def Obligations.MessagesAndBroadcastsOfTheRing : Prop :=
  ∀ (s : State) (a : RingIdx) (x : RingFrame) (v : View) (k : Fin 4) (p : PartIdx),
    let d := s.dev
    let taken := fun (kind : Nat) => ringWhole kind x = true ∧ d.ringState a = rUp ∧ x.src.toNat ≠ d.colony
    let mine := fun (kind : Nat) => taken kind ∧ x.dst.toNat = d.colony
    let key := (x.src.toNat, x.seq.toNat)
    let b := d.bc k
    let part := d.rf (Reg.LNK_RB_CFG k) Fld.LNK_RB_CFG_PART
    let src := (d.rd (Reg.LNK_RB_SRC k)).toNat
    let ranges := (List.range 9).map fun i => (d.num (src + 16 * i) 8, d.num (src + 16 * i + 8) 8)
    let left := fun i => (b.ranges.getD i (0, 0)).2 - b.done.getD i 0
    let rate := max 1 (d.rf (Reg.LNK_RB_CFG k) Fld.LNK_RB_CFG_RATE)
    let still := fun (e : Dev) => e.mem = d.mem ∧ e.fab = d.fab ∧ e.srv = d.srv
    let record := fun (cls cause detail : Nat) (e : Dev) => Recorded d e cls cause detail ∧ e = { d with fltq := e.fltq }
    let landed := fun (j : Job) (e : Dev) => e.setJob j = e ∧ RegsBut [Reg.LNK_RING_TURN_DROP] d e ∧ e.mem = d.mem ∧ e.fab = d.fab
    (∀ q ∈ [(0x01, Instr.rhello a x), (0x02, .rkeep a x), (0x03, .rleave a x), (0x04, .expel a x), (0x05, .loopFrame a x), (0x10, .ctrlMsg a x), (0x11, .ctrlAck a x), (0x20, .bcData a x), (0x21, .bcEnd a x), (0x22, .bcNak a x)],
      d.ringState a = rUp → (x.hcrc.toNat ≠ ringCrc q.1 x ∨ x.hops = 255) → Does q.2 s fun e =>
        FieldNow d e Reg.LNK_RING_HDROP cnt48 (satAdd 48 (d.rf Reg.LNK_RING_HDROP cnt48) 1) ∧ e.rp a = { d.rp a with lastRx := d.ps } ∧ e.out = d.out ∧ still e) ∧
    (mine 0x10 → d.ringState 1 = rUp → Does (.ctrlMsg a x) s fun e => key ∈ e.ring.kept ∧ (∀ z ∈ d.ring.kept, z ∈ e.ring.kept) ∧ (∃ y, Sent d e (.ring 1 0x11 y) ∧ y.dst.toNat = x.src.toNat ∧ y.seq = x.seq) ∧
      (key ∉ d.ring.kept ↔ ∃ l, Sent d e (.note "CTRL_MSG" l)) ∧ RegsBut [] d e ∧ still e) ∧
    (taken 0x10 → x.dst = 0xFF → Does (.ctrlMsg a x) s fun e => key ∈ e.ring.kept ∧ Forwarded d e 0x10 x ∧ still e) ∧
    (mine 0x11 → Does (.ctrlAck a x) s fun e => (∀ m, m ∈ e.ring.ctrl ↔ m ∈ d.ring.ctrl ∧ ¬ (m.mseq = x.seq.toNat ∧ m.dst = x.src.toNat)) ∧ e.out = d.out ∧ RegsBut [] d e ∧ still e) ∧
    (∀ q ∈ [(0x10, Instr.ctrlMsg a x), (0x11, .ctrlAck a x), (0x20, .bcData a x), (0x21, .bcEnd a x), (0x22, .bcNak a x)], taken q.1 → x.dst.toNat ≠ d.colony → x.dst ≠ 0xFF →
      Does q.2 s fun e => Forwarded d e q.1 x ∧ still e) ∧
    (∀ (n : BitVec 32) (m : CtrlMsg), (d.ring.ctrl.find? fun q => q.mseq == n.toNat) = some m → m.at_ + ms ≤ d.ps →
      (8 ≤ m.sends → Does (.ctrlMsgResend n) s fun e => e.ring.ctrl = d.ring.ctrl.erase m ∧ FieldNow d e Reg.LNK_RING_CTRL_FAIL cnt48 (satAdd 48 (d.rf Reg.LNK_RING_CTRL_FAIL cnt48) 1) ∧ still e) ∧
      (m.sends < 8 → d.ringState 1 = rUp → Does (.ctrlMsgResend n) s fun e => { m with at_ := d.ps, sends := m.sends + 1 } ∈ e.ring.ctrl ∧
        FieldNow d e Reg.LNK_RING_CTRL_RESEND cnt48 (satAdd 48 (d.rf Reg.LNK_RING_CTRL_RESEND cnt48) 1) ∧ still e ∧ ∃ y, Sent d e (.ring 1 0x10 y) ∧ y.seq = n ∧ y.payload = m.payload)) ∧
    (v.val = 0 → d.hostUp (Reg.LNK_RB_CFG k) = true →
      ((d.bcState k ≠ 0 ∨ d.inserted = false) → d.fltq.length < 64 → Does (.bcStart v k) s (record cConfig 0x1022 (k + 16))) ∧
      (d.bcState k = 0 → d.inserted = true → (d.partUsable part = false ∨ d.rd (Reg.LNK_DOMAIN part) = 0) → d.fltq.length < 64 → Does (.bcStart v k) s (record cConfig 0x1022 (k + 32))) ∧
      (d.bcState k = 0 → d.inserted = true → d.partUsable part = true → d.rd (Reg.LNK_DOMAIN part) ≠ 0 →
        (d.t1Owned part src 144 && ranges.all (fun r => r.2 == 0 || d.owned part r.1 r.2)) = false → d.fltq.length < 64 → Does (.bcStart v k) s (record cSecurity 0x1031 k)) ∧
      (d.bcState k = 0 → d.inserted = true → d.partUsable part = true → d.rd (Reg.LNK_DOMAIN part) ≠ 0 →
        (d.t1Owned part src 144 && ranges.all (fun r => r.2 == 0 || d.owned part r.1 r.2)) = true → Does (.bcStart v k) s fun e =>
        e.bcState k = 1 ∧ (e.bc k).ranges = ranges ∧ (e.bc k).done = List.replicate 9 0 ∧ (e.bc k).seq = 0 ∧ RegsBut [Reg.LNK_RB_STAT k] d e ∧ still e) ∧
      Does (.bcClose v k) s fun e => e.bcState k = 0 ∧ RegsBut [Reg.LNK_RB_STAT k] d e ∧ still e) ∧
    (∀ i off len rest, d.bcState k ≠ 0 → b.nextAt ≤ d.ps → b.repairs = (i, off, len) :: rest → d.ringState 1 = rUp → Does (.bcFrameSend k) s fun e =>
      (e.bc k).done = b.done ∧ (e.bc k).seq = b.seq + 1 ∧ RegsBut [Reg.LNK_RB_STAT k] d e ∧ still e ∧
      ∃ y, Sent d e (.ring 1 0x20 y) ∧ y.repair = true ∧ y.shard.toNat = i % 256 ∧ y.offset.toNat = off / 4096 * 4096 % 2 ^ 64) ∧
    (∀ i, d.bcState k = 1 → b.nextAt ≤ d.ps → b.repairs = [] → ((List.range 9).map (fun j => (b.turn + j) % 9)).find? (fun j => 0 < left j) = some i → d.ringState 1 = rUp → Does (.bcFrameSend k) s fun e =>
      let o := b.done.getD i 0
      let n := min 4096 (left i)
      (e.bc k).done = b.done.set i (o + n) ∧ (e.bc k).turn = (i + 1) % 9 ∧ (e.bc k).seq = b.seq + 1 ∧ (e.bc k).nextAt = d.ps + n * 1000 / rate ∧ RegsBut [Reg.LNK_RB_STAT k] d e ∧ still e ∧
      e.bcState k = (if (List.range 9).all fun j => (b.done.set i (o + n)).getD j 0 == (b.ranges.getD j (0, 0)).2 then 2 else 1) ∧
      ∃ y, Sent d e (.ring 1 0x20 y) ∧ y.repair = false ∧ y.shard.toNat = i ∧ y.offset.toNat = o % 2 ^ 64 ∧ y.payload = d.bytes ((b.ranges.getD i (0, 0)).1 + o) n) ∧
    (∀ i, d.bcState k = 2 → b.endAt + 2 * ms ≤ d.ps → d.ringState 1 = rUp → i < 9 → (b.ranges.getD i (0, 0)).2 ≠ 0 → Does (.bcEndRepeat k) s fun e =>
      (∃ y, Sent d e (.ring 1 0x21 y) ∧ y.shard.toNat = i ∧ y.offset.toNat = (b.ranges.getD i (0, 0)).2 % 2 ^ 64) ∧ (e.bc k).endAt = d.ps ∧ RegsBut [] d e ∧ still e) ∧
    (mine 0x22 → d.bcState k ≠ 0 → d.rf (Reg.LNK_RB_CFG k) Fld.LNK_RB_CFG_STREAM = x.stream.toNat → (d.rd (Reg.LNK_DOMAIN part)).toNat = x.domain.toNat →
      rArg x 40 8 < (b.ranges.getD (rArg x 36 1) (0, 0)).2 → 0 < rArg x 48 8 → Does (.bcNak a x) s fun e =>
      (e.bc k).repairs = b.repairs ++ [(rArg x 36 1, rArg x 40 8, rArg x 48 8)] ∧ e.rf (Reg.LNK_RB_STAT k) Fld.LNK_RB_STAT_NAKS = satAdd 24 (d.rf (Reg.LNK_RB_STAT k) Fld.LNK_RB_STAT_NAKS) 1 ∧ still e) ∧
    (∀ j, d.bcJob x = some j → taken 0x20 → x.dst = 0xFF → Does (.bcData a x) s fun e =>
      landed { landBytes j x.offset.toNat x.payload d.ps with origin := some x.src.toNat } e ∧ Forwarded d e 0x20 x) ∧
    (∀ j r rest, d.bcJob x = some j → j.holes = r :: rest → taken 0x21 → x.dst = 0xFF → d.ringState 1 = rUp → Does (.bcEnd a x) s fun e =>
      landed { j with origin := some x.src.toNat } e ∧ Forwarded d e 0x21 x ∧ ∃ y, Sent d e (.ring 1 0x22 y) ∧ y.dst.toNat = x.src.toNat ∧ rArg y 40 8 = (j.srcAddr % 2 ^ 63 + r.1) % 2 ^ 64 ∧ rArg y 48 8 = min r.2 0x4000000) ∧
    (∀ j r o rest, (d.ldr.jobs.find? fun q => q.part == p.val && q.kind == 3 && q.status == 1) = some j → j.holes = r :: rest → j.hasHole = true → j.origin = some o →
      j.holeAt + 2 * ms ≤ d.ps → sget (fun _ => 0) d.ring.naks p + 2 * ms ≤ d.ps → d.ringState 1 = rUp → j.part = p → Does (.bcNakTimer p) s fun e =>
      (∃ y, Sent d e (.ring 1 0x22 y) ∧ y.dst.toNat = o % 256 ∧ rArg y 40 8 = (j.srcAddr % 2 ^ 63 + r.1) % 2 ^ 64) ∧ sget (fun _ => 0) e.ring.naks p = d.ps ∧ RegsBut [] d e ∧ still e) ∧
    (∀ j, (d.ldr.jobs.find? fun q => q.part == p.val && q.kind == 3 && q.status == 1 && q.lastAt + 100 * ms ≤ d.ps && !q.holes.isEmpty) = some j →
      let out := d.partOutput j (d.goodSource j)
      let slot := d.jobAddr j.part j.index + 56
      let ended := fun (e : Dev) (n : Nat) => e.num slot 4 = 3 ∧ e.num (slot + 4) 4 = n % 2 ^ 32 ∧ (∀ q ∈ e.ldr.jobs, q ∈ d.ldr.jobs ∧ ¬ (q.part = j.part ∧ q.index = j.index)) ∧ e.fab = d.fab
      (out = [] → Does (.broadcastJobTimeout p) s fun e => ended e 0 ∧ BytesBut slot 8 d e) ∧
      (out ≠ [] → j.op ≠ 3 → d.landCheck j = none → Does (.broadcastJobTimeout p) s fun e => ended e out.length ∧
        (∀ y, (y < slot ∨ slot + 8 ≤ y) → e.byte y = if j.dst ≤ y ∧ y < j.dst + out.flatten.length then out.flatten.getD (y - j.dst) 0#8 else d.byte y)))

/-! ### Host ports (chapter 12) -/

/-- R378, R379, R386 to R389: a port counts a frame; one too long, for no view or a disabled one is dropped and counted, one of a protected view that is
not valid is dropped and recorded once a second; XOFF goes out above 256 KiB; a pause is honoured; a mark is answered with a CNP, a CNP halves the
rate, which rises again; LLDP; ports come up with a role and go down. R381, R382: the transitions of a queue pair and no others, each through the view
whose range holds it, RESET to INIT only with its port's role; acknowledgements retire, a NAK or a timeout sends all again until its count is out and
then ends the queue pair in ERROR with its cause. It concludes that exec answers a next state, under conditions on state and operands alone, for:
ethernetFrame, rdmaNak, rdmaRetryTimeout, cnp, rateIncreaseTimer, pauseFrame, lldpTimer, lldpdu, qpToInit, qpToRtr, qpToRts, qpToReset, qpToError,
rdmaAck, hostPortUp, hostPortDown. -/
def Obligations.HostPortsAndQueuePairs : Prop :=
  (
    ∀ (s : State) (a : HostPort) (f : EthFrame) (q : QpIdx),
      let d := s.dev
      let hp := d.hostPort a
      let up := d.hpState a = 3
      let whole := f.len.toNat ≤ 4352 ∧ f.tags.toNat ≤ 1
      let view := (List.range 17).find? fun v => f.dst.toNat == d.viewMac a v
      let open_ := fun v => d.rf (Reg.LNK_VIEW_CFG (17 * a + v)) Fld.LNK_VIEW_CFG_ENABLE ≠ 0 ∧ (v ≠ 0 → d.partState (v - 1) ≠ 0)
      let one := fun (e : Dev) (o : Nat) => e.rf o cnt48 = satAdd 48 (d.rf o cnt48) 1
      let pass := fun v => up ∧ whole ∧ view = some v ∧ open_ v ∧ (d.protectedView a v = true → f.secured = true ∧ f.valid = true)
      let queue := sget (fun _ => 0) hp.backlog f.prio.toNat + f.len.toNat
      let port := d.rf (Reg.LNK_QP q 0) Fld.LNK_QP0_PORT
      let rate := d.rf (Reg.LNK_QP q 6) Fld.LNK_QP6_RATE
      let paused := !d.mayTransmit q
      (up → (¬ whole ∨ view = none ∨ ∃ v, view = some v ∧ ¬ open_ v) → Does (.ethernetFrame a f) s fun e =>
        one e (Reg.LNK_HP_RX a) ∧ one e (Reg.LNK_HP_DROP a) ∧ RegsBut [Reg.LNK_HP_RX a, Reg.LNK_HP_DROP a] d e ∧ OnlyRegs d e) ∧
      (∀ v, up → whole → view = some v → open_ v → d.protectedView a v = true → (f.secured = false ∨ f.valid = false) → d.fltq.length < 64 → Does (.ethernetFrame a f) s fun e =>
        one e (Reg.LNK_HP_RX a) ∧ one e (Reg.LNK_HP_MACSEC_DROP a) ∧ e.mem = d.mem ∧ e.fab = d.fab ∧
        (if hp.macAt.all (· + 1000 * ms ≤ d.ps) then Recorded d e cSecurity 0x1032 (v + ((hp.macDrops.filter fun t => d.ps < t + 1000 * ms).length + 1) * 2 ^ 16) ∧ (e.hostPort a).macAt = some d.ps else e.fltq = d.fltq)) ∧
      (∀ v, pass v → f.ceQp = none → Does (.ethernetFrame a f) s fun e =>
        one e (Reg.LNK_HP_RX a) ∧ RegsBut [Reg.LNK_HP_RX a] d e ∧ e.mem = d.mem ∧ e.fab = d.fab ∧
        (if bit (d.rf (Reg.LNK_HP_CFG a) Fld.LNK_HP_CFG_PFC_EN) f.prio.toNat = true then sget (fun _ => 0) (e.hostPort a).backlog f.prio.toNat = queue ∧
            (Sent d e (.pfc a f.prio.toNat true) ↔ 0x40000 < queue ∧ f.prio.toNat ∉ hp.xoff)
          else e.hostPort a = hp ∧ e.out = d.out)) ∧
      (∀ v, pass v → f.ceQp = some q → (Does (.ethernetFrame a f) s fun e =>
        one e (Reg.LNK_HP_RX a) ∧ e.mem = d.mem ∧ e.fab = d.fab ∧ (Sent d e (.cnp q) ↔ (d.qp q).cnpTx.all (· + 50 * us ≤ d.ps) = true ∧ paused = false) ∧
        ((d.qp q).cnpTx.all (· + 50 * us ≤ d.ps) = true → one e (Reg.LNK_HP_CNP_TX a) ∧ (e.qp q).cnpTx = some d.ps))) ∧
      (¬ up → Does (.ethernetFrame a f) s (· = d)) ∧
      (∀ (prios : BitVec 8) (quanta : BitVec 16), up → Does (.pauseFrame a prios quanta) s fun e => RegsBut [] d e ∧ e.mem = d.mem ∧ e.out = d.out ∧
        ∀ i, i < 8 → sget (fun _ => 0) (e.hostPort a).pausedTo i = if bit prios.toNat i && bit (d.rf (Reg.LNK_HP_CFG a) Fld.LNK_HP_CFG_PFC_EN) i then d.ps + quanta.toNat * 1280 else sget (fun _ => 0) hp.pausedTo i) ∧
      (d.qpRts q = true → Does (.cnp q) s fun e =>
        one e (Reg.LNK_HP_CNP_RX port) ∧ e.rf (Reg.LNK_QP q 6) Fld.LNK_QP6_RATE = (if (d.qp q).cnpRx.all (· + 50 * us ≤ d.ps) then max 1 (rate / 2) else rate) ∧ (e.qp q).rateAt = d.ps ∧
        RegsBut [Reg.LNK_HP_CNP_RX port, Reg.LNK_QP q 6] d e ∧ e.mem = d.mem) ∧
      (d.qpRts q = true → (d.qp q).rateAt + 55 * us ≤ d.ps → Does (.rateIncreaseTimer q) s fun e => FieldNow d e (Reg.LNK_QP q 6) Fld.LNK_QP6_RATE (min 400 (rate + 5)) ∧ e.mem = d.mem ∧ (e.qp q).rateAt = d.ps) ∧
      (up → hp.lldpAt + 30000 * ms ≤ d.ps → Does (.lldpTimer a) s fun e => e.out = .lldp a (d.viewMac a 0) :: d.out ∧ (e.hostPort a).lldpAt = d.ps ∧ one e (Reg.LNK_HP_TX a) ∧ RegsBut [Reg.LNK_HP_TX a] d e ∧ e.mem = d.mem) ∧
      (∀ (chassis : BitVec 48) (id : BitVec 16), up → Does (.lldpdu a chassis id) s fun e =>
        (e.rd (Reg.LNK_HP_PEER a)).toNat = id.toNat * 2 ^ 48 + chassis.toNat ∧ one e (Reg.LNK_HP_RX a) ∧ RegsBut [Reg.LNK_HP_PEER a, Reg.LNK_HP_RX a] d e ∧ OnlyRegs d e) ∧
      (d.hpRoles a ≠ 0 → d.rf (Reg.LNK_HP_CFG a) Fld.LNK_HP_CFG_DISABLE = 0 → (d.mainOn = true ∨ bit (d.hpRoles a) 2 = true) → Does (.hostPortUp a) s fun e => e.hpState a = 3 ∧ RegsBut [Reg.LNK_HP_STAT a] d e ∧ OnlyRegs d e) ∧
      (d.hpRoles a = 0 → Does (.hostPortUp a) s (· = d)) ∧
      (up → Does (.hostPortDown a) s fun e => e.hpState a = 0 ∧ RegsBut [Reg.LNK_HP_STAT a] d e ∧ OnlyRegs d e)) ∧
  (
    ∀ (s : State) (v : View) (q : QpIdx),
      let d := s.dev
      let st := d.qpState q
      let x := d.qp q
      let own := d.qpInView v q = true
      let goes := fun (n : Nat) (e : Dev) => e.qpState q = n ∧ e.mem = d.mem ∧ e.fab = d.fab ∧ ∀ r, r ≠ q.val → e.qp r = d.qp r
      let error := fun (cause : Nat) (e : Dev) => e.qpState q = 4 ∧ e.rf (Reg.LNK_QP q 0) Fld.LNK_QP0_CAUSE = cause ∧ (e.qp q).reqs = [] ∧ e.fab = d.fab
      let again := fun (e : Dev) => e.qpState q = st ∧ e.mem = d.mem ∧ (e.qp q).reqs = x.reqs.map (fun r => if r.sent then { r with at_ := d.ps, tries := r.tries + 1 } else r) ∧
        e.out.length = d.out.length + if d.mayTransmit q then (x.reqs.filter (·.sent)).length else 0
      let tries := (x.reqs.head?.map (·.tries)).getD 0
      let refused := fun (e : Dev) => (d.fltq.length < 64 → Recorded d e cHostProto 0x1012 q) ∧ RegsBut [Reg.FLT_STAT] d e ∧ e.mem = d.mem ∧ e.hp = d.hp ∧ e.qp q = x
      (d.hostUp (Reg.LNK_QP q 0) = true →
        (st = 0 → own → d.roleAdmits v q = true → Does (.qpToInit v q) s (goes 1)) ∧
        (st = 1 → own → Does (.qpToRtr v q) s (goes 2)) ∧
        (st = 2 → own → Does (.qpToRts v q) s fun e => goes 3 e ∧ e.rf (Reg.LNK_QP q 6) Fld.LNK_QP6_RATE = 400 ∧ (e.qp q).psn = d.rf (Reg.LNK_QP q 1) Fld.LNK_QP1_SQ_PSN) ∧
        (own → Does (.qpToReset v q) s fun e => goes 0 e ∧ e.rf (Reg.LNK_QP q 0) Fld.LNK_QP0_CAUSE = 0 ∧ (e.qp q).reqs = []) ∧
        (own → Does (.qpToError v q) s (error 0)) ∧
        ((st ≠ 0 ∨ ¬ own ∨ d.roleAdmits v q = false) → Does (.qpToInit v q) s refused) ∧
        ((st ≠ 1 ∨ ¬ own) → Does (.qpToRtr v q) s refused) ∧ ((st ≠ 2 ∨ ¬ own) → Does (.qpToRts v q) s refused) ∧
        (¬ own → Does (.qpToReset v q) s refused ∧ Does (.qpToError v q) s refused)) ∧
      (d.qpRts q = true →
        (∀ psn : BitVec 24, Does (.rdmaAck q psn) s fun e =>
          (e.qp q).reqs.filter (fun r => r.op != 1 && r.sent && psnCovered r.psn psn.toNat) = [] ∧
          (e.qp q).reqs.filter (fun r => !(r.sent && psnCovered r.psn psn.toNat)) = x.reqs.filter (fun r => !(r.sent && psnCovered r.psn psn.toNat)) ∧ RegsBut [] d e ∧ e.mem = d.mem ∧ e.out = d.out) ∧
        (tries < d.rf (Reg.LNK_QP q 2) Fld.LNK_QP2_RETRY → Does (.rdmaNak q .sequence) s again) ∧
        (d.rf (Reg.LNK_QP q 2) Fld.LNK_QP2_RETRY ≤ tries → Does (.rdmaNak q .sequence) s (error 1)) ∧
        (tries < d.rf (Reg.LNK_QP q 2) Fld.LNK_QP2_RNR_RETRY → Does (.rdmaNak q .rnr) s again) ∧
        (d.rf (Reg.LNK_QP q 2) Fld.LNK_QP2_RNR_RETRY ≤ tries → Does (.rdmaNak q .rnr) s (error 4)) ∧
        Does (.rdmaNak q .access) s (error 2) ∧ Does (.rdmaNak q .invalid) s (error 3) ∧ Does (.rdmaNak q .operation) s (error 3) ∧
        (∀ r, x.reqs.find? (·.sent) = some r → r.at_ + 4096 * ns * 2 ^ d.rf (Reg.LNK_QP q 2) Fld.LNK_QP2_TIMEOUT ≤ d.ps →
          (r.tries < d.rf (Reg.LNK_QP q 2) Fld.LNK_QP2_RETRY → Does (.rdmaRetryTimeout q) s again) ∧
          (d.rf (Reg.LNK_QP q 2) Fld.LNK_QP2_RETRY ≤ r.tries → Does (.rdmaRetryTimeout q) s (error 1)))))

/-- R5 to R8, R10, R17, R381, R383, R385: what a host access does: bytes of T1 and words of the control space inside the view's regions, in order; nothing
for length 0; a NAK, one record and no change for any other; the NAK of an invalid request for a message of more than 2^31 bytes, and for a READ
beyond the 16 that a queue pair holds; a register write keeps what its access rule says; SENDs reach firmware on MGMT queue pairs only; an answer of a
queue pair whose priority is paused waits at its port; the data of a READ of the Drimar's own goes where it was asked for. It concludes that exec
answers a next state, under conditions on state and operands alone, for: registerWrite, rdmaWrite, rdmaRead, sendMsg, rdmaReadResponse. -/
def Obligations.HostAccesses : Prop :=
  ∀ (s : State) (q : QpIdx) (va : Word) (rkey : BitVec 32),
    let d := s.dev
    let v := d.viewOfQp q
    let answers := d.qpAnswers q = true
    let port := d.rf (Reg.LNK_QP q 0) Fld.LNK_QP0_PORT
    let traffic := [Reg.LNK_QP q 7, Reg.LNK_HP_TX port]
    let puts := fun (e : Dev) (o : Output) => e.out = (if d.mayTransmit q then o :: d.out else d.out) ∧
      (d.mayTransmit q = false → (e.hostPort (d.qpPort q)).waiting = (d.hostPort (d.qpPort q)).waiting ++ [(d.qpPrio q, o)])
    let naked := fun (e : Dev) => puts e (.rdmaNak q .access) ∧ (d.fltq.length < 64 → Recorded d e cHostProto 0x1011 (q + va.toNat % 2 ^ 32 * 2 ^ 16)) ∧
      RegsBut (Reg.FLT_STAT :: traffic) d e ∧ e.mem = d.mem ∧ e.fab = d.fab ∧ e.srv = d.srv
    let invalid := fun (e : Dev) => puts e (.rdmaNak q .invalid) ∧ e.fltq = d.fltq ∧ RegsBut traffic d e ∧ e.mem = d.mem ∧ e.fab = d.fab ∧ e.srv = d.srv
    let waits := (d.srv.held.filter fun h => h.qp == q.val).length
    (∀ data : List Byte, answers → maxMessage < data.length → Does (.rdmaWrite q va rkey data) s invalid) ∧
    (∀ len : BitVec 32, answers → maxMessage < len.toNat → Does (.rdmaRead q va rkey len) s invalid) ∧
    (∀ data : List Byte, answers → data ≠ [] → data.length ≤ maxMessage →
      (d.rdmaRegion v va.toNat rkey.toNat data.length = .t1 → d.imageHit va.toNat data.length = false → Does (.rdmaWrite q va rkey data) s fun e =>
        e.bytes va.toNat data.length = data ∧ BytesBut va.toNat data.length d e ∧ puts e (.rdmaReply q []) ∧ RegsBut traffic d e ∧ e.fab = d.fab) ∧
      (d.rdmaRegion v va.toNat rkey.toNat data.length = .t1 → (∃ i, i < data.length ∧ d.imageHit (va.toNat + i) 1 = true) → d.fltq.length < 64 → Does (.rdmaWrite q va rkey data) s fun e =>
        (∀ i, i < data.length → e.byte (va.toNat + i) = if d.imageHit (va.toNat + i) 1 then d.byte (va.toNat + i) else data.getD i 0) ∧ BytesBut va.toNat data.length d e ∧
        ∃ i, i < data.length ∧ d.imageHit (va.toNat + i) 1 = true ∧ Recorded d e cRo 0x0941 (va.toNat + i)) ∧
      ((d.rdmaRegion v va.toNat rkey.toNat data.length = .none ∨
        (d.rdmaRegion v va.toNat rkey.toNat data.length = .cs ∧ (va.toNat % 8 ≠ 0 ∨ data.length % 8 ≠ 0))) → Does (.rdmaWrite q va rkey data) s naked)) ∧
    (∀ len : BitVec 32, answers → len ≠ 0 → len.toNat ≤ maxMessage →
      (d.rdmaRegion v va.toNat rkey.toNat len.toNat = .t1 → d.applyingFor v = false → Does (.rdmaRead q va rkey len) s fun e => puts e (.rdmaReply q (d.bytes va.toNat len.toNat)) ∧ RegsBut traffic d e ∧ e.mem = d.mem) ∧
      (d.rdmaRegion v va.toNat rkey.toNat len.toNat = .cs → va.toNat % 8 = 0 → len = 8 → d.applyingFor v = false → Does (.rdmaRead q va rkey len) s fun e =>
        puts e (.rdmaReply q (toLe 8 (csRead v (va.toNat - csBase) d).toNat)) ∧ RegsBut traffic d e ∧ e.mem = d.mem) ∧
      (d.rdmaRegion v va.toNat rkey.toNat len.toNat ≠ .none → (d.rdmaRegion v va.toNat rkey.toNat len.toNat = .cs → va.toNat % 8 = 0 ∧ len.toNat % 8 = 0 ∧ len.toNat ≤ 4096) → d.applyingFor v = true →
        (waits < 16 → Does (.rdmaRead q va rkey len) s fun e => e.srv.held = d.srv.held ++ [⟨q, va.toNat, rkey.toNat, len.toNat⟩] ∧ e.out = d.out ∧ RegsBut [] d e ∧ e.mem = d.mem) ∧
        (16 ≤ waits → Does (.rdmaRead q va rkey len) s invalid)) ∧
      ((d.rdmaRegion v va.toNat rkey.toNat len.toNat = .none ∨
        (d.rdmaRegion v va.toNat rkey.toNat len.toNat = .cs ∧ (va.toNat % 8 ≠ 0 ∨ len.toNat % 8 ≠ 0 ∨ 4096 < len.toNat))) → Does (.rdmaRead q va rkey len) s naked)) ∧
    (answers → ∀ i ∈ [Instr.rdmaWrite q va rkey [], .rdmaRead q va rkey 0], Does i s fun e => puts e (.rdmaReply q []) ∧ e.fltq = d.fltq ∧ RegsBut traffic d e ∧ e.mem = d.mem ∧ e.fab = d.fab ∧ e.srv = d.srv) ∧
    (∀ data, answers → Does (.sendMsg q data) s fun e => e.mem = d.mem ∧ e.fab = d.fab ∧
      (if d.rf (Reg.LNK_QP q 0) Fld.LNK_QP0_MGMT = 1 then e.out = .note "SEND" (q.val :: data.map fun (b : Byte) => b.toNat) :: d.out else puts e (.rdmaNak q .invalid))) ∧
    (∀ data r, d.qpRts q = true → ((d.qp q).reqs.find? fun t => t.op == 1 && t.sent) = some r → data.length = r.len → (∀ t ∈ (d.qp q).reqs, t.sent = true) →
      (r.use = .none → Does (.rdmaReadResponse q data) s fun e => (e.qp q).reqs = (d.qp q).reqs.erase r ∧ RegsBut [] d e ∧ e.mem = d.mem ∧ e.srv = d.srv ∧ e.ldr = d.ldr) ∧
      (∀ n, r.use = .prompt n → Does (.rdmaReadResponse q data) s fun e => (e.qp q).reqs = (d.qp q).reqs.erase r ∧ sget (fun _ => []) e.srv.prompts n = le32s data ∧ RegsBut [] d e ∧ e.mem = d.mem) ∧
      (∀ n, r.use = .ringHead n → d.partOfReq n = none → Does (.rdmaReadResponse q data) s fun e => sget (fun _ => 0) e.srv.heads n = leNat data ∧ RegsBut [] d e ∧ e.mem = d.mem)) ∧
    (∀ (w : View) (off : BitVec 28) (val : Word),
      (off.toNat % 8 = 0 → (regAt off.toNat = none ∨ d.hostUp off.toNat = false ∨ ∃ r, regAt off.toNat = some r ∧ r.1.access = .ro) → Does (.registerWrite w off val) s (· = d)) ∧
      (∀ r ix p, off.toNat % 8 = 0 → regAt off.toNat = some (r, ix) → r.access = .rwl → d.regOwner r.base (ix.headD 0) = .part p → d.sealed p = true → d.hostUp off.toNat = true → d.fltq.length < 64 →
        Does (.registerWrite w off val) s fun e => Recorded d e cSecurity 0x0E21 (off.toNat + w * 2 ^ 32) ∧ e = { d with fltq := e.fltq }) ∧
      (let z := d.draw.toNat % 4096
       off.toNat % 8 ≠ 0 → d.fltq.length < 64 → Does (.registerWrite w off val) s fun e =>
          Recorded d e cHostProto 0x1011 (z + (csBase + off.toNat) % 2 ^ 32 * 2 ^ 16) ∧ e.out = (if d.viewOfQp z = w ∧ d.qpAnswers z = true ∧ d.mayTransmit z = true then .rdmaNak z .access :: d.out else d.out) ∧
          RegsButTraffic [Reg.FLT_STAT] d e ∧ e.mem = d.mem ∧ e.fab = d.fab ∧ e.srv = d.srv) ∧
      (∀ p : PartIdx, d.sealed p = false → (w.val = 0 ∨ w.val = p.val + 1) → ∀ z ∈ [(Reg.MOLT_IMG_ADDR p, 0xFFFFFFFFFFFF), (Reg.MOLT_PLACE_ADDR p, 0xFFFFFFFFFFFF), (Reg.STEP_BLK p, 0xFFFFFFFFFFFF),
          (Reg.STEP_BLK_T1 p, 0xFFFFFFFFFFFF), (Reg.STEP_EVT_CFG p, 0xFFFFFFFF0FFF001F), (Reg.STEP_PFX_ARG p, 0xFFFFFFFFFFFFFFFF)],
        off.toNat = z.1 → d.hostUp z.1 = true → Does (.registerWrite w off val) s fun e =>
          e.rd z.1 = (d.rd z.1 &&& ~~~(BitVec.ofNat 64 z.2)) ||| (val &&& BitVec.ofNat 64 z.2) ∧ RegsBut [z.1] d e ∧ OnlyRegs d e) ∧
      (w.val = 0 → ∀ z ∈ [(Reg.BOOT_FW_SRC, 0xFFFFFFFFFFFF), (Reg.BOOT_FW_LEN, 0xFFFFFF), (Reg.CLK_MON_CTL, 3), (Reg.TIME_CFG, 0xFFFFFFFF), (Reg.BIST_CTL, 1), (Reg.MEM_PATROL_CTL, 1)],
        off.toNat = z.1 → d.hostUp z.1 = true → Does (.registerWrite w off val) s fun e =>
          e.rd z.1 = (d.rd z.1 &&& ~~~(BitVec.ofNat 64 z.2)) ||| (val &&& BitVec.ofNat 64 z.2) ∧ RegsBut [z.1] d e ∧ OnlyRegs d e))

/-! ### Clocks and comb power states (chapter 13) -/

/-- R393, R396 to R401: the loss of CLKIN resets the device and holds it until CLKIN returns; a PLL's lock asks for its multiplexer; a switch not done in
100 µs, and a domain off its target, is recorded, and the domain is reset; a domain reset empties a comb and aborts the step that uses it, or restarts
the device; the frequency counter takes one measurement at a time and yields to the monitor. R402 to R404: after RET_US without a runnable context the
combs of a partition begin to enter RET, and after OFF_MS in RET to enter OFF; RET keeps what a comb holds, OFF loses it; a wake that waited follows;
a wake ends in IDLE, from OFF only once the PLL has locked. It concludes that exec answers a next state, under conditions on state and operands alone,
for: clkinLoss, clkinReturn, pllLock, muxHang, domainReset, fcMeasure, fcDone, monitorPoll, combRetEntry, combOffEntry, combTransitionDone,
combWakeDone, monitorPollEnd. -/
def Obligations.ClocksAndCombStates : Prop :=
  (
    ∀ (s : State) (k : DomIdx) (v : View),
      let d := s.dev
      let whole := d.pwr.trip = false ∧ d.chrysalis = false
      let pll := fun (e : Dev) f => e.rf (Reg.CLK_PLL_STAT k) f
      let mux := fun (e : Dev) f => e.rf (Reg.CLK_MUX_STAT k) f
      let res := fun (e : Dev) f => e.rf Reg.CLK_FC_RES f
      let hung := fun (e : Dev) => mux e Fld.CLK_MUX_STAT_HANG = 1 ∧ mux e Fld.CLK_MUX_STAT_SWITCHING = 0 ∧ mux e Fld.CLK_MUX_STAT_SEL = 2
      let still := fun (e : Dev) => e.mem = d.mem ∧ e.fab = d.fab ∧ e.srv = d.srv
      (d.clk.lost = false → d.boot.pgAon = true → whole → Does .clkinLoss s fun e => Restarted d e 4 ∧ e.boot.held = true ∧ e.clk.lost = true ∧ e.rf Reg.CLK_IN_STAT Fld.CLK_IN_STAT_INTOSC = 1 ∧
        e.rf Reg.CLK_IN_STAT Fld.CLK_IN_STAT_PRESENT = 0 ∧ e.rf Reg.CLK_IN_STAT Fld.CLK_IN_STAT_LOSSES = satAdd 16 (d.rf Reg.CLK_IN_STAT Fld.CLK_IN_STAT_LOSSES) 1) ∧
      (d.clk.lost = true → Does .clkinReturn s fun e => e.clk.lost = false ∧ e.boot.held = false ∧ e.rf Reg.CLK_IN_STAT Fld.CLK_IN_STAT_INTOSC = 0 ∧ e.rf Reg.CLK_IN_STAT Fld.CLK_IN_STAT_PRESENT = 1 ∧
        RegsBut [Reg.CLK_IN_STAT] d e ∧ still e ∧ (d.boot.held = true → e.boot.stageAt = d.ps)) ∧
      (pll d Fld.CLK_PLL_STAT_ON = 1 → pll d Fld.CLK_PLL_STAT_LOCK = 0 → Does (.pllLock k) s fun e => pll e Fld.CLK_PLL_STAT_LOCK = 1 ∧ pll e Fld.CLK_PLL_STAT_CUR_MHZ = pll d Fld.CLK_PLL_STAT_TARGET_MHZ ∧
        mux e Fld.CLK_MUX_STAT_SWITCHING = 1 ∧ sget (fun _ => none) e.clk.muxReq k = some (if d.wakingFrom k = some 0 then d.ps + 40960 * ns else d.ps) ∧ RegsBut [Reg.CLK_PLL_STAT k, Reg.CLK_MUX_STAT k, Reg.CLK_FC_RES] d e ∧ still e) ∧
      (∀ t, sget (fun _ => none) d.clk.muxReq k = some t → t + 100 * us ≤ d.ps → d.fltq.length < 64 →
        (d.ready = false → Does (.muxHang k) s fun e => hung e ∧ Recorded d e cClkMux 0x1101 k ∧ e.rf Reg.BOOT_FAIL Fld.BOOT_FAIL_CODE = 8 ∧ e.boot.backoffAt = some (d.ps + backoffS d.attemptNo * second)) ∧
        (d.ready = true → k.val < 16 → d.partOfComb k = none → d.rf Reg.CLK_MON_CTL Fld.CLK_MON_CTL_AUTO_COMB = 0 → Does (.muxHang k) s fun e =>
          hung e ∧ Recorded d e cClkMux 0x1101 k ∧ RegsBut [Reg.CLK_MUX_STAT k] d e ∧ still e) ∧
        (∀ p (c : CtxIdx), d.ready = true → k.val < 16 → d.partOfComb k = some p → d.curCtx p = some c.val → d.executing c = true → (d.att c).decided = false → (d.att c).acked = false →
          d.rf Reg.CLK_MON_CTL Fld.CLK_MON_CTL_AUTO_COMB = 0 → Does (.muxHang k) s fun e => hung e ∧ Recorded d e cClkMux 0x1101 k ∧
            (d.usesComb p k = true → Aborted d e p c cClkMux 0x1101 true d.pos) ∧ (d.usesComb p k = false → e.phase c = d.phase c ∧ RegsBut [Reg.CLK_MUX_STAT k] d e ∧ still e)) ∧
        (d.ready = true → 16 ≤ k.val → whole → Does (.muxHang k) s fun e => Restarted d e 5 ∧ Recorded d e cClkMux 0x1101 k)) ∧
      (v.val = 0 → d.hostUp Reg.CLK_DRST = true →
        (k.val < 16 → d.ownerOf k = none → Does (.domainReset v k) s fun e => e.combPs k = 0 ∧ CombLost e k ∧ CombsAsBefore d e k ∧ RegsBut [Reg.CLK_COMB_PS k, Reg.CLK_MUX_STAT k, Reg.CLK_PLL_STAT k] d e) ∧
        (∀ p (c : CtxIdx), k.val < 16 → d.ownerOf k = some p → d.curCtx p = some c.val → d.executing c = true → (d.att c).decided = false → (d.att c).acked = false → Does (.domainReset v k) s fun e =>
          e.combPs k = 0 ∧ CombLost e k ∧ e.phase c = (if d.usesComb p k then phAbort else d.phase c) ∧ e.wakingFrom k = some 0 ∧ pll e Fld.CLK_PLL_STAT_ON = 1 ∧ e.rf (Reg.MOLT_STAT p) Fld.MOLT_STAT_SHADOW_VALID = 0) ∧
        (16 ≤ k.val → whole → Does (.domainReset v k) s fun e => Restarted d e 5)) ∧
      (v.val ≠ 0 → Does (.domainReset v k) s (· = d)) ∧
      (∀ w : Word, d.hostUp Reg.CLK_FC_CMD = true →
        let bad := 59 ≤ fget w Fld.CLK_FC_CMD_SRC ∨ 59 ≤ fget w Fld.CLK_FC_CMD_REF ∨ fget w Fld.CLK_FC_CMD_K < 8 ∨ 24 < fget w Fld.CLK_FC_CMD_K
        (d.counterHeld = true → Does (.fcMeasure v w) s fun e => FieldNow d e Reg.CLK_FC_RES Fld.CLK_FC_RES_STATUS 3 ∧ OnlyRegs d e) ∧
        (d.counterHeld = false → d.clk.fc ≠ none → Does (.fcMeasure v w) s (· = d)) ∧
        (d.counterHeld = false → d.clk.fc = none → bad → Does (.fcMeasure v w) s fun e => res e Fld.CLK_FC_RES_STATUS = 4 ∧ RegsBut [Reg.CLK_FC_CMD, Reg.CLK_FC_RES] d e ∧ OnlyRegs d e) ∧
        (d.counterHeld = false → d.clk.fc = none → ¬ bad → Does (.fcMeasure v w) s fun e => res e Fld.CLK_FC_RES_STATUS = 1 ∧ res e Fld.CLK_FC_RES_PAUSES = 0 ∧ e.rd Reg.CLK_FC_CMD = (w &&& 0x1FFFF) ∧ e.clk.fc = some false ∧
          RegsBut [Reg.CLK_FC_CMD, Reg.CLK_FC_RES] d e ∧ still e)) ∧
      (∀ n : BitVec 48, d.clk.fc = some false → Does (.fcDone n) s fun e => res e Fld.CLK_FC_RES_STATUS = 2 ∧ res e Fld.CLK_FC_RES_COUNT = n.toNat ∧ res e Fld.CLK_FC_RES_PAUSES = res d Fld.CLK_FC_RES_PAUSES ∧
        e.clk.fc = none ∧ RegsBut [Reg.CLK_FC_RES] d e ∧ still e) ∧
      (d.rf Reg.CLK_MON_CTL Fld.CLK_MON_CTL_ENABLE = 1 → d.counterHeld = false → d.boot.pgAon = true → d.boot.held = false → d.clk.monAt + 10 * ms ≤ d.ps → Does .monitorPoll s fun e =>
        e.clk.monHolds = true ∧ e.clk.monAt = d.ps ∧ still e ∧ RegsBut [Reg.CLK_FC_RES] d e ∧
        (d.clk.fc = some false → e.clk.fc = some true ∧ res e Fld.CLK_FC_RES_PAUSES = satAdd 5 (res d Fld.CLK_FC_RES_PAUSES) 1)) ∧
      (∀ counts : List (BitVec 48), d.clk.monHolds = true →
        (d.offDomains counts = [] → Does (.monitorPollEnd counts) s fun e => e.clk.monHolds = false ∧ e.rf Reg.CLK_MON_STAT Fld.CLK_MON_STAT_DEV = 0 ∧
          e.rf Reg.CLK_MON_STAT Fld.CLK_MON_STAT_POLLS = satAdd 16 (d.rf Reg.CLK_MON_STAT Fld.CLK_MON_STAT_POLLS) 1 ∧ RegsBut [Reg.CLK_MON_STAT] d e ∧ still e ∧
          (d.confirming = [] → d.clk.fc ≠ none → e.clk.fc = some false)) ∧
        (d.offDomains counts = [k.val] → d.ready = true → k.val < 16 → d.partOfComb k = none → d.rf Reg.CLK_MON_CTL Fld.CLK_MON_CTL_AUTO_COMB = 0 → d.fltq.length < 64 → Does (.monitorPollEnd counts) s fun e =>
          hung e ∧ e.rf Reg.CLK_MON_STAT Fld.CLK_MON_STAT_DEV = 2 ^ k.val ∧ Recorded d e cClkMux 0x1102 (k + nthNat counts k % 2 ^ 32 * 2 ^ 16)))) ∧
  (
    ∀ (s : State) (p : PartIdx) (k : CombIdx),
      let d := s.dev
      let ps := fun (e : Dev) f => e.rf (Reg.CLK_COMB_PS k) f
      let others := fun (e : Dev) => (∀ o, (∀ m, o ≠ Reg.CLK_COMB_PS m) → e.rd o = d.rd o) ∧ e.mem = d.mem ∧ e.fab = d.fab
      let begins := fun (t : Nat) (e : Dev) => e.enteringTo k = some t ∧ ps e Fld.CLK_COMB_PS_MOVING = 1 ∧ ps e Fld.CLK_COMB_PS_STATE = ps d Fld.CLK_COMB_PS_STATE ∧ others e
      let ret := d.rf (Reg.CLK_SLEEP p) Fld.CLK_SLEEP_RET_US
      let off := d.rf (Reg.CLK_SLEEP p) Fld.CLK_SLEEP_OFF_MS
      (∀ t, sget (fun _ => none) d.clk.idleSince p = some t → d.maySleep p = true → ret ≠ 0 → t + ret * us ≤ d.ps → k.val ∈ d.partCombs p → 2 ≤ d.combPs k → d.enteringTo k = none → d.wakingFrom k = none →
        Does (.combRetEntry p) s (begins 1)) ∧
      (d.maySleep p = false → Does (.combRetEntry p) s (· = d) ∧ Does (.combOffEntry p) s (· = d)) ∧
      (∀ t, sget (fun _ => none) d.clk.retSince p = some t → d.maySleep p = true → off ≠ 0 → t + off * ms ≤ d.ps → k.val ∈ d.partCombs p → d.combPs k = 1 → d.enteringTo k = none → d.wakingFrom k = none →
        Does (.combOffEntry p) s (begins 0)) ∧
      (d.enteringTo k = some 1 → k.val ∉ d.clk.wakeNext → Does (.combTransitionDone k) s fun e => e.combPs k = 1 ∧ ps e Fld.CLK_COMB_PS_MOVING = 0 ∧ e.enteringTo k = none ∧ others e) ∧
      (d.enteringTo k = some 0 → k.val ∉ d.clk.wakeNext → Does (.combTransitionDone k) s fun e => e.combPs k = 0 ∧ ps e Fld.CLK_COMB_PS_MOVING = 0 ∧ e.enteringTo k = none ∧ CombLost e k ∧ CombsAsBefore d e k) ∧
      (∀ t, t < 2 → d.enteringTo k = some t → k.val ∈ d.clk.wakeNext → d.wakingFrom k = none → Does (.combTransitionDone k) s fun e =>
        e.combPs k = t ∧ ps e Fld.CLK_COMB_PS_MOVING = 1 ∧ e.enteringTo k = none ∧ e.wakingFrom k = some t) ∧
      (∀ t, d.wakingFrom k = some t → (t ≠ 0 ∨ d.pllConfirmed k = true) →
        (Does (.combWakeDone k) s fun e => e.combPs k = 2 ∧ ps e Fld.CLK_COMB_PS_MOVING = 0 ∧ ps e Fld.CLK_COMB_PS_WAKES = satAdd 32 (ps d Fld.CLK_COMB_PS_WAKES) 1 ∧ e.wakingFrom k = none) ∧
        (d.ownerOf k = none → Does (.combWakeDone k) s fun e => e.fab = d.fab ∧ e.mem = d.mem)) ∧
      (d.wakingFrom k = some 0 → d.pllConfirmed k = false → Does (.combWakeDone k) s (· = d)))

/-! ### System time (chapter 13) -/

/-- R406 to R414: a device asks its neighbours, its lead and the swarm master for the time at its period and answers their requests; a reply that answers
no request changes nothing; the lead's reply gives the brood offset, and with role BROOD steps SYSTIME the first time and slews it from then on; 3 ms
without the parent is HOLDOVER; RESYNC; the time of day. It concludes that exec answers a next state, under conditions on state and operands alone,
for: fireflySendTimer, fireflyRequest, fireflyReply, parentTimeout, resync, ptpMessage. -/
def Obligations.TimeIsExchanged : Prop :=
  ∀ (s : State) (a : RingIdx) (x : RingFrame) (y : FrPkt) (v : View),
    let d := s.dev
    let still := fun (e : Dev) => e.mem = d.mem ∧ e.fab = d.fab ∧ e.srv = d.srv
    let f := fireflyOf y.payload
    let offset : Int := ((f.t2 : Int) - f.t1) - ((d.time16 : Int) - f.t3)
    let asked := fun (path : Nat) (e : Dev) => ∃ r ∈ e.tim.sent, r.path = path ∧ r.seq = d.tim.nextSeq % 65536 ∧ r.t1 = d.sysTime.toNat
    d.tim.frac < 2 ^ 40 →
    (∀ last, last = sget (fun _ => 0) d.tim.reqAt 1 → d.inserted = true → last + ms ≤ d.ps → Does (.fireflySendTimer 1) s fun e => sget (fun _ => 0) e.tim.reqAt 1 = d.ps ∧ RegsBut [Reg.TIME_STAT] d e ∧ still e ∧
      ∀ b : RingIdx, d.ringState b = rUp → ∃ z, Sent d e (.ring b 0x30 z) ∧ byteAt z.payload 0 = 1 ∧ byteAt z.payload 1 = 1 ∧ leAt z.payload 8 8 = d.sysTime.toNat) ∧
    (∀ q, d.formed = true → d.isLead = false → sget (fun _ => 0) d.tim.reqAt 0 + 100 * us ≤ d.ps → d.lnk.lead = some q → Does (.fireflySendTimer 0) s fun e => sget (fun _ => 0) e.tim.reqAt 0 = d.ps ∧ asked 2 e ∧ e.mem = d.mem) ∧
    (∀ n, d.role = 3 → d.colonyMaster = true → d.swarmMaster = false → sget (fun _ => 0) d.tim.reqAt 2 + 10 * ms ≤ d.ps → d.swarmNode = some n → Does (.fireflySendTimer 2) s fun e =>
      sget (fun _ => 0) e.tim.reqAt 2 = d.ps ∧ asked 3 e ∧ e.mem = d.mem) ∧
    (ringWhole 0x30 x = true → d.ringState a = rUp → Does (.fireflyRequest (.ring a x)) s fun e => (∃ z, Sent d e (.ring a 0x30 z) ∧ byteAt z.payload 0 = 2 ∧ leAt z.payload 2 2 = leAt x.payload 2 2 ∧
      leAt z.payload 8 8 = leAt x.payload 8 8 ∧ leAt z.payload 16 8 = d.sysTime.toNat ∧ leAt z.payload 24 8 = d.sysTime.toNat) ∧ RegsBut [] d e ∧ e.tim = d.tim ∧ still e) ∧
    (frOk 0x61 y = false → ∀ i ∈ [Instr.fireflyRequest (.frarax y), .fireflyReply (.frarax y)], Does i s fun e => FieldNow d e Reg.LNK_BADPKT cnt48 (satAdd 48 (d.rf Reg.LNK_BADPKT cnt48) 1) ∧ OnlyRegs d e) ∧
    (frOk 0x61 y = true → (∀ r ∈ d.tim.sent, ¬ (r.seq = f.seq ∧ r.t1 * 65536 + r.t1f = f.t1)) → Does (.fireflyReply (.frarax y)) s (· = d)) ∧
    (∀ r, frOk 0x61 y = true → f.scope = 0 → (d.tim.sent.find? fun z => z.path == 2 && z.seq == f.seq && z.t1 * 65536 + z.t1f == f.t1) = some r →
      Does (.fireflyReply (.frarax y)) s fun e => e.rd Reg.TIME_BROOD_OFS = BitVec.ofInt 64 (-(offset * 800 / 2 ^ 17)) ∧ e.tim.sent = d.tim.sent.erase r ∧ still e ∧
        (d.role ≠ 1 → RegsBut [Reg.TIME_BROOD_OFS] d e ∧ e.tim.slew = d.tim.slew) ∧
        (d.role = 1 → e.timeState = 2 ∧ e.rf Reg.TIME_STAT Fld.TIME_STAT_PARENT = 3 ∧
          (d.tim.accepted = true → d.rd Reg.TIME_CTL = 0 → e.sysTime = d.sysTime ∧ e.tim.slew = offset * 2 ^ 23) ∧
          (d.tim.accepted = false → e.tim.accepted = true ∧ e.tim.slew = 0 ∧ e.sysTime = BitVec.ofNat 64 (((d.time16 : Int) * 2 + offset).toNat / 2 ^ 17)))) ∧
    (d.timeState = 2 → 1 ≤ d.role → d.colonyMaster = false → (d.tim.colonyAt + 3 * ms ≤ d.ps → Does .parentTimeout s fun e => e.timeState = 3 ∧ RegsBut [Reg.TIME_STAT] d e ∧ still e) ∧
      (d.ps < d.tim.colonyAt + 3 * ms → Does .parentTimeout s (· = d))) ∧
    (v.val = 0 → d.hostUp Reg.TIME_CTL = true → (d.noParent = false → Does (.resync v) s fun e => e.rd Reg.TIME_CTL = 1 ∧ RegsBut [Reg.TIME_CTL] d e ∧ OnlyRegs d e) ∧ (d.noParent = true → Does (.resync v) s (· = d))) ∧
    (∀ (h : HostPort) (tod : Word), bit (d.hpRoles h) 2 = true → d.hpState h = 3 → Does (.ptpMessage h tod) s fun e => e.rd Reg.TIME_TOD_OFS = tod - BitVec.ofNat 64 (d.sysTime.toNat * 4 / 5) ∧ RegsBut [Reg.TIME_TOD_OFS] d e ∧ OnlyRegs d e)

/-! ### Launches (chapters 5 and 13) -/

/-- R165, R166, R415, R416: arming a slot: a foreign or live slot is refused, the first failing check refuses the launch, a slot that passes is READY;
CANCEL ends a live slot and stores its fields on any other; verdicts that arrive count, refuse or are kept until their T; the shadow load, its
pre-wake noted while a slice holds the step gap; the guard check at T − G, which refuses the launch or holds a timed molt. R166, R417, R418: a slot
that passed its guard fires at T, with its action: the shadow becomes active, under MODEL_SWITCH with the context's new handle; the context's attempt
starts, or is owed while another holds the partition, and not when its loop is stopped; the named combs move; SQ.LAUNCH returns. It concludes that
exec answers a next state, under conditions on state and operands alone, for: launchArm, launchCancel, launchRefuse, verdictExpiry, launchPreload,
launchGuard, launchMolt, launchStepStart, launchCollective, launchPowerState, launchModelSwitch. -/
def Obligations.LaunchesAreArmedAndFire : Prop :=
  (
    ∀ (s : State) (v : View) (n : SlotIdx) (w : Word),
      let d := s.dev
      let up := d.hostUp (Reg.TIME_LAUNCH_ACT n) = true
      let named := some (fget w Fld.TIME_LAUNCH_ACT_PART)
      let a := armedDev d n w
      let kept := d.tim.kept.filter fun z => z.id == a.slotId n && a.slotScope n != 0
      let refusal := fun (cause : Nat) (e : Dev) => Recorded d e cHostProto cause n ∧ e = { d with fltq := e.fltq }
      let st := d.slotState n
      let p := d.slotPart n
      let t := d.slotTarget n
      (up → d.fltq.length < 64 →
        (d.slotForeign v n named = true → Does (.launchArm v n w) s (refusal 0x1131) ∧ Does (.launchCancel v n w) s (refusal 0x1131)) ∧
        (d.slotForeign v n named = false → d.slotLiveAt n = true → Does (.launchArm v n w) s (refusal 0x1133)) ∧
        (∀ cls cause detail, d.slotForeign v n named = false → d.slotLiveAt n = false → kept = [] → a.armCheck n = some (cls, cause, detail) → Does (.launchArm v n w) s fun e =>
          SlotRefused e n cls cause d.node ∧ (a.slotScope n = 0 → Recorded d e cls cause detail)) ∧
        (∀ z, d.slotForeign v n named = false → d.slotLiveAt n = false → kept = [z] → z.ready = false → Does (.launchArm v n w) s fun e =>
          SlotRefused e n (z.cls % 256) (z.cause % 65536) z.origin ∧ z ∉ e.tim.kept)) ∧
      (up → d.slotForeign v n named = false → d.slotLiveAt n = false → kept = [] → a.armCheck n = none → a.slotScope n = 0 → Does (.launchArm v n w) s fun e =>
        e.slotState n = lsReady ∧ (e.launchSt n).nodes = [d.node] ∧ (e.launchSt n).guarded = false ∧ e.rd (Reg.TIME_LAUNCH_ACT n) = (w &&& actMask) ∧ e.fltq = d.fltq ∧
        RegsBut [Reg.TIME_LAUNCH_ACT n, Reg.TIME_LAUNCH_STAT n] d e ∧ e.mem = d.mem ∧ e.fab = d.fab) ∧
      (up → d.slotForeign v n named = false → d.slotScope n = 0 → timedMoltAct (d.slotAction n) = false → (st = lsArmed ∨ st = lsReady) → Does (.launchCancel v n w) s fun e =>
        e.slotState n = lsCancelled ∧ (∀ g, Apart Fld.TIME_LAUNCH_STAT_STATE g → e.rf (Reg.TIME_LAUNCH_STAT n) g = d.rf (Reg.TIME_LAUNCH_STAT n) g) ∧
        RegsBut (Reg.TIME_LAUNCH_STAT n :: schedStats) d e ∧ e.mem = d.mem ∧ e.fab = d.fab ∧ e.tim = d.tim) ∧
      (up → d.slotForeign v n named = false → slotLive st = false → Does (.launchCancel v n w) s fun e =>
        e.rd (Reg.TIME_LAUNCH_ACT n) = (w &&& actMask) ∧ RegsBut [Reg.TIME_LAUNCH_ACT n] d e ∧ OnlyRegs d e) ∧
      (up → d.slotForeign v n named = false → d.slotScope n ≠ 0 → slotLive st = true → d.sysTime.toNat < d.slotGuard n → Does (.launchCancel v n w) s fun e =>
        e.slotState n = lsCancelled ∧ ∃ z ∈ (e.launchSt n).refused, z.ready = false ∧ z.cause = 0x1125 ∧ z.origin = d.node) ∧
      (up → d.slotForeign v n named = false → d.slotScope n ≠ 0 → slotLive st = true → d.slotGuard n ≤ d.sysTime.toNat → d.fltq.length < 64 → Does (.launchCancel v n w) s (refusal 0x1132)) ∧
      (∀ x, inTurn d 0x60 x = true →
        let z := verdictOf x.payload
        let slot := (List.range 32).find? fun m => d.slotLiveAt m && d.slotScope m != 0 && d.slotId m == z.id
        (∀ m, slot = some m → z.ready = true → Does (.launchRefuse x) s fun e => Heard d e x ∧ (e.launchSt m).ready = z.origin :: (d.launchSt m).ready ∧ e.fltq = d.fltq ∧ RegsBut [] d e) ∧
        (∀ m, slot = some m → z.ready = false → d.fltq.length < 64 → Does (.launchRefuse x) s fun e => Heard d e x ∧ SlotRefused e m z.cls z.cause z.origin ∧ Recorded d e z.cls z.cause (m + z.origin % 2 ^ 18 * 2 ^ 32)) ∧
        (slot = none → Does (.launchRefuse x) s fun e => Heard d e x ∧ e.tim.kept = (if d.tim.kept.length < 256 ∧ d.sysTime.toNat < z.t then d.tim.kept ++ [z] else d.tim.kept) ∧ RegsBut [] d e)) ∧
      Does .verdictExpiry s (fun e => e.tim.kept = d.tim.kept.filter (fun z => d.sysTime.toNat < z.t) ∧ RegsBut [] d e ∧ e.mem = d.mem ∧ e.fab = d.fab) ∧
      (d.slotLiveAt n = true → timedMoltAct (d.slotAction n) = true → d.slotT n ≤ d.sysTime.toNat + guardOf (d.slotScope n) + preloadTicks →
        (d.sliceOn p = true → Does (.launchPreload n) s fun e => (∀ k, k ∈ e.bist.prewake ↔ k ∈ d.bist.prewake ∨ k ∈ d.partCombs p) ∧ e = { d with bist := e.bist }) ∧
        (∀ k : CombIdx, d.sliceOn p = false → k.val ∈ d.partCombs p → d.combPs k < 2 → d.enteringTo k = none → d.wakingFrom k = none → Does (.launchPreload n) s fun e =>
          e.wakingFrom k = some (d.combPs k) ∧ e.rf (Reg.CLK_COMB_PS k) Fld.CLK_COMB_PS_MOVING = 1 ∧ e.mem = d.mem ∧ e.fab = d.fab) ∧
        (∀ i, d.combsAwake p = true → d.sliceOn p = false → d.shadowHolds p t.1 t.2 = false → d.img? p t.1 = some i → d.badWalk i (d.instarRecs i t.2) = none →
          (∀ m, m < 32 → m ≠ n.val → d.slotLiveAt m = true → d.slotPart m = p → timedMoltAct (d.slotAction m) = false) →
          (∀ w ∈ instarWrites d i t.2, ∀ q ∈ cfgPackets w.1 ((d.rf (Reg.MOLT_STAT p) Fld.MOLT_STAT_GEN + 1) % 256) w.2, enters d q.src q = true) → Does (.launchPreload n) s fun e =>
          e.rf (Reg.MOLT_STAT p) Fld.MOLT_STAT_SHADOW_INSTAR = t.2 ∧ e.rf (Reg.MOLT_STAT p) Fld.MOLT_STAT_SHADOW_HANDLE = t.1 % 16 ∧
          e.moltState p = (if (instarWrites d i t.2).all (fun z => z.2.isEmpty) then mLoaded else mLoading))) ∧
      ((d.launchSt n).guarded = false → slotLive st = true → d.slotGuard n ≤ d.sysTime.toNat →
        (d.guardCheck n = none → timedMoltAct (d.slotAction n) = true → Does (.launchGuard n) s fun e =>
          e.slotState n = lsHeld ∧ e.moltState p = mHeld ∧ (e.molt p).held = some n.val ∧ (e.launchSt n).guarded = true) ∧
        (d.guardCheck n = none → timedMoltAct (d.slotAction n) = false → Does (.launchGuard n) s fun e => e.slotState n = st ∧ (e.launchSt n).guarded = true) ∧
        (∀ cls cause detail, d.guardCheck n = some (cls, cause, detail) → Does (.launchGuard n) s fun e => SlotRefused e n cls cause d.node))) ∧
  (
    ∀ (s : State) (n : SlotIdx),
      let d := s.dev
      let p := d.slotPart n
      let c := d.slotCtx n
      let due := fun a st => d.slotAction n = a ∧ d.slotState n = st ∧ (d.launchSt n).guarded = true ∧ d.timeCome n = true
      let h := d.rf (Reg.MOLT_STAT p) Fld.MOLT_STAT_SHADOW_HANDLE
      let flipped := fun (i : Img) (e : Dev) => Fired d e n ∧ e.moltState p = mFlipping ∧ e.rf (Reg.MOLT_STAT p) Fld.MOLT_STAT_ACTIVE_INSTAR = d.rf (Reg.MOLT_STAT p) Fld.MOLT_STAT_SHADOW_INSTAR ∧
        e.rf (Reg.MOLT_STAT p) Fld.MOLT_STAT_ACTIVE_HANDLE = h ∧ e.rf (Reg.MOLT_STAT p) Fld.MOLT_STAT_GEN = (d.rf (Reg.MOLT_STAT p) Fld.MOLT_STAT_GEN + 1) % 256 ∧
        ∀ x ∈ d.footCells i, (e.cell x).active = (d.cell x).shadow ∧ (e.cell x).gen = (d.cell x).gen + 1
      let sound := fun (i : Img) => d.img? p h = some i ∧ (d.footCells i).Nodup ∧ (∀ x ∈ d.footCells i, x < 8192) ∧ (d.molt p).held = some n.val ∧ d.genRested p = true
      let combs := fun k => bit (d.slotAct n Fld.TIME_LAUNCH_ACT_COMBS) k = true ∧ k ∈ d.partCombs p
      (∀ i, due laMolt lsHeld → sound i → d.activeHandle p = some (16 * p + h) → Does (.launchMolt n) s (flipped i)) ∧
      (∀ i, due laModel lsHeld → sound i → d.activeHandle p = some (16 * p + h) → Does (.launchModelSwitch n) s fun e =>
        flipped i e ∧ e.rf (Reg.SCHED_CTX c) Fld.SCHED_CTX_HANDLE = d.slotAct n Fld.TIME_LAUNCH_ACT_HANDLE) ∧
      (∀ q ∈ [(laStart, Instr.launchStepStart n), (laColl, .launchCollective n)], due q.1 lsReady →
        (d.loopState c ≠ lpRunning → d.loopState c ≠ lpStopping → Does q.2 s fun e => Fired d e n ∧ FieldNow d e (Reg.TIME_LAUNCH_STAT n) Fld.TIME_LAUNCH_STAT_STATE lsFired ∧ e.mem = d.mem ∧ (e.launchSt n).owed = (d.launchSt n).owed) ∧
        ((d.loopState c = lpRunning ∨ d.loopState c = lpStopping) → d.attemptIn p = true → d.partOfCtx c = some p → Does q.2 s fun e => Fired d e n ∧ (e.launchSt n).owed = true ∧ e.mem = d.mem) ∧
        (∀ g i,
          let f := (d.setSlotState n lsFired).releaseLaunch n
          let z := opStepBoundary p ((f.setLaunchSt n { d.launchSt n with owed := true }).checkPreempt p)
          (d.loopState c = lpRunning ∨ d.loopState c = lpStopping) → z.partOfCtx c = some p → z.geo p c = some g → z.ctxImg p c = some i → z.mayStart p c = true → z.emptyDue p c = false → z.memberCtx c = false → z.owedSlot p c = some n.val →
          (z.att c).pendStart = none → (z.att c).pend = none → z.hasPrev c = false → z.ldr.ecc = [] → Does q.2 s fun e =>
            e.phase c = phExecute ∧ e.curCtx p = some c ∧ (e.att c).launchT = some (d.slotT n) ∧ (e.launchSt n).owed = false)) ∧
      (due laPower lsReady → ∀ k : CombIdx, combs k.val → d.enteringTo k = none → d.wakingFrom k = none →
        (2 ≤ d.slotAct n Fld.TIME_LAUNCH_ACT_PSTATE → d.sliceOn p = false → d.combPs k < 2 → Does (.launchPowerState n) s fun e => Fired d e n ∧ e.wakingFrom k = some (d.combPs k) ∧ e.mem = d.mem) ∧
        (d.slotAct n Fld.TIME_LAUNCH_ACT_PSTATE < d.combPs k → d.slotAct n Fld.TIME_LAUNCH_ACT_PSTATE < 2 → d.maySleep p = true → Does (.launchPowerState n) s fun e =>
          Fired d e n ∧ e.enteringTo k = some (d.slotAct n Fld.TIME_LAUNCH_ACT_PSTATE) ∧ e.mem = d.mem)) ∧
      (due laPower lsReady → 2 ≤ d.slotAct n Fld.TIME_LAUNCH_ACT_PSTATE → d.sliceOn p = true → Does (.launchPowerState n) s fun e =>
        Fired d e n ∧ (∀ k, k ∈ e.bist.prewake ↔ k ∈ d.bist.prewake ∨ combs k) ∧ (∀ k : CombIdx, e.combPs k = d.combPs k) ∧ e.mem = d.mem) ∧
      (∀ q ∈ [(laMolt, lsHeld, Instr.launchMolt n), (laModel, lsHeld, .launchModelSwitch n), (laStart, lsReady, .launchStepStart n), (laColl, lsReady, .launchCollective n), (laPower, lsReady, .launchPowerState n)],
        ¬ due q.1 q.2.1 → Does q.2.2 s (· = d)))

/-! ### Power and temperature (chapter 14) -/

/-- R422, R423, R426 to R429, R434, R436: each microsecond the governor estimates, counts and moves the ceilings; each millisecond it calibrates the
rails; droop stretches a comb's clock; the emergency abort ends every undecided attempt, uncounted, and holds the device until the estimate has been
below the cap for 100 µs. It concludes that exec answers a next state, under conditions on state and operands alone, for: governorTick, calibration,
droopDetect, droopRecover, emergencyAbort, currentLimit, emergencyHoldEnd. -/
def Obligations.PowerIsGoverned : Prop :=
  ∀ (s : State) (x : PwrSample) (p : PartIdx) (k : CombIdx) (r : Fin 8),
    let d := s.dev
    let still := fun (e : Dev) => e.mem = d.mem ∧ e.fab = d.fab
    let est := d.pkgEstimate x
    let cap := d.effCap * 1000
    let sl := sget (fun _ => none) d.pwr.sliceLimit p
    let ends := fun (detail : Nat) (e : Dev) => e.rf Reg.PWR_STAT Fld.PWR_STAT_EMERG = 1 ∧ Recorded d e cPower 0x1202 detail ∧
      ∀ (q : PartIdx) (c : CtxIdx), d.partOfCtx c = some q.val → d.executing c = true → (d.att c).decided = false → (d.att c).acked = false → e.phase c = phAbort ∧ e.fails c = d.fails c ∧ e.loopState c = d.loopState c
    (d.mainOn = true → Does (.governorTick x) s fun e => still e ∧ e.pwr.est = est ∧ e.pwr.sumEst = d.pwr.sumEst + est ∧ e.pwr.ticks = d.pwr.ticks + 1 ∧ sget (fun _ => 0) e.pwr.partEst p = d.partEstimate x p ∧
      Governed (d.ceil 0 0) (e.ceil 0 0) est cap d.ps ∧ Governed (d.ceil 2 0) (e.ceil 2 0) est (cap * 108 / 100) d.ps ∧
      (d.safeOn = true → Governed (d.ceil 5 0) (e.ceil 5 0) est (d.pwr.safeCap * 1000) d.ps) ∧
      (d.partCap p ≠ 0 → Governed (d.ceil 1 (1 + p)) (e.ceil 1 (1 + p)) (d.partEstimate x p) (d.partCap p * 1000) d.ps) ∧
      (∀ l, sl = some l → (e.ceil 6 (1 + p)).step ≤ (d.ceil 6 (1 + p)).step ∧ (l < d.partEstimate x p → (e.ceil 6 (1 + p)).step = (d.ceil 6 (1 + p)).step - 1)) ∧
      (d.pwr.hot = true → (e.ceil 3 0).step = (d.ceil 3 0).step - 1) ∧
      (∀ i, i < 7 → e.rf (Reg.PWR_THR_US i) cnt64 = if bit e.limiting i then satAdd 64 (d.rf (Reg.PWR_THR_US i) cnt64) 1 else d.rf (Reg.PWR_THR_US i) cnt64) ∧
      (e.pwr.overAt = if cap * 110 / 100 < est ∧ (e.ceil 2 0).step = 0 then some (d.pwr.overAt.getD d.ps) else none) ∧ (e.pwr.underAt = if est < cap then some (d.pwr.underAt.getD d.ps) else none)) ∧
    (∀ mw pkg, d.mainOn = true → Does (.calibration mw pkg) s fun e =>
      let raw := sget (fun _ => 0) d.pwr.sumRail r / max 1 d.pwr.ticks
      let m := nthNat mw r
      let cl := bit (e.rf Reg.PWR_CAL Fld.PWR_CAL_CLAMPED) r
      still e ∧ e.pwr.ticks = 0 ∧ e.pwr.sumEst = 0 ∧ e.pwr.avgEst = d.pwr.sumEst / max 1 d.pwr.ticks ∧ e.rf (Reg.PWR_RAIL r) Fld.PWR_RAIL_MW = m ∧
      e.rf Reg.PWR_CAL Fld.PWR_CAL_CALS = satAdd 16 (d.rf Reg.PWR_CAL Fld.PWR_CAL_CALS) 1 ∧ e.rf Reg.PWR_EST ⟨0, 32⟩ = pkg.toNat ∧
      (raw ≠ 0 → raw * 8 ≤ m * 10 → m * 100 ≤ raw * 125 → cl = false ∧ e.rf (Reg.PWR_RAIL r) Fld.PWR_RAIL_SCALE = m * 32768 / raw) ∧
      (raw ≠ 0 → (m * 10 < raw * 8 ∨ raw * 125 < m * 100) → cl = true ∧ e.rf (Reg.PWR_RAIL r) Fld.PWR_RAIL_SCALE = d.rf (Reg.PWR_RAIL r) Fld.PWR_RAIL_SCALE ∧
        (d.fltq.length + 8 ≤ 64 → (cPower, 0x1201, r.val + min 65535 (m * 32768 / raw) * 65536) ∈ e.fltq.map recordOf))) ∧
    (d.mainOn = false → Does (.governorTick x) s (· = d) ∧ ∀ mw pkg, Does (.calibration mw pkg) s (· = d)) ∧
    (2 ≤ d.combPs k → (∀ q ∈ d.pwr.droop, q.1 ≠ k.val) → Does (.droopDetect k) s fun e => FieldNow d e (Reg.PWR_COMB k) Fld.PWR_COMB_DROOP_EVT (satAdd 16 (d.rf (Reg.PWR_COMB k) Fld.PWR_COMB_DROOP_EVT) 1) ∧
      e.pwr.droop = (k.val, d.ps) :: d.pwr.droop ∧ still e) ∧
    (d.combPs k < 2 → Does (.droopDetect k) s (· = d)) ∧
    (∀ q, d.pwr.droop.find? (fun z => z.1 == k.val) = some q →
      let passed := (d.ps - q.2) * pllKhz (d.rf (Reg.CLK_PLL_STAT k) Fld.CLK_PLL_STAT_CUR_MHZ) / 1000000000 / (if d.pwr.extStretch.contains k.val then 4 else 2)
      (32 ≤ passed → Does (.droopRecover k) s fun e => FieldNow d e (Reg.PWR_COMB k) Fld.PWR_COMB_DROOP_CYC (satAdd 32 (d.rf (Reg.PWR_COMB k) Fld.PWR_COMB_DROOP_CYC) passed) ∧ e.pwr.droop = d.pwr.droop.erase q ∧ still e) ∧
      (passed < 32 → Does (.droopRecover k) s (· = d))) ∧
    (d.mainOn = true → d.rf Reg.PWR_STAT Fld.PWR_STAT_EMERG = 0 → d.fltq.length < 64 →
      Does (.currentLimit r) s (ends (2 + r * 256)) ∧ ∀ t, d.pwr.overAt = some t → (d.ceil 2 0).step = 0 → t + 20 * us ≤ d.ps → Does .emergencyAbort s (ends 1)) ∧
    ((d.pwr.overAt = none ∨ (d.ceil 2 0).step ≠ 0) → Does .emergencyAbort s (· = d)) ∧
    (∀ t, d.pwr.underAt = some t → d.rf Reg.PWR_STAT Fld.PWR_STAT_EMERG = 1 → (t + 100 * us ≤ d.ps → Does .emergencyHoldEnd s fun e => FieldNow d e Reg.PWR_STAT Fld.PWR_STAT_EMERG 0 ∧ OnlyRegs d e) ∧
      (d.ps < t + 100 * us → Does .emergencyHoldEnd s (· = d)))

/-- R430 to R433, R435 to R437, R439, R440: THROT_IN_N sets the EXT ceiling and stretches the clocks until each PLL has reached it; heartbeats through the
operator view, and the safe cap after 60 s without one; temperatures, and the trip; announcements of reasons that begin and end; fixed-frequency
words. It concludes that exec answers a next state, under conditions on state and operands alone, for: throtInFall, throtInRise, extStretchEnd,
pwrHbBeat, safeCapTimeout, tempPoll, reasonAnnounce, fixedModeWrite. -/
def Obligations.ThrottleAndAlarms : Prop :=
  ∀ (s : State) (k : CombIdx) (v : View) (p : PartIdx) (w : Word),
    let d := s.dev
    let still := fun (e : Dev) => e.mem = d.mem ∧ e.fab = d.fab
    let stat := fun (e : Dev) f => e.rf Reg.PWR_STAT f
    Does .throtInFall s (fun e => FieldNow d e Reg.PWR_STAT Fld.PWR_STAT_EXT_IN 1 ∧ e.pwr.extHigh = none ∧ still e ∧
      (d.mainOn = true → (e.ceil 4 0).step = min 80 (Config.stepFor d.pwr.est (d.effCap * 500)) ∧ ∀ m : CombIdx, m.val ∈ e.pwr.extStretch)) ∧
    (stat d Fld.PWR_STAT_EXT_IN = 1 → Does .throtInRise s fun e => FieldNow d e Reg.PWR_STAT Fld.PWR_STAT_EXT_IN 0 ∧ e.pwr.extHigh = some d.ps ∧ still e) ∧
    (stat d Fld.PWR_STAT_EXT_IN = 0 → Does .throtInRise s (· = d)) ∧
    (k.val ∈ d.pwr.extStretch → (mhzStep (d.rf (Reg.CLK_PLL_STAT k) Fld.CLK_PLL_STAT_CUR_MHZ) ≤ (d.ceil 4 0).step → Does (.extStretchEnd k) s fun e => e = { d with pwr := { d.pwr with extStretch := d.pwr.extStretch.erase k.val } }) ∧
      ((d.ceil 4 0).step < mhzStep (d.rf (Reg.CLK_PLL_STAT k) Fld.CLK_PLL_STAT_CUR_MHZ) → Does (.extStretchEnd k) s (· = d))) ∧
    (v.val = 0 → d.hostUp Reg.PWR_HB = true → d.ready = true → Does (.pwrHbBeat v) s fun e => stat e Fld.PWR_STAT_SUPERVISED = 1 ∧ stat e Fld.PWR_STAT_SAFE_ON = 0 ∧ e.pwr.beatAt = d.ps ∧ RegsBut [Reg.PWR_STAT] d e ∧ still e) ∧
    (v.val ≠ 0 → Does (.pwrHbBeat v) s (· = d)) ∧
    (stat d Fld.PWR_STAT_SUPERVISED = 1 → d.safeOn = false → (d.pwr.beatAt + 60000 * ms ≤ d.ps → Does .safeCapTimeout s fun e => FieldNow d e Reg.PWR_STAT Fld.PWR_STAT_SAFE_ON 1 ∧ still e ∧ e.pwr.safeCap = safeCapOf (d.psrWord 4) ∧
        e.effCap = min (d.rf Reg.PWR_CAP Fld.PWR_CAP_CAP) e.pwr.safeCap) ∧
      (d.ps < d.pwr.beatAt + 60000 * ms → Does .safeCapTimeout s (· = d))) ∧
    (∀ dies hbm : List (BitVec 16), d.pwr.trip = false → d.boot.held = false →
      let tj := (dies.map (·.toNat)).foldl max 0
      let hb := (hbm.map (·.toNat)).foldl max 0
      (tj < 115 * 16 → hb < 105 → Does (.tempPoll dies hbm) s fun e => e.rf Reg.PWR_TEMP Fld.PWR_TEMP_TJ_MAX = tj ∧ e.rf Reg.PWR_TEMP Fld.PWR_TEMP_HBM_MAX = hb ∧ RegsBut [Reg.PWR_TEMP] d e ∧ still e ∧ e.pwr.trip = false ∧
        (e.pwr.hot = true ↔ 105 * 16 ≤ tj ∨ 95 ≤ hb) ∧ (e.pwr.coolAt = if tj < 102 * 16 ∧ hb < 92 then some (d.pwr.coolAt.getD d.ps) else none)) ∧
      (115 * 16 ≤ tj ∨ 105 ≤ hb → d.fltq.length < 64 → Does (.tempPoll dies hbm) s fun e => e.pwr.trip = true ∧ e.ready = false ∧ e.mem = [] ∧ e.fab = Dev.powerOn.fab ∧ e.ring.drive = false ∧
        (∃ detail, Recorded d e cThermal 0x1213 detail) ∧ ∀ l, l < 19 → portState d l = 3 → ∃ z, Sent d e (.frarax l 0x03 z) ∧ argN z 33 1 = 2)) ∧
    (∀ i : Fin 7, 2 ≤ i.val → i.val ≤ 5 → d.fltq.length < 64 →
      let cls := if i.val = 3 then cThermal else cPower
      let detail := if i.val = 3 then d.heatDetail else i.val
      (bit d.limiting i = true → i.val ∉ d.pwr.announced → d.limitsLong i = false → Does (.reasonAnnounce i) s (· = d)) ∧
      (bit d.limiting i = true → i.val ∉ d.pwr.announced → d.limitsLong i = true → Does (.reasonAnnounce i) s fun e => Recorded d e cls (if i.val = 3 then 0x1211 else 0x1203) detail ∧ e.pwr.announced = i.val :: d.pwr.announced ∧ still e ∧
        ∀ q : PartIdx, d.partUsable q = true → 4 ≤ d.rf (Reg.STEP_EVT_CFG q) Fld.STEP_EVT_CFG_LOG2N → d.rf (Reg.STEP_EVT_CFG q) Fld.STEP_EVT_CFG_LOG2N ≤ 16 → (sget (fun _ => []) d.srv.evts q).length < 256 →
          ∃ z : Event, sget (fun _ => []) e.srv.evts q = sget (fun _ => []) d.srv.evts q ++ [z] ∧ z.typ = 0x09 ∧ z.detail / 2 ^ 56 = cls) ∧
      (∀ t, bit d.limiting i = false → i.val ∈ d.pwr.announced → sget (fun _ => none) d.pwr.lastLimit i = some t →
        (t + 100 * ms ≤ d.ps → Does (.reasonAnnounce i) s fun e => Recorded d e cls (if i.val = 3 then 0x1212 else 0x1204) detail ∧ e.pwr.announced = d.pwr.announced.erase i.val ∧ still e) ∧
        (d.ps < t + 100 * ms → Does (.reasonAnnounce i) s (· = d)))) ∧
    (d.hostUp (Reg.PWR_FIXED p) = true →
      (d.sealed p = true → d.fltq.length < 64 → Does (.fixedModeWrite v p w) s fun e => Recorded d e cSecurity 0x0E21 (Reg.PWR_FIXED p + v * 2 ^ 32) ∧ e = { d with fltq := e.fltq }) ∧
      (d.sealed p = false → v.val = 0 → Does (.fixedModeWrite v p w) s fun e => OnlyRegs d e ∧ RegsBut [Reg.PWR_FIXED p] d e ∧ e.rf (Reg.PWR_FIXED p) Fld.PWR_FIXED_ENABLE = fget w Fld.PWR_FIXED_ENABLE ∧
        e.rf (Reg.PWR_FIXED p) Fld.PWR_FIXED_FSTEP = if fget w Fld.PWR_FIXED_FSTEP ≤ 80 then fget w Fld.PWR_FIXED_FSTEP else d.rf (Reg.PWR_FIXED p) Fld.PWR_FIXED_FSTEP) ∧
      (d.sealed p = false → v.val ≠ 0 → Does (.fixedModeWrite v p w) s (· = d)))

/-! ### Resets and start-up (chapter 15) -/

/-- R443 to R445, R455, R456, R504, R505: what resets the device and with which cause; a power loss leaves each persistent operation done or not done; the
loss of the main rails ends every attempt and leaves standby, until they return; while PG_AON is low PG_MAIN changes nothing but its own level (log
entry 58). It concludes that exec answers a next state, under conditions on state and operands alone, for: powerOn, porstN, pgMainFall, pgMainRise,
mgmtWatchdog, backoffEnd, reset, retryNow, railUndervoltage, pgAonFall, porstNLow. -/
def Obligations.ResetsAndPower : Prop :=
  ∀ (s : State) (v : View) (r : Fin 8),
    let d := s.dev
    let whole := d.pwr.trip = false ∧ d.chrysalis = false
    let up := v.val = 0 ∧ d.boot.pgAon = true ∧ d.boot.held = false ∧ d.boot.porstLow = false ∧ d.pwr.trip = false
    let standby := fun (e : Dev) => e.ready = false ∧ e.mem = [] ∧ e.fab = Dev.powerOn.fab ∧ e.srv = Dev.powerOn.srv ∧ e.ring.drive = false ∧ e.boot.mainFell = true ∧ (∀ c : CtxIdx, e.phase c = phIdle) ∧ e.psr = d.psr
    let used := d.boot.pgAon = true ∧ d.boot.pgMain = true ∧ d.mainUsed = true
    let attempt := fun (e : Dev) => e.attemptNo = if d.ready then 1 else min 65535 (d.attemptNo + 1)
    let result := fun (e : Dev) n => e.rf Reg.BOOT_CMD Fld.BOOT_CMD_RESULT = n ∧ e.rf Reg.BOOT_CMD Fld.BOOT_CMD_OP = 0 ∧ RegsBut [Reg.BOOT_CMD] d e
    (d.boot.pgAon = false → d.clk.lost = false → Does .powerOn s fun e => Restarted d e 0 ∧ e.boot.pgAon = true ∧ e.attemptNo = 1) ∧
    (d.boot.pgAon = true ∨ d.clk.lost = true → Does .powerOn s (· = d)) ∧
    (d.boot.pgAon = true → (Does .porstNLow s fun e => Restarted d e 1 ∧ e.boot.porstLow = true) ∧ (Does .porstN s fun e => Restarted d e 1 ∧ e.boot.porstLow = false ∧ e.attemptNo = 1)) ∧
    (d.boot.pgAon = true → Does .pgAonFall s fun e => Restarted d.psrPowerLost e 0 ∧ e.boot.pgAon = false ∧ e.psr.ops = [] ∧ (d.psr.ops = [] → e.psr.words = d.psr.words) ∧
      ∀ o rest, d.psr.ops = o :: rest → e.psr.words = d.psr.words ∨ e.psr.words = ((d.psrJournal o).psrApply o).2.psr.words) ∧
    (used → Does .pgMainFall s fun e => standby e ∧ e.boot.pgMain = false ∧ e.fltq = d.fltq) ∧
    (d.mainUsed = false → Does .pgMainFall s fun e => e = { d with boot := { d.boot with pgMain := false } }) ∧
    (d.boot.pgAon = false → (Does .pgMainFall s fun e => e = { d with boot := { d.boot with pgMain := false } }) ∧ (Does .pgMainRise s fun e => e = { d with boot := { d.boot with pgMain := true } })) ∧
    (used → d.fltq.length < 64 → Does (.railUndervoltage r) s fun e => standby e ∧ Recorded d e cPower 0x1501 r) ∧
    (d.boot.pgAon = true → d.boot.mainFell = true → whole → Does .pgMainRise s fun e => Restarted d e 2 ∧ e.boot.pgMain = true ∧ e.attemptNo = 1) ∧
    (d.boot.pgAon = true → d.boot.mainFell = false → d.rf Reg.BOOT_STAT Fld.BOOT_STAT_WAIT_MAIN = 1 → Does .pgMainRise s fun e =>
      FieldNow d e Reg.BOOT_STAT Fld.BOOT_STAT_WAIT_MAIN 0 ∧ e = { d with regs := e.regs, boot := { d.boot with pgMain := true, stageAt := d.ps } }) ∧
    (d.boot.pgAon = true → 6 < d.stage → d.boot.held = false → d.boot.mainFell = false → d.boot.backoffAt = none → whole → Does .mgmtWatchdog s fun e => Restarted d e 6 ∧ attempt e) ∧
    (∀ t, d.boot.backoffAt = some t → (t ≤ d.ps → whole → Does .backoffEnd s fun e => Restarted d e 7 ∧ attempt e ∧ e.boot.backoffAt = none) ∧ (d.ps < t → Does .backoffEnd s (· = d))) ∧
    (up → Does (.reset v) s fun e => Restarted d e 3 ∧ e.attemptNo = 1 ∧ ∀ l, l < 19 → portState d l = 3 → ∃ z, Sent d e (.frarax l 0x03 z) ∧ argN z 33 1 = 3) ∧
    (v.val ≠ 0 ∨ d.pwr.trip = true → Does (.reset v) s (· = d) ∧ Does (.retryNow v) s (· = d)) ∧
    (up → d.chrysalis = false → d.boot.backoffAt ≠ none → Does (.retryNow v) s fun e => Restarted d e 7 ∧ attempt e) ∧
    (up → d.boot.backoffAt = none → d.fltq.length < 64 → Does (.retryNow v) s fun e => result e 3 ∧ Recorded d e cHostProto 0x1321 2)

/-- R446 to R448, R450 to R457, R463, R464, R479, R481: the stages of a boot, each with its work; a stage too long, or an event of Table 15-3, fails the
boot and starts its back-off; netboot tries the MGMT ports in ascending order; the commands of BOOT_CMD. It concludes that exec answers a next state,
under conditions on state and operands alone, for: bootStageEnd, bootStageTimeout, dhcpv6Reply, tftpData, netbootPortTimeout, continueBoot, fwWrite,
fwWriteEnd, arbRaise. -/
def Obligations.BootProceeds : Prop :=
  ∀ (s : State) (o : StageOut) (v : View),
    let d := s.dev
    let runs := d.booting = true ∧ d.bootWaits = false
    let fails := fun (code : Nat) (e : Dev) => e.rf Reg.BOOT_FAIL Fld.BOOT_FAIL_STAGE = d.stage ∧ e.rf Reg.BOOT_FAIL Fld.BOOT_FAIL_CODE = code ∧ e.rf Reg.BOOT_FAIL Fld.BOOT_FAIL_ATTEMPT = d.attemptNo ∧
      e.boot.backoffAt = some (d.ps + backoffS d.attemptNo * second)
    let first := fget (d.effWord 6) Fld.PSR_FW_SLOT_PREFERRED
    let good := fun n => d.fwCheck fwMax (d.fwBytes n) = none
    let started := fun n (e : Dev) => e.stage = 6 ∧ e.source = n ∧ e.rf (Reg.BOOT_SLOT n) Fld.BOOT_SLOT_RESULT = 1 ∧ e.rf Reg.BOOT_FW Fld.BOOT_FW_SVN = leNat (d.fwBytes n 8 4) ∧ e.rf Reg.BOOT_STAT Fld.BOOT_STAT_WAIT_MAIN = b2n !d.boot.pgMain
    let netboot := fget (d.effWord 5) Fld.PSR_BOOT_POLICY_NETBOOT
    let up := v.val = 0 ∧ d.boot.pgAon = true ∧ d.boot.held = false ∧ d.boot.porstLow = false ∧ d.pwr.trip = false
    let result := fun (e : Dev) n => e.rf Reg.BOOT_CMD Fld.BOOT_CMD_RESULT = n ∧ e.rf Reg.BOOT_CMD Fld.BOOT_CMD_OP = 0
    let refused := fun (op : Nat) (e : Dev) => result e 3 ∧ Recorded d e cHostProto 0x1321 op ∧ e.boot = d.boot ∧ e.psr = d.psr
    let still := fun (e : Dev) => e.mem = d.mem ∧ e.fab = d.fab
    (runs → reportedCode o.code.toNat = true → Does (.bootStageEnd o) s (fails o.code.toNat)) ∧
    (runs → d.stage < 9 → d.boot.stageAt + d.stageLimit * ms ≤ d.ps → Does .bootStageTimeout s (fails 1)) ∧
    (d.bootWaits = true ∨ d.booting = false → Does (.bootStageEnd o) s (· = d) ∧ Does .bootStageTimeout s (· = d)) ∧
    (runs → o.code = 0 →
      (d.stage = 1 → Does (.bootStageEnd o) s fun e => e.stage = 2 ∧ e.rd (Reg.LNK_VIEW_KEY 0) = d.effWord 20 ∧ ∀ h, h < 4 → e.hpRoles h = (d.effWord 1).toNat / 2 ^ (3 * h) % 8) ∧
      (d.stage = 2 → d.fltq.length < 64 → Does (.bootStageEnd o) s fun e => e.stage = 3 ∧ e.rf (Reg.CLK_PLL_STAT 35) Fld.CLK_PLL_STAT_ON = 1 ∧
        (o.puf = true → e.rf Reg.SEC_STAT Fld.SEC_STAT_ID_VALID = 1 ∧ e.fltq = d.fltq) ∧ (o.puf = false → Recorded d e cSecurity 0x1411 0)) ∧
      (d.stage = 3 → o.corrected = [] →
        (o.bad = [] → Does (.bootStageEnd o) s fun e => e.stage = 4 ∧ (fget (d.psrWord 0) Fld.PSR_NODE_VALID = 1 → e.nodeValid = true ∧ e.node = fget (d.psrWord 0) Fld.PSR_NODE_NODE_ID ∧ e.role = fget (d.psrWord 0) Fld.PSR_NODE_ROLE)) ∧
        (∀ n : Fin 1024, o.bad = [n] → n.val ≠ 7 → n.val ≠ 8 → d.fltq.length < 64 → Does (.bootStageEnd o) s fun e => e.stage = 4 ∧ e.psrWord n = psrShipped n ∧ bit (e.rd (Reg.PSR_BAD (n / 64))).toNat (n % 64) = true ∧
          (cPsrWorn, 0x1303, n.val) ∈ e.fltq.map recordOf) ∧
        (7 ∈ o.bad → 8 ∈ o.bad → Does (.bootStageEnd o) s (fails 2))) ∧
      (d.stage = 4 → (good first → Does (.bootStageEnd o) s (started first)) ∧ (¬ good first → good (1 - first) → Does (.bootStageEnd o) s (started (1 - first))) ∧
        (¬ good first → ¬ good (1 - first) → (netboot = 0 → Does (.bootStageEnd o) s (fails 4)) ∧
          (∀ h l, netboot = 1 → d.mgmtPorts = h :: l → h ∉ d.boot.netFailed → Does (.bootStageEnd o) s fun e => e.stage = 5 ∧ e.boot.net = some h ∧ Sent d e (.note "DHCPV6_SOLICIT" [h])))) ∧
      (d.stage = 6 → Does (.bootStageEnd o) s fun e => e.stage = 7 ∧ e.rf Reg.MEM_CFG Fld.MEM_CFG_T1_STACKS = 0xFF ∧ e.rf Reg.MEM_CFG Fld.MEM_CFG_T1_GRANULES = 32 ∧
        (∀ j, j < 8 → bit (e.rf Reg.MEM_CFG Fld.MEM_CFG_LP6_PORTS) j = (o.lp6[j]?.join).isSome) ∧ e.rf Reg.MEM_CFG Fld.MEM_CFG_LP6_GIB = lp6Smallest o.lp6 ∧
        e.rf Reg.MEM_CFG Fld.MEM_CFG_T2_GRANULES = (if ∀ j, j < 8 → (o.lp6[j]?.join).isSome = true then lp6Smallest o.lp6 / 8 else 0) ∧ ∀ k, k < 35 → e.rf (Reg.CLK_PLL_STAT k) Fld.CLK_PLL_STAT_LOCK = 1) ∧
      (d.stage = 7 → o.bist = [] → Does (.bootStageEnd o) s fun e => e.stage = 8 ∧ e.rf Reg.BIST_STAT Fld.BIST_STAT_POLICY = d.bistPolicy ∧ (∀ k, k < 16 → CombLost e k ∧ e.combPs k = 0) ∧
        ∀ l, l < 7 → portState e l = if portState d l = 4 ∧ d.rf (portCtl l) Fld.LNK_BL_CTL_DISABLE = 0 ∧ d.rolePort l = true then 0 else portState d l) ∧
      (d.stage = 7 → o.bist ≠ [] → d.bistPolicy = 2 → Does (.bootStageEnd o) s fun e => e.chrysalis = true ∧ e.ready = false ∧ e.stage = 7 ∧ ∀ f ∈ o.bist, bit (e.rd Reg.GLB_DIE_FAIL).toNat f.die.toNat = true) ∧
      (d.stage = 8 → Does (.bootStageEnd o) s fun e => e.stage = 9 ∧ RegsBut [Reg.BOOT_STAT] d e ∧ still e) ∧
      (d.stage = 9 → d.autoParts = [] → Does (.bootStageEnd o) s fun e => e.ready = true ∧ e.bist.nextAt = d.ps + 2 * second ∧ e.rf Reg.PART_GLB Fld.PART_GLB_ISOLATE = fget (d.effWord 5) Fld.PSR_BOOT_POLICY_ISOLATE ∧ still e ∧
        (2 ≤ d.role → e.rf Reg.PWR_STAT Fld.PWR_STAT_SUPERVISED = 1 ∧ e.pwr.beatAt = d.ps))) ∧
    (∀ h : HostPort, d.netOn h = true →
      (∀ rest, d.boot.netUrl = false → Does (.dhcpv6Reply h ([0x74#8, 0x66#8, 0x74#8, 0x70#8, 0x3A#8, 0x2F#8, 0x2F#8] ++ rest)) s fun e => e.boot.netUrl = true ∧ Sent d e (.note "TFTP_RRQ" [h, 4096]) ∧ RegsBut [] d e ∧ still e) ∧
      (∀ data, d.boot.netUrl = true → d.boot.netBlock < 65535 → data.length = (if d.boot.netSize = 0 then 512 else d.boot.netSize) → d.boot.netData.length + data.length ≤ fwMax →
        Does (.tftpData h none (BitVec.ofNat 16 (d.boot.netBlock + 1)) data) s fun e => e.boot.netData = d.boot.netData ++ data ∧ e.boot.netBlock = d.boot.netBlock + 1 ∧ Sent d e (.note "TFTP_ACK" [h, d.boot.netBlock + 1]) ∧ RegsBut [] d e ∧ still e) ∧
      (∀ data, d.boot.netUrl = true → d.boot.netBlock < 65535 → data.length < (if d.boot.netSize = 0 then 512 else d.boot.netSize) → d.boot.netData.length + data.length ≤ fwMax →
        (let all := d.boot.netData ++ data
         d.fwCheck all.length (fun off n => (all.drop off).take n) = none) → Does (.tftpData h none (BitVec.ofNat 16 (d.boot.netBlock + 1)) data) s fun e => e.stage = 6 ∧ e.source = 2) ∧
      (∀ n : BitVec 16, d.boot.netUrl = true → d.boot.netBlock = 0 → d.boot.netSize = 0 → (512 ≤ n.toNat → n.toNat ≤ 4096 → Does (.tftpData h (some n) 0 []) s fun e => e.boot.netSize = n.toNat ∧ Sent d e (.note "TFTP_ACK" [h, 0])) ∧
        (n.toNat < 512 → Does (.tftpData h (some n) 0 []) s fun e => e.boot.netSize = 512 ∧ Sent d e (.note "TFTP_ERROR" [h, 8]) ∧ Sent d e (.note "TFTP_RRQ" [h, 512]))) ∧
      (∀ g l, d.boot.netUrl = false → d.boot.stageAt + 30 * second ≤ d.ps → d.mgmtPorts.filter (fun m => !(h.val :: d.boot.netFailed).contains m) = g :: l → Does (.netbootPortTimeout h) s fun e => e.boot.net = some g ∧ h.val ∈ e.boot.netFailed ∧ RegsBut [] d e) ∧
      (d.boot.netUrl = false → d.boot.stageAt + 30 * second ≤ d.ps → d.mgmtPorts.filter (fun m => !(h.val :: d.boot.netFailed).contains m) = [] → Does (.netbootPortTimeout h) s (fails 5))) ∧
    (up → d.booting = true → d.stage = 6 → Does (.continueBoot v) s fun e => result e 2 ∧ e.rf Reg.BOOT_STAT Fld.BOOT_STAT_WAIT_CONT = 0 ∧ e.boot.cont = true ∧
      e.boot.stageAt = (if d.rf Reg.BOOT_STAT Fld.BOOT_STAT_WAIT_CONT = 1 then d.ps else d.boot.stageAt) ∧ RegsBut [Reg.BOOT_CMD, Reg.BOOT_STAT] d e) ∧
    (up → d.fltq.length < 64 →
      (d.stage ≠ 6 → Does (.continueBoot v) s (refused 3)) ∧
      (∀ slot, (d.source = b2n slot ∨ d.ready = false ∨ d.fwLen < 256 ∨ fwMax < d.fwLen ∨ d.viewT1 0 d.fwSrc d.fwLen = false ∨ 10000 ≤ d.fwWrites (b2n slot)) → Does (.fwWrite v slot) s (refused 4)) ∧
      (d.source = 3 → Does (.arbRaise v) s (refused 5))) ∧
    (∀ slot, up → d.source ≠ b2n slot → d.ready = true → 256 ≤ d.fwLen → d.fwLen ≤ fwMax → d.viewT1 0 d.fwSrc d.fwLen = true → d.fwWrites (b2n slot) < 10000 → d.boot.fwWrite = none → Does (.fwWrite v slot) s fun e =>
      result e 1 ∧ e.rf (Reg.BOOT_SLOT (b2n slot)) Fld.BOOT_SLOT_RESULT = 8 ∧ e.boot.fwWrite = some ⟨b2n slot, d.fwSrc, d.fwLen⟩ ∧ still e) ∧
    (∀ w, d.boot.fwWrite = some w → w.len ≤ 2 ^ 24 → Does .fwWriteEnd s fun e => result e 2 ∧ e.boot.fwWrite = none ∧ e.fwWrites w.slot = d.fwWrites w.slot + 1 ∧ (∀ i, i < w.len → e.fwBytes w.slot i 1 = [d.byte (w.src + i)]) ∧
      (w.slot < 2 → e.rf (Reg.BOOT_SLOT w.slot) Fld.BOOT_SLOT_RESULT = (e.fwCheck fwMax (e.fwBytes w.slot)).getD 1) ∧ still e) ∧
    (up → d.source ≠ 3 → (d.arbValue < d.rf Reg.BOOT_FW Fld.BOOT_FW_SVN → Does (.arbRaise v) s fun e => result e 2 ∧ e.psr.ops.length = d.psr.ops.length + 2 ∧
        e.psr.ops = d.psr.ops ++ [7, 8].map fun n => ⟨false, false, [(n, BitVec.ofNat 64 (d.rf Reg.BOOT_FW Fld.BOOT_FW_SVN))]⟩) ∧
      (d.rf Reg.BOOT_FW Fld.BOOT_FW_SVN ≤ d.arbValue → Does (.arbRaise v) s fun e => result e 2 ∧ e.psr = d.psr))

/-! ### Persistent words, self-test, trust and the fault log (chapters 15, 16 and 18) -/

/-- R458 to R462, R465, R467: writes of persistent words queue, or are refused, or find the queue full; an operation that completes takes effect as a
whole, and a change wears the word until it locks; groups. It concludes that exec answers a next state, under conditions on state and operands alone,
for: psrWrite, psrGroupCommit, psrOpComplete. -/
def Obligations.PersistentWords : Prop :=
  ∀ (s : State) (v : View) (n : Fin 1024) (w : Word) (k : BitVec 4),
    let d := s.dev
    let result := fun (e : Dev) m => e.rf Reg.PSR_STAT Fld.PSR_STAT_RESULT = m
    let x := w &&& BitVec.ofNat 64 (psrMask n)
    let queued := fun (o : PsrOp) (e : Dev) => e.psr = { d.psr with ops := d.psr.ops ++ [o] } ∧ e.rf Reg.PSR_STAT Fld.PSR_STAT_PENDING = d.psr.ops.length % 32 ∧ e.mem = d.mem
    let up := v.val = 0 ∧ d.hostUp (Reg.PSR_WORD n) = true ∧ psrHost n = true
    let upG := v.val = 0 ∧ d.hostUp Reg.PSR_GRP_CMD = true ∧ d.rf Reg.PSR_GRP_CMD Fld.PSR_GRP_CMD_GO = 0
    let ws := d.groupWords k.toNat
    let sized := 1 ≤ k.toNat ∧ k.toNat ≤ 8
    let untouched := fun (e : Dev) => e.psr = d.psr ∧ e.mem = d.mem ∧ RegsBut [Reg.PSR_STAT, Reg.PSR_GRP_CMD] d e
    (up → psrForbidden n x = false → d.psr.ops.length < 17 → Does (.psrWrite v n w) s fun e => queued ⟨true, false, [(n.val, x)]⟩ e ∧ RegsBut [Reg.PSR_STAT] d e ∧ e.fltq = d.fltq) ∧
    (up → psrForbidden n x = true → d.fltq.length < 64 → Does (.psrWrite v n w) s fun e => result e 3 ∧ Recorded d e cHostProto 0x1321 (n.val * 2 ^ 16) ∧ untouched e) ∧
    (up → psrForbidden n x = false → 17 ≤ d.psr.ops.length → Does (.psrWrite v n w) s fun e => FieldNow d e Reg.PSR_STAT Fld.PSR_STAT_RESULT 4 ∧ OnlyRegs d e) ∧
    (v.val ≠ 0 ∨ psrHost n = false → Does (.psrWrite v n w) s (· = d)) ∧
    (∀ host rest, d.psr.ops = ⟨host, false, [(n.val, w)]⟩ :: rest → d.fltq.length < 64 →
      (d.psrWear n < 100000 → Does .psrOpComplete s fun e => e.psrWord n = w ∧ (∀ m, m ≠ n.val → e.psrWord m = d.psrWord m ∧ e.psrWear m = d.psrWear m) ∧ e.psrWear n = (if d.psrWord n = w then d.psrWear n else d.psrWear n + 1) ∧
        e.psr.ops = rest ∧ (host = true → result e 1) ∧ (e.psrWear n = 100000 → Recorded d e cPsrWorn 0x1302 n) ∧ (e.psrWear n < 100000 → e.fltq = d.fltq) ∧ RegsBut [Reg.PSR_STAT] d e) ∧
      (100000 ≤ d.psrWear n → Does .psrOpComplete s fun e => e.psr.words = d.psr.words ∧ e.psr.wear = d.psr.wear ∧ e.psr.ops = rest ∧ (host = true → result e 2) ∧
        (n.val ∉ d.psr.told → Recorded d e cPsrWorn 0x1301 n ∧ n.val ∈ e.psr.told) ∧ (n.val ∈ d.psr.told → e.fltq = d.fltq))) ∧
    (∀ host l rest, d.psr.ops = ⟨host, true, l⟩ :: rest → (l.map (·.1)).Nodup → (∀ q ∈ l, d.psrWear q.1 < 100000) → Does .psrOpComplete s fun e =>
      (∀ q ∈ l, e.psrWord q.1 = q.2) ∧ (∀ m, m ∉ l.map (·.1) → e.psrWord m = d.psrWord m ∧ e.psrWear m = d.psrWear m) ∧ e.psr.ops = rest ∧ e.rf Reg.PSR_GRP_CMD Fld.PSR_GRP_CMD_GO = 0 ∧ (host = true → result e 1) ∧
      e.psr.journal = d.psr.journal + l.length) ∧
    (d.psr.ops = [] → Does .psrOpComplete s (· = d)) ∧
    (upG → sized → badGroup ws = none → d.journalWorn = false → (∀ q ∈ ws, d.psrLocked q.1 = false) → d.psr.ops.length < 17 → Does (.psrGroupCommit v k) s fun e => queued ⟨true, true, ws⟩ e ∧ e.rf Reg.PSR_GRP_CMD Fld.PSR_GRP_CMD_GO = 1) ∧
    (upG → sized → badGroup ws = none → (d.journalWorn = true ∨ ∃ q ∈ ws, d.psrLocked q.1 = true) → Does (.psrGroupCommit v k) s fun e => result e 2 ∧ untouched e ∧ e.fltq = d.fltq) ∧
    (∀ m, upG → d.fltq.length < 64 → ((sized ∧ badGroup ws = some m) ∨ (¬ sized ∧ m = 0)) → Does (.psrGroupCommit v k) s fun e => result e 3 ∧ Recorded d e cHostProto 0x1321 (m * 2 ^ 16) ∧ untouched e)

/-- R473 to R477, R479 to R481: a slice falls due, starts only at a boundary of its partition with headroom, is deferred and forced without it, or skipped
on a free comb; it leaves its cells as they were, and wakes the combs whose pre-wake it held back; a failure marks its die, and under WITHDRAW the
device enters the chrysalis state. It concludes that exec answers a next state, under conditions on state and operands alone, for: sliceDue,
sliceStart, sliceSkip, sliceEnd. -/
def Obligations.SelfTestSlices : Prop :=
  ∀ (s : State) (f : BistFail),
    let d := s.dev
    let stat := fun (e : Dev) x => e.rf Reg.BIST_STAT x
    let still := fun (e : Dev) => e.mem = d.mem ∧ e.fab = d.fab ∧ e.srv = d.srv
    let g := d.sliceNext
    let k := groupComb g
    let counts := fun (off : Nat) (e : Dev) => e.rf off cnt48 = satAdd 48 (d.rf off cnt48) 1
    let begins := fun (e : Dev) => stat e Fld.BIST_STAT_DUE = 0 ∧ stat e Fld.BIST_STAT_DEFERRED = 0 ∧ (∃ b, e.bist.slice = some ⟨g, b⟩) ∧ still e
    let defers := fun (e : Dev) => stat e Fld.BIST_STAT_DEFERRED = 1 ∧ e.bist = d.bist ∧ still e ∧ (stat d Fld.BIST_STAT_DEFERRED = 0 → counts Reg.BIST_DEFERS e)
    let next := fun (n : Nat) (e : Dev) => stat e Fld.BIST_STAT_NEXT = (n + 1) % 256 ∧ e.bist.slice = none ∧ e.bist.nextAt = d.ps + 2 * second ∧ (n = 255 → stat e Fld.BIST_STAT_PASSES = satAdd 16 (stat d Fld.BIST_STAT_PASSES) 1)
    let awake := 2 ≤ d.combPs k ∧ d.enteringTo k = none
    let free := d.ownerOf k = none ∧ d.heldOff k = false
    let marked := fun (e : Dev) => bit (e.rd Reg.GLB_DIE_FAIL).toNat f.die.toNat = true ∧ e.rf Reg.BIST_LAST_FAIL Fld.BIST_LAST_FAIL_KIND = 2 ∧ e.rf Reg.BIST_LAST_FAIL Fld.BIST_LAST_FAIL_DIE = f.die.toNat ∧
      e.rf Reg.BIST_LAST_FAIL Fld.BIST_LAST_FAIL_UNIT = f.unit.toNat
    (d.ready = true → d.rf Reg.BIST_CTL Fld.BIST_CTL_ENABLE = 1 → d.bist.slice = none → stat d Fld.BIST_STAT_DUE = 0 →
      (d.bist.nextAt ≤ d.ps → Does .sliceDue s fun e => stat e Fld.BIST_STAT_DUE = 1 ∧ e.bist.fellAt = d.ps ∧ RegsBut [Reg.BIST_STAT] d e ∧ still e) ∧ (d.ps < d.bist.nextAt → Does .sliceDue s (· = d))) ∧
    (d.isDue = true → free → awake → d.headroom none = true → Does .sliceStart s begins) ∧
    (d.isDue = true → free → d.headroom none = false → Does .sliceStart s defers) ∧
    (∀ p, d.isDue = true → d.ownerOf k = some p → d.partUsable p = true → d.attemptIn p = false → d.partBusy p = false → d.timedMolt p = false →
      (awake → d.headroom (some p) = true → Does .sliceStart s begins) ∧
      (d.headroom (some p) = false → d.ps < d.bist.fellAt + 10 * second → Does .sliceStart s defers) ∧
      (awake → d.headroom (some p) = false → d.bist.fellAt + 10 * second ≤ d.ps → Does .sliceStart s fun e => begins e ∧ counts Reg.BIST_FORCED e ∧
        sget (fun _ => none) e.pwr.sliceLimit p = some ((if d.partCap p = 0 then sget (fun _ => 0) d.pwr.avgPart p else d.partCap p * 1000) - 60000))) ∧
    (∀ p, d.ownerOf k = some p → (d.attemptIn p = true ∨ d.partBusy p = true ∨ d.timedMolt p = true) → Does .sliceStart s (· = d)) ∧
    (d.isDue = false → Does .sliceStart s (· = d) ∧ Does .sliceSkip s (· = d)) ∧
    (d.isDue = true → free → d.bist.woke = none → d.headroom none = false → d.bist.fellAt + 10 * second ≤ d.ps → Does .sliceSkip s fun e => e.rf (Reg.BIST_GROUP g) Fld.BIST_GROUP_RESULT = 3 ∧ counts Reg.BIST_SKIPPED e ∧ next g e ∧ still e) ∧
    (∀ b, d.bist.slice = some b → b.group < 256 →
      (d.ownerOf (groupComb b.group) = none → 2 ≤ b.back → Does (.sliceEnd none) s fun e => e.rf (Reg.BIST_GROUP b.group) Fld.BIST_GROUP_RESULT = 1 ∧ e.rf (Reg.BIST_GROUP b.group) Fld.BIST_GROUP_T_S = d.sysTime.toNat / 1250000000 % 2 ^ 32 ∧
        counts Reg.BIST_SLICES e ∧ next b.group e ∧ still e ∧ e.bist.prewake = [] ∧
        ∀ m : CombIdx, m.val ∈ d.bist.prewake → m.val ≠ groupComb b.group → d.combPs m < 2 → d.enteringTo m = none → d.wakingFrom m = none → e.wakingFrom m = some (d.combPs m)) ∧
      (stat d Fld.BIST_STAT_POLICY ≠ 2 → d.ownerOf (groupComb b.group) = none → 2 ≤ b.back → Does (.sliceEnd (some f)) s fun e => e.rf (Reg.BIST_GROUP b.group) Fld.BIST_GROUP_RESULT = 2 ∧ marked e ∧ e.mem = d.mem ∧ e.fab = d.fab) ∧
      (stat d Fld.BIST_STAT_POLICY = 2 → Does (.sliceEnd (some f)) s fun e => marked e ∧ e.chrysalis = true ∧ e.ready = false ∧ e.mem = [] ∧ e.fab = Dev.powerOn.fab ∧ ∀ l, l < 19 → portState d l = 3 → ∃ z, Sent d e (.frarax l 0x03 z) ∧ argN z 33 1 = 1)) ∧
    (d.bist.slice = none → Does (.sliceEnd none) s (· = d))

/-- R484 to R486, R488 to R490, R522, R523, R525: quotes take a nonce and show the registers that they measure; keys of an ACTIVE partition; the debug
lock; a command that is refused; the collector writes the oldest waiting record, of those of one cycle the one of lowest die, cause, cell and port. A
key command runs until the next tick (log entry 48). It concludes that exec answers a next state, under conditions on state and operands alone, for:
quote, quoteDone, keyAdd, keyClear, macsecCak, dbgLock, faultRecordWrite. -/
def Obligations.TrustAndFaultLog : Prop :=
  ∀ (s : State) (v : View) (p : PartIdx) (j : Fin 4),
    let d := s.dev
    let still := fun (e : Dev) => e.mem = d.mem ∧ e.fab = d.fab ∧ e.srv = d.srv
    let up := d.hostUp (Reg.SEC_CMD v) = true
    let busy := d.secBusy v
    let cmd := fun (e : Dev) f => e.rf (Reg.SEC_CMD v) f
    let wiped := fun (e : Dev) => ∀ i, i < 8 → e.rd (Reg.SEC_KEYBUF v i) = 0
    let q := secPart v p
    let key := d.keybuf v
    let refused := fun (cls cause detail : Nat) (e : Dev) => wiped e ∧ cmd e Fld.SEC_CMD_RESULT = (if busy then 4 else 3) ∧ Recorded d e cls cause detail ∧ e.sec = d.sec ∧ still e ∧ (∀ m i, i < 8 → m < 16 → e.rd (Reg.SEC_MRP m i) = d.rd (Reg.SEC_MRP m i))
    let finished := fun (e : Dev) => wiped e ∧ cmd e Fld.SEC_CMD_OP = 0 ∧ cmd e Fld.SEC_CMD_RESULT = 2 ∧ still e
    let running := fun (op m : Nat) (e : Dev) => cmd e Fld.SEC_CMD_OP = op ∧ cmd e Fld.SEC_CMD_RESULT = 1 ∧ (∀ i : View, e.secCmd i = if i = v then some ⟨op, m, if op = soMacsec then 0 else j, key⟩ else d.secCmd i) ∧
      RegsBut [Reg.SEC_CMD v] d e ∧ still e ∧ e.fltq = d.fltq
    let named := fun (e : Dev) => cmd e Fld.SEC_CMD_P = p ∧ cmd e Fld.SEC_CMD_KSLOT = j
    let slot := fun (e : Dev) m (t : Nat) => (List.range 8).flatMap fun i => toLe 8 (e.rd (Reg.SEC_KEYDIG m t i)).toNat
    let mrp := fun (e : Dev) m => (List.range 8).flatMap fun i => toLe 8 (e.rd (Reg.SEC_MRP m i)).toNat
    (up → busy = false → d.rf Reg.SEC_STAT Fld.SEC_STAT_ID_VALID = 1 → Does (.quote v) s fun e => sget (fun _ => none) e.sec.quotes v = some (d.nonce v) ∧ cmd e Fld.SEC_CMD_OP = 1 ∧ cmd e Fld.SEC_CMD_RESULT = 1 ∧ RegsBut [Reg.SEC_CMD v] d e ∧ still e) ∧
    (up → busy = false → d.rf Reg.SEC_STAT Fld.SEC_STAT_ID_VALID = 0 → d.fltq.length < 64 → Does (.quote v) s (refused cSecurity 0x1412 v)) ∧
    (up → busy = true → d.fltq.length < 64 → Does (.quote v) s (refused cHostProto 0x1421 (v + 0x100 + (v - 1) * 4096))) ∧
    (∀ n, sget (fun _ => none) d.sec.quotes v = some n → Does (.quoteDone v) s fun e => finished e ∧ sget (fun _ => none) e.sec.quotes v = none ∧
      ∀ i, i < 64 → e.rd (Reg.SEC_QUOTE v i) = BitVec.ofNat 64 (leAt (d.quoteBody v n ++ (List.range 132).map (Config.quoteSig d.fresh) ++ zeros 20) (8 * i) 8)) ∧
    (sget (fun _ => none) d.sec.quotes v = (none : Option (List Byte)) → Does (.quoteDone v) s (· = d)) ∧
    (up → busy = false → d.partState q = 2 → (key ≠ zeros 64 → Does (.keyAdd v p j) s fun e => running soKeyAdd q e ∧ named e) ∧
      Does (.keyClear v p j) s (fun e => running soKeyClear q e ∧ named e)) ∧
    (up → d.fltq.length < 64 → ((busy = true ∨ d.partState q ≠ 2 ∨ key = zeros 64) → Does (.keyAdd v p j) s (refused cHostProto 0x1421 (v + 0x200 + q * 4096))) ∧
      ((busy = true ∨ d.partState q ≠ 2) → Does (.keyClear v p j) s (refused cHostProto 0x1421 (v + 0x300 + q * 4096)))) ∧
    (up → busy = false → (v.val = 0 ∨ d.partState (v - 1) = 2) → Does (.macsecCak v) s (running soMacsec (v - 1))) ∧
    (∀ z, d.sec.cmds = [(v.val, some z)] → z.p < 16 → z.j < 4 → s.pending = [] → d.boot.held = false → d.boot.porstLow = false → d.boot.pgAon = true → d.sch.sealing = none → d.tim.frac < 2 ^ 40 →
      ∃ e, step s = .next { s with dev := settle e } ∧ wiped e ∧ cmd e Fld.SEC_CMD_OP = 0 ∧ cmd e Fld.SEC_CMD_RESULT = 2 ∧ e.secCmd v = none ∧ e.mem = d.mem ∧
        (z.op = soKeyAdd → d.partUsable z.p = true → z.key.length = 64 → slot e z.p z.j = z.key ∧ mrp e z.p = sha512 (mrp d z.p ++ z.key)) ∧
        (z.op = soKeyClear → d.partUsable z.p = true → slot e z.p z.j = zeros 64 ∧ mrp e z.p = mrp d z.p) ∧
        (z.op = soMacsec → (v.val = 0 ∨ d.partUsable z.p = true) → sget (fun _ => []) e.sec.cak v = z.key.take 48)) ∧
    (up → d.fltq.length < 64 → (busy = true ∨ (v.val ≠ 0 ∧ d.partState (v - 1) ≠ 2)) → Does (.macsecCak v) s (refused cHostProto 0x1421 (v + 0x400 + (v - 1) * 4096))) ∧
    (v.val = 0 → d.hostUp Reg.SEC_DBG_LOCK = true → Does (.dbgLock v) s fun e => e.rf Reg.SEC_DBG_LOCK Fld.SEC_DBG_LOCK_LOCK = 1 ∧ e.rf Reg.SEC_STAT Fld.SEC_STAT_DBG_LOCKED = 1 ∧ RegsBut [Reg.SEC_DBG_LOCK, Reg.SEC_STAT] d e ∧ OnlyRegs d e) ∧
    (v.val ≠ 0 → Does (.dbgLock v) s (· = d)) ∧
    (∀ r rest, d.fltq = r :: rest →
      let n := d.rf Reg.FLT_STAT Fld.FLT_STAT_WRITTEN
      let same := r :: rest.takeWhile fun y => y.time == r.time
      Does .faultRecordWrite s fun e => ∃ z ∈ same, (∀ y ∈ same, z.rank ≤ y.rank) ∧
        let w := z.w0.toNat
        e.fltq = (r :: rest).erase z ∧ still e ∧ e.rd (Reg.FLT_REC (n % 4096) 0) = z.w0 ∧ e.rd (Reg.FLT_REC (n % 4096) 1) = z.epoch ∧ e.rd (Reg.FLT_REC (n % 4096) 2) = z.time ∧ e.rd (Reg.FLT_REC (n % 4096) 3) = z.detail ∧
        e.rf Reg.FLT_STAT Fld.FLT_STAT_WRITTEN = satAdd 48 n 1 ∧ e.rf (Reg.FLT_CLASS_CNT (w % 256)) cnt48 = satAdd 48 (d.rf (Reg.FLT_CLASS_CNT (w % 256)) cnt48) 1 ∧
        (bit w 61 = true → e.rf (Reg.FLT_PART_CNT (w / 2 ^ 28 % 16)) cnt48 = satAdd 48 (d.rf (Reg.FLT_PART_CNT (w / 2 ^ 28 % 16)) cnt48) 1) ∧ (bit w 61 = false → ∀ m, m < 16 → e.rd (Reg.FLT_PART_CNT m) = d.rd (Reg.FLT_PART_CNT m))) ∧
    (d.fltq = [] → Does .faultRecordWrite s (· = d))

/-! ### The whole block -/

/-- The block takes the command at the front of its queue: a step is that command's effect with the rest of the queue; with an empty queue a tick passes
(log entry 4). -/
def Obligations.AStepRunsTheFrontCommand : Prop :=
  ∀ (c : Instr) (s : State) (rest : List Instr), step { s with pending := c :: rest } = exec c { s with pending := rest } ∧ step { s with pending := [] } = tick { s with pending := [] }

/-- Every command of the table completes in every state, and leaves the queue alone. R405, R406: a tick moves the model's clock on by 0.8 ns (log entry
4); without a supply or held in reset nothing else happens; else SYSTIME advances, by one where neither TRIM nor a slew acts, and never falls back;
the first flit of a packet alone in the mesh enters its first input buffer. -/
def Obligations.EveryCommandCompletesAndTimePasses : Prop :=
  (
    ∀ (c : Instr) (s : State), ∃ t, exec c s = .next t ∧ t.pending = s.pending) ∧
  (
    ∀ (s : State), s.pending = [] → s.dev.tim.frac < 2 ^ 40 →
      let d := s.dev
      ∃ e, step s = .next { s with dev := settle e } ∧ e.ps = d.ps + 800 ∧ (d.boot.held = true ∨ d.boot.porstLow = true ∨ d.boot.pgAon = false → e = { d with ps := d.ps + 800 }) ∧
        (d.boot.held = false → d.boot.porstLow = false → d.boot.pgAon = true → e.mem = d.mem ∧ { e.fab with cells := d.fab.cells } = d.fab ∧ (∀ c, (e.cell c).queues = (d.cell c).queues ∧ (e.cell c).acc = (d.cell c).acc ∧ (e.cell c).vregs = (d.cell c).vregs) ∧ ((d.rd Reg.TIME_TRIM).toNat % 2 ^ 32 = 0 → d.tim.slew = 0 → e.sysTime = d.sysTime + 1) ∧
          (d.sysTime.toNat + 2 < 2 ^ 64 → d.sysTime.toNat ≤ e.sysTime.toNat ∧ e.sysTime.toNat ≤ d.sysTime.toNat + 2) ∧
          (∀ p, d.routers = [] → d.fab.transit = [p] → ∃ f, e.routers = [f] ∧ f.pkt = p ∧ f.toEnter = p.flits - 1 ∧
            ∃ h rest, f.hops = h :: rest ∧ (h.router, h.port) = entryOf p ∧ h.held = 1 ∧ ∀ z ∈ rest, z.held = 0)))

/-- R443, R470, R442, R525 and the register tables: the state after reset. The queue is empty; BOOT_STAT shows stage 1, cause POWER_ON and attempt 1;
memory lists nothing and is in canonical form; no cell, sequencer, image, partition, request or record is there; every level shows. (That PG_AON is
high and PG_MAIN low is the model's choice, log entry 57; memory that reads as zero is log entry 2.) -/
def Obligations.ResetLeavesNothing : Prop :=
  let d := State.reset.dev
  State.reset.pending = [] ∧ d.rd Reg.BOOT_STAT = 0x010000C000000001 ∧ d.rd Reg.PWR_CAP = 0x0000000000440BB8 ∧ d.rd Reg.FLT_STAT = 0 ∧ d.rd Reg.BIST_CTL = 1 ∧ (∀ p, p < 16 → d.partState p = 0) ∧
  (∀ c, c < 64 → d.phase c = phIdle ∧ d.loopState c = lpStopped) ∧ d.mem = [] ∧ Memory.wf d.mem = true ∧ d.fab = ⟨[], [], [], [], [], 1, [], [], []⟩ ∧ d.fltq = [] ∧ d.routers = [] ∧ d.turns = [] ∧ d.out = [] ∧ d.ready = false ∧ Levels d

/-- R17, R26, R369, R403, R412, R425, R432, R437, R507: whatever command ran, or a tick, every level of the next state shows what it is a level of. -/
def Obligations.LevelsFollowEveryStep : Prop := ∀ (s t : State), step s = .next t → Levels t.dev

end
end

