-- ==== Sys2Proof/Laws/Store.lean ====
section
/-!
SUPPORT. Laws of the sparse store: a read after a write, and the canonical form that every write keeps.
-/
namespace Sys2Proof.Machine

variable {α : Type}

theorem sget_sdel_same (dflt : Nat → α) (m : Store α) (k : Nat) : sget dflt (sdel m k) k = dflt k := by
  induction m with
  | nil => rfl
  | cons q m ih =>
    obtain ⟨a, x⟩ := q
    by_cases h : a = k
    · simpa [sdel, h] using ih
    · have h' : ¬ k = a := fun e => h e.symm
      simpa [sdel, h, sget, h'] using ih

theorem sget_sdel_ne (dflt : Nat → α) (m : Store α) (k j : Nat) (h : j ≠ k) : sget dflt (sdel m k) j = sget dflt m j := by
  induction m with
  | nil => rfl
  | cons q m ih =>
    obtain ⟨a, x⟩ := q
    by_cases e : a = k
    · subst e
      simpa [sdel, sget, h] using ih
    · by_cases f : j = a
      · simp [sdel, e, sget, f]
      · simpa [sdel, e, sget, f] using ih

theorem sget_sins_ne (dflt : Nat → α) (m : Store α) (k j : Nat) (v : α) (h : j ≠ k) : sget dflt (sins m k v) j = sget dflt m j := by
  induction m with
  | nil => simp [sins, sget, h]
  | cons q m ih =>
    obtain ⟨a, x⟩ := q
    by_cases e : k < a
    · simp [sins, e, sget, h]
    · simp [sins, e, sget, ih]

theorem sget_sins_same (dflt : Nat → α) (m : Store α) (k : Nat) (v : α) (h : ∀ q ∈ m, q.1 ≠ k) : sget dflt (sins m k v) k = v := by
  induction m with
  | nil => simp [sins, sget]
  | cons q m ih =>
    obtain ⟨a, x⟩ := q
    have ha : k ≠ a := fun e => h (a, x) (by simp) e.symm
    by_cases e : k < a
    · simp [sins, e, sget]
    · simp [sins, e, sget, ha, ih fun q hq => h q (List.mem_cons_of_mem _ hq)]

theorem sdel_keys (m : Store α) (k : Nat) : ∀ q ∈ sdel m k, q.1 ≠ k := by
  intro q hq
  simp [sdel] at hq
  exact hq.2

/-- A read of the key just written gives the value written. -/
@[simp] theorem sget_sput_same [DecidableEq α] (dflt : Nat → α) (m : Store α) (k : Nat) (v : α) : sget dflt (sput dflt m k v) k = v := by
  unfold sput
  split
  next h => rw [sget_sdel_same, h]
  next => exact sget_sins_same dflt _ k v (sdel_keys m k)

/-- A write leaves every other key alone. -/
theorem sget_sput_ne [DecidableEq α] (dflt : Nat → α) (m : Store α) (k j : Nat) (v : α) (h : j ≠ k) :
    sget dflt (sput dflt m k v) j = sget dflt m j := by
  unfold sput
  split
  · exact sget_sdel_ne dflt m k j h
  · rw [sget_sins_ne dflt _ k j v h, sget_sdel_ne dflt m k j h]

/-! ### The canonical form -/

theorem swfFrom_mono [DecidableEq α] (dflt : Nat → α) (m : Store α) (a b : Nat) (h : a ≤ b) (w : swfFrom dflt b m = true) : swfFrom dflt a m = true := by
  cases m with
  | nil => rfl
  | cons q m =>
    obtain ⟨c, x⟩ := q
    simp [swfFrom] at w ⊢
    exact ⟨⟨by omega, w.1.2⟩, w.2⟩

theorem swfFrom_sdel [DecidableEq α] (dflt : Nat → α) (m : Store α) (k lo : Nat) (w : swfFrom dflt lo m = true) : swfFrom dflt lo (sdel m k) = true := by
  induction m generalizing lo with
  | nil => rfl
  | cons q m ih =>
    obtain ⟨a, x⟩ := q
    simp [swfFrom] at w
    by_cases e : a = k
    · have := swfFrom_mono dflt (sdel m k) lo (a + 1) (by omega) (ih (a + 1) w.2)
      simpa [sdel, e] using this
    · have := ih (a + 1) w.2
      have h2 : sdel ((a, x) :: m) k = (a, x) :: sdel m k := by simp [sdel, e]
      rw [h2]
      simp [swfFrom]
      exact ⟨w.1, this⟩

theorem swfFrom_sins [DecidableEq α] (dflt : Nat → α) (m : Store α) (k lo : Nat) (v : α) (hk : lo ≤ k) (hv : v ≠ dflt k)
    (w : swfFrom dflt lo m = true) (hm : ∀ q ∈ m, q.1 ≠ k) : swfFrom dflt lo (sins m k v) = true := by
  induction m generalizing lo with
  | nil => simp [sins, swfFrom, hk, hv]
  | cons q m ih =>
    obtain ⟨a, x⟩ := q
    simp [swfFrom] at w
    have ha : a ≠ k := hm (a, x) (by simp)
    by_cases e : k < a
    · simp [sins, e, swfFrom, hk, hv, w.1.2, w.2, Nat.succ_le_of_lt e]
    · have := ih (a + 1) (by omega) w.2 fun q hq => hm q (List.mem_cons_of_mem _ hq)
      simp [sins, e, swfFrom, w.1, this]

/-- Every write of a store keeps its canonical form. -/
theorem swf_sput [DecidableEq α] (dflt : Nat → α) (m : Store α) (k : Nat) (v : α) (w : swf dflt m = true) : swf dflt (sput dflt m k v) = true := by
  unfold swf at w ⊢
  unfold sput
  split
  · exact swfFrom_sdel dflt m k 0 w
  next h => exact swfFrom_sins dflt _ k 0 v (Nat.zero_le _) h (swfFrom_sdel dflt m k 0 w) (sdel_keys m k)

theorem swfFrom_filter [DecidableEq α] (dflt : Nat → α) (t : Nat × α → Bool) (m : Store α) (lo : Nat) (w : swfFrom dflt lo m = true) :
    swfFrom dflt lo (m.filter t) = true := by
  induction m generalizing lo with
  | nil => rfl
  | cons q m ih =>
    obtain ⟨a, x⟩ := q
    simp [swfFrom] at w
    cases e : t (a, x) with
    | false =>
      have := swfFrom_mono dflt (m.filter t) lo (a + 1) (by omega) (ih (a + 1) w.2)
      simpa [e] using this
    | true =>
      have := ih (a + 1) w.2
      simp [e, swfFrom, w.1, this]

/-- Dropping entries keeps the canonical form. -/
theorem swf_filter [DecidableEq α] (dflt : Nat → α) (t : Nat × α → Bool) (m : Store α) (w : swf dflt m = true) : swf dflt (m.filter t) = true :=
  swfFrom_filter dflt t m 0 w

/-! ### Memory (R169) -/

/-- Every memory operation keeps the canonical form: one byte written. -/
theorem setByte_wf (d : Dev) (a : Nat) (v : Byte) (w : Memory.wf d.mem = true) : Memory.wf (d.setByte a v).mem = true :=
  swf_sput _ d.mem a v w

/-- Bytes written from an address on. -/
theorem setBytes_wf (d : Dev) (a : Nat) (bs : List Byte) (w : Memory.wf d.mem = true) : Memory.wf (d.setBytes a bs).mem = true := by
  induction bs generalizing d a with
  | nil => exact w
  | cons b bs ih => exact ih (d.setByte a b) (a + 1) (setByte_wf d a b w)

/-- A number written in little-endian bytes. -/
theorem setNum_wf (d : Dev) (a n v : Nat) (w : Memory.wf d.mem = true) : Memory.wf (d.setNum a n v).mem = true := setBytes_wf d a _ w

@[simp] theorem byte_setByte_same (d : Dev) (a : Nat) (v : Byte) : (d.setByte a v).byte a = v := by simp [Dev.byte, Dev.setByte]

theorem byte_setByte_ne (d : Dev) (a b : Nat) (v : Byte) (h : b ≠ a) : (d.setByte a v).byte b = d.byte b := by
  simp [Dev.byte, Dev.setByte, sget_sput_ne _ _ _ _ _ h]

/-- Bytes outside the range written stay. -/
theorem byte_setBytes_out (d : Dev) (a b : Nat) (bs : List Byte) (h : b < a ∨ a + bs.length ≤ b) : (d.setBytes a bs).byte b = d.byte b := by
  induction bs generalizing d a with
  | nil => rfl
  | cons x bs ih =>
    simp at h
    show ((d.setByte a x).setBytes (a + 1) bs).byte b = d.byte b
    rw [ih (d.setByte a x) (a + 1) (by omega), byte_setByte_ne d a b x (by omega)]

/-- Bytes inside the range written read as written. -/
theorem byte_setBytes_in (d : Dev) (a i : Nat) (bs : List Byte) (h : i < bs.length) : (d.setBytes a bs).byte (a + i) = bs.getD i 0#8 := by
  induction bs generalizing d a i with
  | nil => simp at h
  | cons x bs ih =>
    show ((d.setByte a x).setBytes (a + 1) bs).byte (a + i) = (x :: bs).getD i 0#8
    cases i with
    | zero =>
      rw [byte_setBytes_out _ _ _ _ (by omega)]
      simp
    | succ i =>
      have := ih (d.setByte a x) (a + 1) i (by simpa using h)
      rw [show a + (i + 1) = a + 1 + i by omega, this]
      rfl

end Sys2Proof.Machine
end

