-- ==== Sys2Proof/Laws/Fields.lean ====
section
/-!
SUPPORT. Laws of registers and fields: a field read after a write of the same field, of another field and of another register; what `upd` and `settle`
leave alone.
-/
namespace Sys2Proof.Machine

/-! ### Fields of a word -/

/-- The parts of a number around a field. -/
theorem field_split (V lo w : Nat) : V = V / 2 ^ (lo + w) * 2 ^ (lo + w) + V / 2 ^ lo % 2 ^ w * 2 ^ lo + V % 2 ^ lo := by
  have h1 := Nat.div_add_mod V (2 ^ lo)
  have h2 := Nat.div_add_mod (V / 2 ^ lo) (2 ^ w)
  rw [Nat.div_div_eq_div_mul, ← Nat.pow_add] at h2
  have : 2 ^ (lo + w) = 2 ^ lo * 2 ^ w := Nat.pow_add 2 lo w
  rw [this] at h2 ⊢
  generalize V / (2 ^ lo * 2 ^ w) = q at *
  generalize V / 2 ^ lo % 2 ^ w = m at *
  generalize V % 2 ^ lo = r at *
  generalize V / 2 ^ lo = s at *
  calc V = 2 ^ lo * s + r := h1.symm
    _ = 2 ^ lo * (2 ^ w * q + m) + r := by rw [h2]
    _ = _ := by grind

theorem fset_toNat (v : Word) (f : Fld) (n : Nat) (h : f.lo + f.w ≤ 64) :
    (fset v f n).toNat = v.toNat / 2 ^ (f.lo + f.w) * 2 ^ (f.lo + f.w) + n % 2 ^ f.w * 2 ^ f.lo + v.toNat % 2 ^ f.lo := by
  have hs := field_split v.toNat f.lo f.w
  have hv := v.isLt
  unfold fset fget
  have hr : v.toNat % 2 ^ f.lo < 2 ^ f.lo := Nat.mod_lt _ (Nat.two_pow_pos _)
  have hm : n % 2 ^ f.w < 2 ^ f.w := Nat.mod_lt _ (Nat.two_pow_pos _)
  have e1 : v.toNat - v.toNat / 2 ^ f.lo % 2 ^ f.w * 2 ^ f.lo + n % 2 ^ f.w * 2 ^ f.lo =
      v.toNat / 2 ^ (f.lo + f.w) * 2 ^ (f.lo + f.w) + n % 2 ^ f.w * 2 ^ f.lo + v.toNat % 2 ^ f.lo := by omega
  rw [e1, BitVec.toNat_ofNat]
  apply Nat.mod_eq_of_lt
  have hd : v.toNat / 2 ^ (f.lo + f.w) < 2 ^ (64 - (f.lo + f.w)) := by
    apply Nat.div_lt_of_lt_mul
    rw [← Nat.pow_add]
    simpa [Nat.add_sub_cancel' h] using hv
  have h64 : (2 : Nat) ^ 64 = 2 ^ (64 - (f.lo + f.w)) * 2 ^ (f.lo + f.w) := by rw [← Nat.pow_add, Nat.sub_add_cancel h]
  have hp : (2 : Nat) ^ (f.lo + f.w) = 2 ^ f.w * 2 ^ f.lo := by rw [Nat.add_comm, Nat.pow_add]
  have a1 : (v.toNat / 2 ^ (f.lo + f.w) + 1) * 2 ^ (f.lo + f.w) ≤ 2 ^ 64 := by rw [h64]; exact Nat.mul_le_mul_right _ hd
  have a2 : (n % 2 ^ f.w + 1) * 2 ^ f.lo ≤ 2 ^ (f.lo + f.w) := by rw [hp]; exact Nat.mul_le_mul_right _ hm
  rw [Nat.add_mul, Nat.one_mul] at a1 a2
  omega

theorem fget_fset_same (v : Word) (f : Fld) (n : Nat) (h : f.lo + f.w ≤ 64) : fget (fset v f n) f = n % 2 ^ f.w := by
  unfold fget
  rw [fset_toNat v f n h]
  have hr : v.toNat % 2 ^ f.lo < 2 ^ f.lo := Nat.mod_lt _ (Nat.two_pow_pos _)
  have hm : n % 2 ^ f.w < 2 ^ f.w := Nat.mod_lt _ (Nat.two_pow_pos _)
  generalize v.toNat / 2 ^ (f.lo + f.w) = q
  rw [show q * 2 ^ (f.lo + f.w) + n % 2 ^ f.w * 2 ^ f.lo + v.toNat % 2 ^ f.lo = v.toNat % 2 ^ f.lo + 2 ^ f.lo * (n % 2 ^ f.w + 2 ^ f.w * q) by
    rw [Nat.pow_add]; grind]
  rw [Nat.add_mul_div_left _ _ (Nat.two_pow_pos _), Nat.div_eq_of_lt hr, Nat.zero_add, Nat.add_mul_mod_self_left, Nat.mod_mod]

theorem fget_fset_below (v : Word) (f g : Fld) (n : Nat) (h : f.lo + f.w ≤ 64) (hg : g.lo + g.w ≤ f.lo) : fget (fset v f n) g = fget v g := by
  unfold fget
  rw [fset_toNat v f n h]
  obtain ⟨k, hk⟩ := Nat.exists_eq_add_of_le hg
  have hp : (2 : Nat) ^ f.lo = 2 ^ g.lo * (2 ^ g.w * 2 ^ k) := by rw [hk, Nat.pow_add, Nat.pow_add, Nat.mul_assoc]
  have key : ∀ q m r : Nat, (q * 2 ^ (f.lo + f.w) + m * 2 ^ f.lo + r) / 2 ^ g.lo % 2 ^ g.w = r / 2 ^ g.lo % 2 ^ g.w := by
    intro q m r
    rw [show q * 2 ^ (f.lo + f.w) + m * 2 ^ f.lo + r = r + 2 ^ g.lo * (2 ^ g.w * (2 ^ k * (q * 2 ^ f.w + m))) by rw [Nat.pow_add, hp]; grind]
    rw [Nat.add_mul_div_left _ _ (Nat.two_pow_pos _), Nat.add_mul_mod_self_left]
  have e := congrArg (fun z => z / 2 ^ g.lo % 2 ^ g.w) (field_split v.toNat f.lo f.w)
  rw [e, key, key]

theorem fget_fset_above (v : Word) (f g : Fld) (n : Nat) (h : f.lo + f.w ≤ 64) (hg : f.lo + f.w ≤ g.lo) : fget (fset v f n) g = fget v g := by
  unfold fget
  rw [fset_toNat v f n h]
  obtain ⟨k, hk⟩ := Nat.exists_eq_add_of_le hg
  have hr : v.toNat % 2 ^ f.lo < 2 ^ f.lo := Nat.mod_lt _ (Nat.two_pow_pos _)
  have hm : n % 2 ^ f.w < 2 ^ f.w := Nat.mod_lt _ (Nat.two_pow_pos _)
  have hm2 : v.toNat / 2 ^ f.lo % 2 ^ f.w < 2 ^ f.w := Nat.mod_lt _ (Nat.two_pow_pos _)
  have hp : (2 : Nat) ^ (f.lo + f.w) = 2 ^ f.w * 2 ^ f.lo := by rw [Nat.add_comm, Nat.pow_add]
  have key : ∀ q m r : Nat, m < 2 ^ f.w → r < 2 ^ f.lo → (q * 2 ^ (f.lo + f.w) + m * 2 ^ f.lo + r) / 2 ^ g.lo = q / 2 ^ k := by
    intro q m r h1 h2
    have h3 : (m + 1) * 2 ^ f.lo ≤ 2 ^ (f.lo + f.w) := by rw [hp]; exact Nat.mul_le_mul_right _ h1
    rw [Nat.add_mul, Nat.one_mul] at h3
    rw [hk, Nat.pow_add 2 (f.lo + f.w) k, ← Nat.div_div_eq_div_mul]
    rw [show q * 2 ^ (f.lo + f.w) + m * 2 ^ f.lo + r = (m * 2 ^ f.lo + r) + 2 ^ (f.lo + f.w) * q by grind]
    rw [Nat.add_mul_div_left _ _ (Nat.two_pow_pos _), Nat.div_eq_of_lt (Nat.lt_of_lt_of_le (Nat.add_lt_add_left h2 _) h3), Nat.zero_add]
  have e := congrArg (fun z => z / 2 ^ g.lo) (field_split v.toNat f.lo f.w)
  rw [e, key _ _ _ hm hr, key _ _ _ hm2 hr]

theorem fget_fset_ne (v : Word) (f g : Fld) (n : Nat) (h : f.lo + f.w ≤ 64) (hg : g.lo + g.w ≤ f.lo ∨ f.lo + f.w ≤ g.lo) :
    fget (fset v f n) g = fget v g := hg.elim (fget_fset_below v f g n h) (fget_fset_above v f g n h)

/-! ### Registers -/

@[simp] theorem rd_wr_same (d : Dev) (off : Nat) (v : Word) : (d.wr off v).rd off = v := by simp [Dev.rd, Dev.wr]

theorem rd_wr_ne (d : Dev) (off o : Nat) (v : Word) (h : o ≠ off) : (d.wr off v).rd o = d.rd o := by
  simp [Dev.rd, Dev.wr, sget_sput_ne _ _ _ _ _ h]

/-- A register other than the one written keeps its value. -/
theorem rd_wf_ne (d : Dev) (off o : Nat) (f : Fld) (n : Nat) (h : o ≠ off) : (d.wf off f n).rd o = d.rd o := rd_wr_ne d off o _ h

/-- A field just written reads as written, modulo its width. -/
theorem rf_wf_same (d : Dev) (off : Nat) (f : Fld) (n : Nat) (h : f.lo + f.w ≤ 64) : (d.wf off f n).rf off f = n % 2 ^ f.w := by
  simp [Dev.rf, Dev.wf, fget_fset_same _ _ _ h]

/-- Two fields that share no bit. -/
def apart (f g : Fld) : Prop := g.lo + g.w ≤ f.lo ∨ f.lo + f.w ≤ g.lo

/-- A field of another register, or one apart from the field written, keeps its value. -/
theorem rf_wf_ne (d : Dev) (off o : Nat) (f g : Fld) (n : Nat) (h : f.lo + f.w ≤ 64) (hg : o ≠ off ∨ apart f g) :
    (d.wf off f n).rf o g = d.rf o g := by
  by_cases e : o = off
  · subst e
    have ha := hg.resolve_left (by simp)
    simp [Dev.rf, Dev.wf, fget_fset_ne _ f g n h ha]
  · simp [Dev.rf, rd_wf_ne d off o f n e]

theorem rf_wr_ne (d : Dev) (off o : Nat) (v : Word) (g : Fld) (h : o ≠ off) : (d.wr off v).rf o g = d.rf o g := by
  simp [Dev.rf, rd_wr_ne d off o v h]

/-! ### Several fields at once -/

theorem upd_nil (d : Dev) : d.upd [] = d := rfl
theorem upd_cons (d : Dev) (u : Nat × Fld × Nat) (us : List (Nat × Fld × Nat)) : d.upd (u :: us) = (d.wf u.1 u.2.1 u.2.2).upd us := rfl

/-- Field updates change registers only. -/
theorem upd_frame (d : Dev) (us : List (Nat × Fld × Nat)) : d.upd us = { d with regs := (d.upd us).regs } := by
  induction us generalizing d with
  | nil => rfl
  | cons u us ih =>
    rw [upd_cons, ih]
    rfl

theorem upd_rd_ne (d : Dev) (us : List (Nat × Fld × Nat)) (off : Nat) (h : ∀ u ∈ us, u.1 ≠ off) : (d.upd us).rd off = d.rd off := by
  induction us generalizing d with
  | nil => rfl
  | cons u us ih =>
    rw [upd_cons, ih _ fun w hw => h w (List.mem_cons_of_mem _ hw)]
    exact rd_wf_ne d u.1 off _ _ fun e => h u (by simp) e.symm

theorem upd_rf_ne (d : Dev) (us : List (Nat × Fld × Nat)) (off : Nat) (g : Fld)
    (h : ∀ u ∈ us, u.2.1.lo + u.2.1.w ≤ 64 ∧ (off ≠ u.1 ∨ apart u.2.1 g)) : (d.upd us).rf off g = d.rf off g := by
  induction us generalizing d with
  | nil => rfl
  | cons u us ih =>
    rw [upd_cons, ih _ fun w hw => h w (List.mem_cons_of_mem _ hw)]
    exact rf_wf_ne d u.1 off _ _ _ (h u (by simp)).1 (h u (by simp)).2

@[simp] theorem upd_mem (d : Dev) (us : List (Nat × Fld × Nat)) : (d.upd us).mem = d.mem := by rw [upd_frame]
@[simp] theorem upd_fab (d : Dev) (us : List (Nat × Fld × Nat)) : (d.upd us).fab = d.fab := by rw [upd_frame]
@[simp] theorem upd_img (d : Dev) (us : List (Nat × Fld × Nat)) : (d.upd us).img = d.img := by rw [upd_frame]
@[simp] theorem upd_ldr (d : Dev) (us : List (Nat × Fld × Nat)) : (d.upd us).ldr = d.ldr := by rw [upd_frame]
@[simp] theorem upd_srv (d : Dev) (us : List (Nat × Fld × Nat)) : (d.upd us).srv = d.srv := by rw [upd_frame]
@[simp] theorem upd_xpt (d : Dev) (us : List (Nat × Fld × Nat)) : (d.upd us).xpt = d.xpt := by rw [upd_frame]
@[simp] theorem upd_sch (d : Dev) (us : List (Nat × Fld × Nat)) : (d.upd us).sch = d.sch := by rw [upd_frame]
@[simp] theorem upd_lnk (d : Dev) (us : List (Nat × Fld × Nat)) : (d.upd us).lnk = d.lnk := by rw [upd_frame]
@[simp] theorem upd_ring (d : Dev) (us : List (Nat × Fld × Nat)) : (d.upd us).ring = d.ring := by rw [upd_frame]
@[simp] theorem upd_hp (d : Dev) (us : List (Nat × Fld × Nat)) : (d.upd us).hp = d.hp := by rw [upd_frame]
@[simp] theorem upd_qps (d : Dev) (us : List (Nat × Fld × Nat)) : (d.upd us).qps = d.qps := by rw [upd_frame]
@[simp] theorem upd_clk (d : Dev) (us : List (Nat × Fld × Nat)) : (d.upd us).clk = d.clk := by rw [upd_frame]
@[simp] theorem upd_tim (d : Dev) (us : List (Nat × Fld × Nat)) : (d.upd us).tim = d.tim := by rw [upd_frame]
@[simp] theorem upd_pwr (d : Dev) (us : List (Nat × Fld × Nat)) : (d.upd us).pwr = d.pwr := by rw [upd_frame]
@[simp] theorem upd_boot (d : Dev) (us : List (Nat × Fld × Nat)) : (d.upd us).boot = d.boot := by rw [upd_frame]
@[simp] theorem upd_psr (d : Dev) (us : List (Nat × Fld × Nat)) : (d.upd us).psr = d.psr := by rw [upd_frame]
@[simp] theorem upd_bist (d : Dev) (us : List (Nat × Fld × Nat)) : (d.upd us).bist = d.bist := by rw [upd_frame]
@[simp] theorem upd_sec (d : Dev) (us : List (Nat × Fld × Nat)) : (d.upd us).sec = d.sec := by rw [upd_frame]
@[simp] theorem upd_fltq (d : Dev) (us : List (Nat × Fld × Nat)) : (d.upd us).fltq = d.fltq := by rw [upd_frame]
@[simp] theorem upd_out (d : Dev) (us : List (Nat × Fld × Nat)) : (d.upd us).out = d.out := by rw [upd_frame]
@[simp] theorem upd_fresh (d : Dev) (us : List (Nat × Fld × Nat)) : (d.upd us).fresh = d.fresh := by rw [upd_frame]
@[simp] theorem upd_ps (d : Dev) (us : List (Nat × Fld × Nat)) : (d.upd us).ps = d.ps := by rw [upd_frame]
@[simp] theorem upd_alertLow (d : Dev) (us : List (Nat × Fld × Nat)) : (d.upd us).alertLow = d.alertLow := by rw [upd_frame]
@[simp] theorem upd_tripLow (d : Dev) (us : List (Nat × Fld × Nat)) : (d.upd us).tripLow = d.tripLow := by rw [upd_frame]

/-! ### Settling -/

@[simp] theorem settle_mem (d : Dev) : (settle d).mem = d.mem := by simp [settle, Dev.settle3, Dev.settle2, Dev.settle1]
@[simp] theorem settle_fab (d : Dev) : (settle d).fab = d.fab := by simp [settle, Dev.settle3, Dev.settle2, Dev.settle1]
@[simp] theorem settle_img (d : Dev) : (settle d).img = d.img := by simp [settle, Dev.settle3, Dev.settle2, Dev.settle1]
@[simp] theorem settle_ldr (d : Dev) : (settle d).ldr = d.ldr := by simp [settle, Dev.settle3, Dev.settle2, Dev.settle1]
@[simp] theorem settle_srv (d : Dev) : (settle d).srv = d.srv := by simp [settle, Dev.settle3, Dev.settle2, Dev.settle1]
@[simp] theorem settle_xpt (d : Dev) : (settle d).xpt = d.xpt := by simp [settle, Dev.settle3, Dev.settle2, Dev.settle1]
@[simp] theorem settle_sch (d : Dev) : (settle d).sch = d.sch := by simp [settle, Dev.settle3, Dev.settle2, Dev.settle1]
@[simp] theorem settle_lnk (d : Dev) : (settle d).lnk = d.lnk := by simp [settle, Dev.settle3, Dev.settle2, Dev.settle1]
@[simp] theorem settle_ring (d : Dev) : (settle d).ring = d.ring := by simp [settle, Dev.settle3, Dev.settle2, Dev.settle1]
@[simp] theorem settle_hp (d : Dev) : (settle d).hp = d.hp := by simp [settle, Dev.settle3, Dev.settle2, Dev.settle1]
@[simp] theorem settle_qps (d : Dev) : (settle d).qps = d.qps := by simp [settle, Dev.settle3, Dev.settle2, Dev.settle1]
@[simp] theorem settle_clk (d : Dev) : (settle d).clk = d.clk := by simp [settle, Dev.settle3, Dev.settle2, Dev.settle1]
@[simp] theorem settle_tim (d : Dev) : (settle d).tim = d.tim := by simp [settle, Dev.settle3, Dev.settle2, Dev.settle1]
@[simp] theorem settle_pwr (d : Dev) : (settle d).pwr = d.pwr := by simp [settle, Dev.settle3, Dev.settle2, Dev.settle1]
@[simp] theorem settle_boot (d : Dev) : (settle d).boot = d.boot := by simp [settle, Dev.settle3, Dev.settle2, Dev.settle1]
@[simp] theorem settle_psr (d : Dev) : (settle d).psr = d.psr := by simp [settle, Dev.settle3, Dev.settle2, Dev.settle1]
@[simp] theorem settle_bist (d : Dev) : (settle d).bist = d.bist := by simp [settle, Dev.settle3, Dev.settle2, Dev.settle1]
@[simp] theorem settle_sec (d : Dev) : (settle d).sec = d.sec := by simp [settle, Dev.settle3, Dev.settle2, Dev.settle1]
@[simp] theorem settle_fltq (d : Dev) : (settle d).fltq = d.fltq := by simp [settle, Dev.settle3, Dev.settle2, Dev.settle1]
@[simp] theorem settle_out (d : Dev) : (settle d).out = d.out := by simp [settle, Dev.settle3, Dev.settle2, Dev.settle1]
@[simp] theorem settle_fresh (d : Dev) : (settle d).fresh = d.fresh := by simp [settle, Dev.settle3, Dev.settle2, Dev.settle1]
@[simp] theorem settle_ps (d : Dev) : (settle d).ps = d.ps := by simp [settle, Dev.settle3, Dev.settle2, Dev.settle1]

theorem rd_congr {d e : Dev} (h : d.regs = e.regs) (off : Nat) : d.rd off = e.rd off := by rw [Dev.rd, Dev.rd, h]

theorem upd_rd_low (e : Dev) (us : List (Nat × Fld × Nat)) (off : Nat) (h : 0x400000 ≤ off) (hb : off ≠ Reg.LNK_BROOD_STAT)
    (hu : ∀ u ∈ us, u.1 < 0x400000 ∨ u.1 = Reg.LNK_BROOD_STAT) : (e.upd us).rd off = e.rd off := by
  refine upd_rd_ne e us off fun u hm => ?_
  rcases hu u hm with a | a
  · omega
  · exact fun x => hb (x.symm.trans a)

theorem settle3_rd (e : Dev) (off : Nat) (h : 0x400000 ≤ off) (hb : off ≠ Reg.LNK_BROOD_STAT) : e.settle3.rd off = e.rd off := by
  have : e.settle3.regs = (e.upd [(Reg.PWR_STAT, Fld.PWR_STAT_ALERT, b2n (e.alertWanted && !e.pinsFree))]).regs := by
    unfold Dev.settle3
    with_reducible rfl
  rw [rd_congr this]
  refine upd_rd_low e _ off h hb fun u hu => ?_
  rw [List.mem_singleton] at hu
  rw [hu]
  simp only [Reg.PWR_STAT]
  omega

theorem settle1_rd (e : Dev) (off : Nat) (h : 0x400000 ≤ off) (hb : off ≠ Reg.LNK_BROOD_STAT) : e.settle1.rd off = e.rd off := by
  rw [Dev.settle1]
  refine upd_rd_low e _ off h hb fun u hu => ?_
  rcases List.mem_append.mp hu with hu | hu
  · obtain ⟨k, hk, rfl⟩ := List.mem_map.mp hu
    have := List.mem_range.mp hk
    simp only [Reg.CLK_COMB_PS]
    omega
  · rw [List.mem_singleton] at hu
    rw [hu]
    simp only [Reg.TIME_STAT]
    omega

theorem settle2_rd (e : Dev) (off : Nat) (h : 0x400000 ≤ off) (hb : off ≠ Reg.LNK_BROOD_STAT) : e.settle2.rd off = e.rd off := by
  rw [Dev.settle2]
  refine upd_rd_low e _ off h hb fun u hu => ?_
  rcases List.mem_append.mp hu with hu | hu
  · obtain ⟨k, hk, hu⟩ := List.mem_flatMap.mp hu
    have := List.mem_range.mp hk
    simp only [List.mem_cons, List.not_mem_nil, or_false] at hu
    rcases hu with rfl | rfl <;> simp only [Reg.PWR_COMB] <;> omega
  · simp only [List.mem_cons, List.not_mem_nil, or_false] at hu
    rcases hu with rfl | rfl | rfl | rfl | rfl | rfl | rfl | rfl | rfl <;>
      simp only [Reg.LNK_BROOD_STAT, Reg.TIME_STAT, Reg.PWR_STAT, Reg.GLB_LEVEL, Reg.GLB_DIE_PWR, or_true] <;> omega

/-- The registers that settling recomputes lie in CLK, TIME, PWR and GLB, but for LNK_BROOD_STAT. -/
theorem settle_rd (d : Dev) (off : Nat) (h : 0x400000 ≤ off) (hb : off ≠ Reg.LNK_BROOD_STAT) : (settle d).rd off = d.rd off := by
  rw [settle, settle3_rd _ _ h hb, settle2_rd _ _ h hb, settle1_rd _ _ h hb]

theorem settle_rf (d : Dev) (off : Nat) (g : Fld) (h : 0x400000 ≤ off) (hb : off ≠ Reg.LNK_BROOD_STAT) : (settle d).rf off g = d.rf off g := by
  simp [Dev.rf, settle_rd d off h hb]

end Sys2Proof.Machine
end

