-- ==== Sys2Proof/Laws/State.lean ====
section
/-!
SUPPORT. Laws of the state: what each setter of the device leaves alone, one lemma per field and setter, and that what it writes reads back.
-/
namespace Sys2Proof.Machine


/-! ### wr -/

@[simp] theorem wr_mem (d : Dev) (o : Nat) (v : Word) : (d.wr o v).mem = d.mem := rfl
@[simp] theorem wr_fab (d : Dev) (o : Nat) (v : Word) : (d.wr o v).fab = d.fab := rfl
@[simp] theorem wr_img (d : Dev) (o : Nat) (v : Word) : (d.wr o v).img = d.img := rfl
@[simp] theorem wr_ldr (d : Dev) (o : Nat) (v : Word) : (d.wr o v).ldr = d.ldr := rfl
@[simp] theorem wr_srv (d : Dev) (o : Nat) (v : Word) : (d.wr o v).srv = d.srv := rfl
@[simp] theorem wr_xpt (d : Dev) (o : Nat) (v : Word) : (d.wr o v).xpt = d.xpt := rfl
@[simp] theorem wr_sch (d : Dev) (o : Nat) (v : Word) : (d.wr o v).sch = d.sch := rfl
@[simp] theorem wr_lnk (d : Dev) (o : Nat) (v : Word) : (d.wr o v).lnk = d.lnk := rfl
@[simp] theorem wr_ring (d : Dev) (o : Nat) (v : Word) : (d.wr o v).ring = d.ring := rfl
@[simp] theorem wr_hp (d : Dev) (o : Nat) (v : Word) : (d.wr o v).hp = d.hp := rfl
@[simp] theorem wr_qps (d : Dev) (o : Nat) (v : Word) : (d.wr o v).qps = d.qps := rfl
@[simp] theorem wr_clk (d : Dev) (o : Nat) (v : Word) : (d.wr o v).clk = d.clk := rfl
@[simp] theorem wr_tim (d : Dev) (o : Nat) (v : Word) : (d.wr o v).tim = d.tim := rfl
@[simp] theorem wr_pwr (d : Dev) (o : Nat) (v : Word) : (d.wr o v).pwr = d.pwr := rfl
@[simp] theorem wr_boot (d : Dev) (o : Nat) (v : Word) : (d.wr o v).boot = d.boot := rfl
@[simp] theorem wr_psr (d : Dev) (o : Nat) (v : Word) : (d.wr o v).psr = d.psr := rfl
@[simp] theorem wr_bist (d : Dev) (o : Nat) (v : Word) : (d.wr o v).bist = d.bist := rfl
@[simp] theorem wr_sec (d : Dev) (o : Nat) (v : Word) : (d.wr o v).sec = d.sec := rfl
@[simp] theorem wr_fltq (d : Dev) (o : Nat) (v : Word) : (d.wr o v).fltq = d.fltq := rfl
@[simp] theorem wr_alertLow (d : Dev) (o : Nat) (v : Word) : (d.wr o v).alertLow = d.alertLow := rfl
@[simp] theorem wr_tripLow (d : Dev) (o : Nat) (v : Word) : (d.wr o v).tripLow = d.tripLow := rfl
@[simp] theorem wr_out (d : Dev) (o : Nat) (v : Word) : (d.wr o v).out = d.out := rfl
@[simp] theorem wr_fresh (d : Dev) (o : Nat) (v : Word) : (d.wr o v).fresh = d.fresh := rfl
@[simp] theorem wr_ps (d : Dev) (o : Nat) (v : Word) : (d.wr o v).ps = d.ps := rfl
@[simp] theorem wr_read (d : Dev) (o : Nat) (v : Word) : (d.wr o v).rd o = v := sget_sput_same _ _ _ _

/-! ### wf -/

@[simp] theorem wf_mem (d : Dev) (o : Nat) (f : Fld) (n : Nat) : (d.wf o f n).mem = d.mem := rfl
@[simp] theorem wf_fab (d : Dev) (o : Nat) (f : Fld) (n : Nat) : (d.wf o f n).fab = d.fab := rfl
@[simp] theorem wf_img (d : Dev) (o : Nat) (f : Fld) (n : Nat) : (d.wf o f n).img = d.img := rfl
@[simp] theorem wf_ldr (d : Dev) (o : Nat) (f : Fld) (n : Nat) : (d.wf o f n).ldr = d.ldr := rfl
@[simp] theorem wf_srv (d : Dev) (o : Nat) (f : Fld) (n : Nat) : (d.wf o f n).srv = d.srv := rfl
@[simp] theorem wf_xpt (d : Dev) (o : Nat) (f : Fld) (n : Nat) : (d.wf o f n).xpt = d.xpt := rfl
@[simp] theorem wf_sch (d : Dev) (o : Nat) (f : Fld) (n : Nat) : (d.wf o f n).sch = d.sch := rfl
@[simp] theorem wf_lnk (d : Dev) (o : Nat) (f : Fld) (n : Nat) : (d.wf o f n).lnk = d.lnk := rfl
@[simp] theorem wf_ring (d : Dev) (o : Nat) (f : Fld) (n : Nat) : (d.wf o f n).ring = d.ring := rfl
@[simp] theorem wf_hp (d : Dev) (o : Nat) (f : Fld) (n : Nat) : (d.wf o f n).hp = d.hp := rfl
@[simp] theorem wf_qps (d : Dev) (o : Nat) (f : Fld) (n : Nat) : (d.wf o f n).qps = d.qps := rfl
@[simp] theorem wf_clk (d : Dev) (o : Nat) (f : Fld) (n : Nat) : (d.wf o f n).clk = d.clk := rfl
@[simp] theorem wf_tim (d : Dev) (o : Nat) (f : Fld) (n : Nat) : (d.wf o f n).tim = d.tim := rfl
@[simp] theorem wf_pwr (d : Dev) (o : Nat) (f : Fld) (n : Nat) : (d.wf o f n).pwr = d.pwr := rfl
@[simp] theorem wf_boot (d : Dev) (o : Nat) (f : Fld) (n : Nat) : (d.wf o f n).boot = d.boot := rfl
@[simp] theorem wf_psr (d : Dev) (o : Nat) (f : Fld) (n : Nat) : (d.wf o f n).psr = d.psr := rfl
@[simp] theorem wf_bist (d : Dev) (o : Nat) (f : Fld) (n : Nat) : (d.wf o f n).bist = d.bist := rfl
@[simp] theorem wf_sec (d : Dev) (o : Nat) (f : Fld) (n : Nat) : (d.wf o f n).sec = d.sec := rfl
@[simp] theorem wf_fltq (d : Dev) (o : Nat) (f : Fld) (n : Nat) : (d.wf o f n).fltq = d.fltq := rfl
@[simp] theorem wf_alertLow (d : Dev) (o : Nat) (f : Fld) (n : Nat) : (d.wf o f n).alertLow = d.alertLow := rfl
@[simp] theorem wf_tripLow (d : Dev) (o : Nat) (f : Fld) (n : Nat) : (d.wf o f n).tripLow = d.tripLow := rfl
@[simp] theorem wf_out (d : Dev) (o : Nat) (f : Fld) (n : Nat) : (d.wf o f n).out = d.out := rfl
@[simp] theorem wf_fresh (d : Dev) (o : Nat) (f : Fld) (n : Nat) : (d.wf o f n).fresh = d.fresh := rfl
@[simp] theorem wf_ps (d : Dev) (o : Nat) (f : Fld) (n : Nat) : (d.wf o f n).ps = d.ps := rfl

/-! ### addf -/

@[simp] theorem addf_mem (d : Dev) (o : Nat) (f : Fld) (n : Nat) : (d.addf o f n).mem = d.mem := rfl
@[simp] theorem addf_fab (d : Dev) (o : Nat) (f : Fld) (n : Nat) : (d.addf o f n).fab = d.fab := rfl
@[simp] theorem addf_img (d : Dev) (o : Nat) (f : Fld) (n : Nat) : (d.addf o f n).img = d.img := rfl
@[simp] theorem addf_ldr (d : Dev) (o : Nat) (f : Fld) (n : Nat) : (d.addf o f n).ldr = d.ldr := rfl
@[simp] theorem addf_srv (d : Dev) (o : Nat) (f : Fld) (n : Nat) : (d.addf o f n).srv = d.srv := rfl
@[simp] theorem addf_xpt (d : Dev) (o : Nat) (f : Fld) (n : Nat) : (d.addf o f n).xpt = d.xpt := rfl
@[simp] theorem addf_sch (d : Dev) (o : Nat) (f : Fld) (n : Nat) : (d.addf o f n).sch = d.sch := rfl
@[simp] theorem addf_lnk (d : Dev) (o : Nat) (f : Fld) (n : Nat) : (d.addf o f n).lnk = d.lnk := rfl
@[simp] theorem addf_ring (d : Dev) (o : Nat) (f : Fld) (n : Nat) : (d.addf o f n).ring = d.ring := rfl
@[simp] theorem addf_hp (d : Dev) (o : Nat) (f : Fld) (n : Nat) : (d.addf o f n).hp = d.hp := rfl
@[simp] theorem addf_qps (d : Dev) (o : Nat) (f : Fld) (n : Nat) : (d.addf o f n).qps = d.qps := rfl
@[simp] theorem addf_clk (d : Dev) (o : Nat) (f : Fld) (n : Nat) : (d.addf o f n).clk = d.clk := rfl
@[simp] theorem addf_tim (d : Dev) (o : Nat) (f : Fld) (n : Nat) : (d.addf o f n).tim = d.tim := rfl
@[simp] theorem addf_pwr (d : Dev) (o : Nat) (f : Fld) (n : Nat) : (d.addf o f n).pwr = d.pwr := rfl
@[simp] theorem addf_boot (d : Dev) (o : Nat) (f : Fld) (n : Nat) : (d.addf o f n).boot = d.boot := rfl
@[simp] theorem addf_psr (d : Dev) (o : Nat) (f : Fld) (n : Nat) : (d.addf o f n).psr = d.psr := rfl
@[simp] theorem addf_bist (d : Dev) (o : Nat) (f : Fld) (n : Nat) : (d.addf o f n).bist = d.bist := rfl
@[simp] theorem addf_sec (d : Dev) (o : Nat) (f : Fld) (n : Nat) : (d.addf o f n).sec = d.sec := rfl
@[simp] theorem addf_fltq (d : Dev) (o : Nat) (f : Fld) (n : Nat) : (d.addf o f n).fltq = d.fltq := rfl
@[simp] theorem addf_alertLow (d : Dev) (o : Nat) (f : Fld) (n : Nat) : (d.addf o f n).alertLow = d.alertLow := rfl
@[simp] theorem addf_tripLow (d : Dev) (o : Nat) (f : Fld) (n : Nat) : (d.addf o f n).tripLow = d.tripLow := rfl
@[simp] theorem addf_out (d : Dev) (o : Nat) (f : Fld) (n : Nat) : (d.addf o f n).out = d.out := rfl
@[simp] theorem addf_fresh (d : Dev) (o : Nat) (f : Fld) (n : Nat) : (d.addf o f n).fresh = d.fresh := rfl
@[simp] theorem addf_ps (d : Dev) (o : Nat) (f : Fld) (n : Nat) : (d.addf o f n).ps = d.ps := rfl

/-! ### bump -/

@[simp] theorem bump_mem (d : Dev) (o n : Nat) : (d.bump o n).mem = d.mem := rfl
@[simp] theorem bump_fab (d : Dev) (o n : Nat) : (d.bump o n).fab = d.fab := rfl
@[simp] theorem bump_img (d : Dev) (o n : Nat) : (d.bump o n).img = d.img := rfl
@[simp] theorem bump_ldr (d : Dev) (o n : Nat) : (d.bump o n).ldr = d.ldr := rfl
@[simp] theorem bump_srv (d : Dev) (o n : Nat) : (d.bump o n).srv = d.srv := rfl
@[simp] theorem bump_xpt (d : Dev) (o n : Nat) : (d.bump o n).xpt = d.xpt := rfl
@[simp] theorem bump_sch (d : Dev) (o n : Nat) : (d.bump o n).sch = d.sch := rfl
@[simp] theorem bump_lnk (d : Dev) (o n : Nat) : (d.bump o n).lnk = d.lnk := rfl
@[simp] theorem bump_ring (d : Dev) (o n : Nat) : (d.bump o n).ring = d.ring := rfl
@[simp] theorem bump_hp (d : Dev) (o n : Nat) : (d.bump o n).hp = d.hp := rfl
@[simp] theorem bump_qps (d : Dev) (o n : Nat) : (d.bump o n).qps = d.qps := rfl
@[simp] theorem bump_clk (d : Dev) (o n : Nat) : (d.bump o n).clk = d.clk := rfl
@[simp] theorem bump_tim (d : Dev) (o n : Nat) : (d.bump o n).tim = d.tim := rfl
@[simp] theorem bump_pwr (d : Dev) (o n : Nat) : (d.bump o n).pwr = d.pwr := rfl
@[simp] theorem bump_boot (d : Dev) (o n : Nat) : (d.bump o n).boot = d.boot := rfl
@[simp] theorem bump_psr (d : Dev) (o n : Nat) : (d.bump o n).psr = d.psr := rfl
@[simp] theorem bump_bist (d : Dev) (o n : Nat) : (d.bump o n).bist = d.bist := rfl
@[simp] theorem bump_sec (d : Dev) (o n : Nat) : (d.bump o n).sec = d.sec := rfl
@[simp] theorem bump_fltq (d : Dev) (o n : Nat) : (d.bump o n).fltq = d.fltq := rfl
@[simp] theorem bump_alertLow (d : Dev) (o n : Nat) : (d.bump o n).alertLow = d.alertLow := rfl
@[simp] theorem bump_tripLow (d : Dev) (o n : Nat) : (d.bump o n).tripLow = d.tripLow := rfl
@[simp] theorem bump_out (d : Dev) (o n : Nat) : (d.bump o n).out = d.out := rfl
@[simp] theorem bump_fresh (d : Dev) (o n : Nat) : (d.bump o n).fresh = d.fresh := rfl
@[simp] theorem bump_ps (d : Dev) (o n : Nat) : (d.bump o n).ps = d.ps := rfl

/-! ### setByte -/

@[simp] theorem setByte_regs (d : Dev) (a : Nat) (v : Byte) : (d.setByte a v).regs = d.regs := rfl
@[simp] theorem setByte_fab (d : Dev) (a : Nat) (v : Byte) : (d.setByte a v).fab = d.fab := rfl
@[simp] theorem setByte_img (d : Dev) (a : Nat) (v : Byte) : (d.setByte a v).img = d.img := rfl
@[simp] theorem setByte_ldr (d : Dev) (a : Nat) (v : Byte) : (d.setByte a v).ldr = d.ldr := rfl
@[simp] theorem setByte_srv (d : Dev) (a : Nat) (v : Byte) : (d.setByte a v).srv = d.srv := rfl
@[simp] theorem setByte_xpt (d : Dev) (a : Nat) (v : Byte) : (d.setByte a v).xpt = d.xpt := rfl
@[simp] theorem setByte_sch (d : Dev) (a : Nat) (v : Byte) : (d.setByte a v).sch = d.sch := rfl
@[simp] theorem setByte_lnk (d : Dev) (a : Nat) (v : Byte) : (d.setByte a v).lnk = d.lnk := rfl
@[simp] theorem setByte_ring (d : Dev) (a : Nat) (v : Byte) : (d.setByte a v).ring = d.ring := rfl
@[simp] theorem setByte_hp (d : Dev) (a : Nat) (v : Byte) : (d.setByte a v).hp = d.hp := rfl
@[simp] theorem setByte_qps (d : Dev) (a : Nat) (v : Byte) : (d.setByte a v).qps = d.qps := rfl
@[simp] theorem setByte_clk (d : Dev) (a : Nat) (v : Byte) : (d.setByte a v).clk = d.clk := rfl
@[simp] theorem setByte_tim (d : Dev) (a : Nat) (v : Byte) : (d.setByte a v).tim = d.tim := rfl
@[simp] theorem setByte_pwr (d : Dev) (a : Nat) (v : Byte) : (d.setByte a v).pwr = d.pwr := rfl
@[simp] theorem setByte_boot (d : Dev) (a : Nat) (v : Byte) : (d.setByte a v).boot = d.boot := rfl
@[simp] theorem setByte_psr (d : Dev) (a : Nat) (v : Byte) : (d.setByte a v).psr = d.psr := rfl
@[simp] theorem setByte_bist (d : Dev) (a : Nat) (v : Byte) : (d.setByte a v).bist = d.bist := rfl
@[simp] theorem setByte_sec (d : Dev) (a : Nat) (v : Byte) : (d.setByte a v).sec = d.sec := rfl
@[simp] theorem setByte_fltq (d : Dev) (a : Nat) (v : Byte) : (d.setByte a v).fltq = d.fltq := rfl
@[simp] theorem setByte_alertLow (d : Dev) (a : Nat) (v : Byte) : (d.setByte a v).alertLow = d.alertLow := rfl
@[simp] theorem setByte_tripLow (d : Dev) (a : Nat) (v : Byte) : (d.setByte a v).tripLow = d.tripLow := rfl
@[simp] theorem setByte_out (d : Dev) (a : Nat) (v : Byte) : (d.setByte a v).out = d.out := rfl
@[simp] theorem setByte_fresh (d : Dev) (a : Nat) (v : Byte) : (d.setByte a v).fresh = d.fresh := rfl
@[simp] theorem setByte_ps (d : Dev) (a : Nat) (v : Byte) : (d.setByte a v).ps = d.ps := rfl

/-! ### emit -/

@[simp] theorem emit_regs (d : Dev) (o : Output) : (d.emit o).regs = d.regs := rfl
@[simp] theorem emit_mem (d : Dev) (o : Output) : (d.emit o).mem = d.mem := rfl
@[simp] theorem emit_fab (d : Dev) (o : Output) : (d.emit o).fab = d.fab := rfl
@[simp] theorem emit_img (d : Dev) (o : Output) : (d.emit o).img = d.img := rfl
@[simp] theorem emit_ldr (d : Dev) (o : Output) : (d.emit o).ldr = d.ldr := rfl
@[simp] theorem emit_srv (d : Dev) (o : Output) : (d.emit o).srv = d.srv := rfl
@[simp] theorem emit_xpt (d : Dev) (o : Output) : (d.emit o).xpt = d.xpt := rfl
@[simp] theorem emit_sch (d : Dev) (o : Output) : (d.emit o).sch = d.sch := rfl
@[simp] theorem emit_lnk (d : Dev) (o : Output) : (d.emit o).lnk = d.lnk := rfl
@[simp] theorem emit_ring (d : Dev) (o : Output) : (d.emit o).ring = d.ring := rfl
@[simp] theorem emit_hp (d : Dev) (o : Output) : (d.emit o).hp = d.hp := rfl
@[simp] theorem emit_qps (d : Dev) (o : Output) : (d.emit o).qps = d.qps := rfl
@[simp] theorem emit_clk (d : Dev) (o : Output) : (d.emit o).clk = d.clk := rfl
@[simp] theorem emit_tim (d : Dev) (o : Output) : (d.emit o).tim = d.tim := rfl
@[simp] theorem emit_pwr (d : Dev) (o : Output) : (d.emit o).pwr = d.pwr := rfl
@[simp] theorem emit_boot (d : Dev) (o : Output) : (d.emit o).boot = d.boot := rfl
@[simp] theorem emit_psr (d : Dev) (o : Output) : (d.emit o).psr = d.psr := rfl
@[simp] theorem emit_bist (d : Dev) (o : Output) : (d.emit o).bist = d.bist := rfl
@[simp] theorem emit_sec (d : Dev) (o : Output) : (d.emit o).sec = d.sec := rfl
@[simp] theorem emit_fltq (d : Dev) (o : Output) : (d.emit o).fltq = d.fltq := rfl
@[simp] theorem emit_alertLow (d : Dev) (o : Output) : (d.emit o).alertLow = d.alertLow := rfl
@[simp] theorem emit_tripLow (d : Dev) (o : Output) : (d.emit o).tripLow = d.tripLow := rfl
@[simp] theorem emit_fresh (d : Dev) (o : Output) : (d.emit o).fresh = d.fresh := rfl
@[simp] theorem emit_ps (d : Dev) (o : Output) : (d.emit o).ps = d.ps := rfl

/-! ### drawn -/

@[simp] theorem drawn_regs (d : Dev) : (d.drawn).regs = d.regs := rfl
@[simp] theorem drawn_mem (d : Dev) : (d.drawn).mem = d.mem := rfl
@[simp] theorem drawn_fab (d : Dev) : (d.drawn).fab = d.fab := rfl
@[simp] theorem drawn_img (d : Dev) : (d.drawn).img = d.img := rfl
@[simp] theorem drawn_ldr (d : Dev) : (d.drawn).ldr = d.ldr := rfl
@[simp] theorem drawn_srv (d : Dev) : (d.drawn).srv = d.srv := rfl
@[simp] theorem drawn_xpt (d : Dev) : (d.drawn).xpt = d.xpt := rfl
@[simp] theorem drawn_sch (d : Dev) : (d.drawn).sch = d.sch := rfl
@[simp] theorem drawn_lnk (d : Dev) : (d.drawn).lnk = d.lnk := rfl
@[simp] theorem drawn_ring (d : Dev) : (d.drawn).ring = d.ring := rfl
@[simp] theorem drawn_hp (d : Dev) : (d.drawn).hp = d.hp := rfl
@[simp] theorem drawn_qps (d : Dev) : (d.drawn).qps = d.qps := rfl
@[simp] theorem drawn_clk (d : Dev) : (d.drawn).clk = d.clk := rfl
@[simp] theorem drawn_tim (d : Dev) : (d.drawn).tim = d.tim := rfl
@[simp] theorem drawn_pwr (d : Dev) : (d.drawn).pwr = d.pwr := rfl
@[simp] theorem drawn_boot (d : Dev) : (d.drawn).boot = d.boot := rfl
@[simp] theorem drawn_psr (d : Dev) : (d.drawn).psr = d.psr := rfl
@[simp] theorem drawn_bist (d : Dev) : (d.drawn).bist = d.bist := rfl
@[simp] theorem drawn_sec (d : Dev) : (d.drawn).sec = d.sec := rfl
@[simp] theorem drawn_fltq (d : Dev) : (d.drawn).fltq = d.fltq := rfl
@[simp] theorem drawn_alertLow (d : Dev) : (d.drawn).alertLow = d.alertLow := rfl
@[simp] theorem drawn_tripLow (d : Dev) : (d.drawn).tripLow = d.tripLow := rfl
@[simp] theorem drawn_out (d : Dev) : (d.drawn).out = d.out := rfl
@[simp] theorem drawn_ps (d : Dev) : (d.drawn).ps = d.ps := rfl

/-! ### setAtt -/

@[simp] theorem setAtt_regs (d : Dev) (c : Nat) (a : Attempt) : (d.setAtt c a).regs = d.regs := rfl
@[simp] theorem setAtt_mem (d : Dev) (c : Nat) (a : Attempt) : (d.setAtt c a).mem = d.mem := rfl
@[simp] theorem setAtt_fab (d : Dev) (c : Nat) (a : Attempt) : (d.setAtt c a).fab = d.fab := rfl
@[simp] theorem setAtt_img (d : Dev) (c : Nat) (a : Attempt) : (d.setAtt c a).img = d.img := rfl
@[simp] theorem setAtt_ldr (d : Dev) (c : Nat) (a : Attempt) : (d.setAtt c a).ldr = d.ldr := rfl
@[simp] theorem setAtt_xpt (d : Dev) (c : Nat) (a : Attempt) : (d.setAtt c a).xpt = d.xpt := rfl
@[simp] theorem setAtt_sch (d : Dev) (c : Nat) (a : Attempt) : (d.setAtt c a).sch = d.sch := rfl
@[simp] theorem setAtt_lnk (d : Dev) (c : Nat) (a : Attempt) : (d.setAtt c a).lnk = d.lnk := rfl
@[simp] theorem setAtt_ring (d : Dev) (c : Nat) (a : Attempt) : (d.setAtt c a).ring = d.ring := rfl
@[simp] theorem setAtt_hp (d : Dev) (c : Nat) (a : Attempt) : (d.setAtt c a).hp = d.hp := rfl
@[simp] theorem setAtt_qps (d : Dev) (c : Nat) (a : Attempt) : (d.setAtt c a).qps = d.qps := rfl
@[simp] theorem setAtt_clk (d : Dev) (c : Nat) (a : Attempt) : (d.setAtt c a).clk = d.clk := rfl
@[simp] theorem setAtt_tim (d : Dev) (c : Nat) (a : Attempt) : (d.setAtt c a).tim = d.tim := rfl
@[simp] theorem setAtt_pwr (d : Dev) (c : Nat) (a : Attempt) : (d.setAtt c a).pwr = d.pwr := rfl
@[simp] theorem setAtt_boot (d : Dev) (c : Nat) (a : Attempt) : (d.setAtt c a).boot = d.boot := rfl
@[simp] theorem setAtt_psr (d : Dev) (c : Nat) (a : Attempt) : (d.setAtt c a).psr = d.psr := rfl
@[simp] theorem setAtt_bist (d : Dev) (c : Nat) (a : Attempt) : (d.setAtt c a).bist = d.bist := rfl
@[simp] theorem setAtt_sec (d : Dev) (c : Nat) (a : Attempt) : (d.setAtt c a).sec = d.sec := rfl
@[simp] theorem setAtt_fltq (d : Dev) (c : Nat) (a : Attempt) : (d.setAtt c a).fltq = d.fltq := rfl
@[simp] theorem setAtt_alertLow (d : Dev) (c : Nat) (a : Attempt) : (d.setAtt c a).alertLow = d.alertLow := rfl
@[simp] theorem setAtt_tripLow (d : Dev) (c : Nat) (a : Attempt) : (d.setAtt c a).tripLow = d.tripLow := rfl
@[simp] theorem setAtt_out (d : Dev) (c : Nat) (a : Attempt) : (d.setAtt c a).out = d.out := rfl
@[simp] theorem setAtt_fresh (d : Dev) (c : Nat) (a : Attempt) : (d.setAtt c a).fresh = d.fresh := rfl
@[simp] theorem setAtt_ps (d : Dev) (c : Nat) (a : Attempt) : (d.setAtt c a).ps = d.ps := rfl
@[simp] theorem setAtt_read (d : Dev) (c : Nat) (a : Attempt) : (d.setAtt c a).att c = a := sget_sput_same _ _ _ _

/-! ### setHandle -/

@[simp] theorem setHandle_regs (d : Dev) (i : Nat) (h : Handle) : (d.setHandle i h).regs = d.regs := rfl
@[simp] theorem setHandle_mem (d : Dev) (i : Nat) (h : Handle) : (d.setHandle i h).mem = d.mem := rfl
@[simp] theorem setHandle_fab (d : Dev) (i : Nat) (h : Handle) : (d.setHandle i h).fab = d.fab := rfl
@[simp] theorem setHandle_img (d : Dev) (i : Nat) (h : Handle) : (d.setHandle i h).img = d.img := rfl
@[simp] theorem setHandle_ldr (d : Dev) (i : Nat) (h : Handle) : (d.setHandle i h).ldr = d.ldr := rfl
@[simp] theorem setHandle_xpt (d : Dev) (i : Nat) (h : Handle) : (d.setHandle i h).xpt = d.xpt := rfl
@[simp] theorem setHandle_sch (d : Dev) (i : Nat) (h : Handle) : (d.setHandle i h).sch = d.sch := rfl
@[simp] theorem setHandle_lnk (d : Dev) (i : Nat) (h : Handle) : (d.setHandle i h).lnk = d.lnk := rfl
@[simp] theorem setHandle_ring (d : Dev) (i : Nat) (h : Handle) : (d.setHandle i h).ring = d.ring := rfl
@[simp] theorem setHandle_hp (d : Dev) (i : Nat) (h : Handle) : (d.setHandle i h).hp = d.hp := rfl
@[simp] theorem setHandle_qps (d : Dev) (i : Nat) (h : Handle) : (d.setHandle i h).qps = d.qps := rfl
@[simp] theorem setHandle_clk (d : Dev) (i : Nat) (h : Handle) : (d.setHandle i h).clk = d.clk := rfl
@[simp] theorem setHandle_tim (d : Dev) (i : Nat) (h : Handle) : (d.setHandle i h).tim = d.tim := rfl
@[simp] theorem setHandle_pwr (d : Dev) (i : Nat) (h : Handle) : (d.setHandle i h).pwr = d.pwr := rfl
@[simp] theorem setHandle_boot (d : Dev) (i : Nat) (h : Handle) : (d.setHandle i h).boot = d.boot := rfl
@[simp] theorem setHandle_psr (d : Dev) (i : Nat) (h : Handle) : (d.setHandle i h).psr = d.psr := rfl
@[simp] theorem setHandle_bist (d : Dev) (i : Nat) (h : Handle) : (d.setHandle i h).bist = d.bist := rfl
@[simp] theorem setHandle_sec (d : Dev) (i : Nat) (h : Handle) : (d.setHandle i h).sec = d.sec := rfl
@[simp] theorem setHandle_fltq (d : Dev) (i : Nat) (h : Handle) : (d.setHandle i h).fltq = d.fltq := rfl
@[simp] theorem setHandle_alertLow (d : Dev) (i : Nat) (h : Handle) : (d.setHandle i h).alertLow = d.alertLow := rfl
@[simp] theorem setHandle_tripLow (d : Dev) (i : Nat) (h : Handle) : (d.setHandle i h).tripLow = d.tripLow := rfl
@[simp] theorem setHandle_out (d : Dev) (i : Nat) (h : Handle) : (d.setHandle i h).out = d.out := rfl
@[simp] theorem setHandle_fresh (d : Dev) (i : Nat) (h : Handle) : (d.setHandle i h).fresh = d.fresh := rfl
@[simp] theorem setHandle_ps (d : Dev) (i : Nat) (h : Handle) : (d.setHandle i h).ps = d.ps := rfl
@[simp] theorem setHandle_read (d : Dev) (i : Nat) (h : Handle) : (d.setHandle i h).handle i = h := sget_sput_same _ _ _ _

/-! ### setHolds -/

@[simp] theorem setHolds_regs (d : Dev) (c : Nat) (l : List SlotHold) : (d.setHolds c l).regs = d.regs := rfl
@[simp] theorem setHolds_mem (d : Dev) (c : Nat) (l : List SlotHold) : (d.setHolds c l).mem = d.mem := rfl
@[simp] theorem setHolds_fab (d : Dev) (c : Nat) (l : List SlotHold) : (d.setHolds c l).fab = d.fab := rfl
@[simp] theorem setHolds_img (d : Dev) (c : Nat) (l : List SlotHold) : (d.setHolds c l).img = d.img := rfl
@[simp] theorem setHolds_ldr (d : Dev) (c : Nat) (l : List SlotHold) : (d.setHolds c l).ldr = d.ldr := rfl
@[simp] theorem setHolds_xpt (d : Dev) (c : Nat) (l : List SlotHold) : (d.setHolds c l).xpt = d.xpt := rfl
@[simp] theorem setHolds_sch (d : Dev) (c : Nat) (l : List SlotHold) : (d.setHolds c l).sch = d.sch := rfl
@[simp] theorem setHolds_lnk (d : Dev) (c : Nat) (l : List SlotHold) : (d.setHolds c l).lnk = d.lnk := rfl
@[simp] theorem setHolds_ring (d : Dev) (c : Nat) (l : List SlotHold) : (d.setHolds c l).ring = d.ring := rfl
@[simp] theorem setHolds_hp (d : Dev) (c : Nat) (l : List SlotHold) : (d.setHolds c l).hp = d.hp := rfl
@[simp] theorem setHolds_qps (d : Dev) (c : Nat) (l : List SlotHold) : (d.setHolds c l).qps = d.qps := rfl
@[simp] theorem setHolds_clk (d : Dev) (c : Nat) (l : List SlotHold) : (d.setHolds c l).clk = d.clk := rfl
@[simp] theorem setHolds_tim (d : Dev) (c : Nat) (l : List SlotHold) : (d.setHolds c l).tim = d.tim := rfl
@[simp] theorem setHolds_pwr (d : Dev) (c : Nat) (l : List SlotHold) : (d.setHolds c l).pwr = d.pwr := rfl
@[simp] theorem setHolds_boot (d : Dev) (c : Nat) (l : List SlotHold) : (d.setHolds c l).boot = d.boot := rfl
@[simp] theorem setHolds_psr (d : Dev) (c : Nat) (l : List SlotHold) : (d.setHolds c l).psr = d.psr := rfl
@[simp] theorem setHolds_bist (d : Dev) (c : Nat) (l : List SlotHold) : (d.setHolds c l).bist = d.bist := rfl
@[simp] theorem setHolds_sec (d : Dev) (c : Nat) (l : List SlotHold) : (d.setHolds c l).sec = d.sec := rfl
@[simp] theorem setHolds_fltq (d : Dev) (c : Nat) (l : List SlotHold) : (d.setHolds c l).fltq = d.fltq := rfl
@[simp] theorem setHolds_alertLow (d : Dev) (c : Nat) (l : List SlotHold) : (d.setHolds c l).alertLow = d.alertLow := rfl
@[simp] theorem setHolds_tripLow (d : Dev) (c : Nat) (l : List SlotHold) : (d.setHolds c l).tripLow = d.tripLow := rfl
@[simp] theorem setHolds_out (d : Dev) (c : Nat) (l : List SlotHold) : (d.setHolds c l).out = d.out := rfl
@[simp] theorem setHolds_fresh (d : Dev) (c : Nat) (l : List SlotHold) : (d.setHolds c l).fresh = d.fresh := rfl
@[simp] theorem setHolds_ps (d : Dev) (c : Nat) (l : List SlotHold) : (d.setHolds c l).ps = d.ps := rfl
@[simp] theorem setHolds_read (d : Dev) (c : Nat) (l : List SlotHold) : (d.setHolds c l).holds c = l := sget_sput_same _ _ _ _

/-! ### setActivity -/

@[simp] theorem setActivity_regs (d : Dev) (k : Nat) (l : List Nat) : (d.setActivity k l).regs = d.regs := rfl
@[simp] theorem setActivity_mem (d : Dev) (k : Nat) (l : List Nat) : (d.setActivity k l).mem = d.mem := rfl
@[simp] theorem setActivity_fab (d : Dev) (k : Nat) (l : List Nat) : (d.setActivity k l).fab = d.fab := rfl
@[simp] theorem setActivity_img (d : Dev) (k : Nat) (l : List Nat) : (d.setActivity k l).img = d.img := rfl
@[simp] theorem setActivity_ldr (d : Dev) (k : Nat) (l : List Nat) : (d.setActivity k l).ldr = d.ldr := rfl
@[simp] theorem setActivity_srv (d : Dev) (k : Nat) (l : List Nat) : (d.setActivity k l).srv = d.srv := rfl
@[simp] theorem setActivity_xpt (d : Dev) (k : Nat) (l : List Nat) : (d.setActivity k l).xpt = d.xpt := rfl
@[simp] theorem setActivity_lnk (d : Dev) (k : Nat) (l : List Nat) : (d.setActivity k l).lnk = d.lnk := rfl
@[simp] theorem setActivity_ring (d : Dev) (k : Nat) (l : List Nat) : (d.setActivity k l).ring = d.ring := rfl
@[simp] theorem setActivity_hp (d : Dev) (k : Nat) (l : List Nat) : (d.setActivity k l).hp = d.hp := rfl
@[simp] theorem setActivity_qps (d : Dev) (k : Nat) (l : List Nat) : (d.setActivity k l).qps = d.qps := rfl
@[simp] theorem setActivity_clk (d : Dev) (k : Nat) (l : List Nat) : (d.setActivity k l).clk = d.clk := rfl
@[simp] theorem setActivity_tim (d : Dev) (k : Nat) (l : List Nat) : (d.setActivity k l).tim = d.tim := rfl
@[simp] theorem setActivity_pwr (d : Dev) (k : Nat) (l : List Nat) : (d.setActivity k l).pwr = d.pwr := rfl
@[simp] theorem setActivity_boot (d : Dev) (k : Nat) (l : List Nat) : (d.setActivity k l).boot = d.boot := rfl
@[simp] theorem setActivity_psr (d : Dev) (k : Nat) (l : List Nat) : (d.setActivity k l).psr = d.psr := rfl
@[simp] theorem setActivity_bist (d : Dev) (k : Nat) (l : List Nat) : (d.setActivity k l).bist = d.bist := rfl
@[simp] theorem setActivity_sec (d : Dev) (k : Nat) (l : List Nat) : (d.setActivity k l).sec = d.sec := rfl
@[simp] theorem setActivity_fltq (d : Dev) (k : Nat) (l : List Nat) : (d.setActivity k l).fltq = d.fltq := rfl
@[simp] theorem setActivity_alertLow (d : Dev) (k : Nat) (l : List Nat) : (d.setActivity k l).alertLow = d.alertLow := rfl
@[simp] theorem setActivity_tripLow (d : Dev) (k : Nat) (l : List Nat) : (d.setActivity k l).tripLow = d.tripLow := rfl
@[simp] theorem setActivity_out (d : Dev) (k : Nat) (l : List Nat) : (d.setActivity k l).out = d.out := rfl
@[simp] theorem setActivity_fresh (d : Dev) (k : Nat) (l : List Nat) : (d.setActivity k l).fresh = d.fresh := rfl
@[simp] theorem setActivity_ps (d : Dev) (k : Nat) (l : List Nat) : (d.setActivity k l).ps = d.ps := rfl
@[simp] theorem setActivity_read (d : Dev) (k : Nat) (l : List Nat) : (d.setActivity k l).activity k = l := sget_sput_same _ _ _ _

/-! ### setQp -/

@[simp] theorem setQp_regs (d : Dev) (q : Nat) (x : QpSt) : (d.setQp q x).regs = d.regs := rfl
@[simp] theorem setQp_mem (d : Dev) (q : Nat) (x : QpSt) : (d.setQp q x).mem = d.mem := rfl
@[simp] theorem setQp_fab (d : Dev) (q : Nat) (x : QpSt) : (d.setQp q x).fab = d.fab := rfl
@[simp] theorem setQp_img (d : Dev) (q : Nat) (x : QpSt) : (d.setQp q x).img = d.img := rfl
@[simp] theorem setQp_ldr (d : Dev) (q : Nat) (x : QpSt) : (d.setQp q x).ldr = d.ldr := rfl
@[simp] theorem setQp_srv (d : Dev) (q : Nat) (x : QpSt) : (d.setQp q x).srv = d.srv := rfl
@[simp] theorem setQp_xpt (d : Dev) (q : Nat) (x : QpSt) : (d.setQp q x).xpt = d.xpt := rfl
@[simp] theorem setQp_sch (d : Dev) (q : Nat) (x : QpSt) : (d.setQp q x).sch = d.sch := rfl
@[simp] theorem setQp_lnk (d : Dev) (q : Nat) (x : QpSt) : (d.setQp q x).lnk = d.lnk := rfl
@[simp] theorem setQp_ring (d : Dev) (q : Nat) (x : QpSt) : (d.setQp q x).ring = d.ring := rfl
@[simp] theorem setQp_hp (d : Dev) (q : Nat) (x : QpSt) : (d.setQp q x).hp = d.hp := rfl
@[simp] theorem setQp_clk (d : Dev) (q : Nat) (x : QpSt) : (d.setQp q x).clk = d.clk := rfl
@[simp] theorem setQp_tim (d : Dev) (q : Nat) (x : QpSt) : (d.setQp q x).tim = d.tim := rfl
@[simp] theorem setQp_pwr (d : Dev) (q : Nat) (x : QpSt) : (d.setQp q x).pwr = d.pwr := rfl
@[simp] theorem setQp_boot (d : Dev) (q : Nat) (x : QpSt) : (d.setQp q x).boot = d.boot := rfl
@[simp] theorem setQp_psr (d : Dev) (q : Nat) (x : QpSt) : (d.setQp q x).psr = d.psr := rfl
@[simp] theorem setQp_bist (d : Dev) (q : Nat) (x : QpSt) : (d.setQp q x).bist = d.bist := rfl
@[simp] theorem setQp_sec (d : Dev) (q : Nat) (x : QpSt) : (d.setQp q x).sec = d.sec := rfl
@[simp] theorem setQp_fltq (d : Dev) (q : Nat) (x : QpSt) : (d.setQp q x).fltq = d.fltq := rfl
@[simp] theorem setQp_alertLow (d : Dev) (q : Nat) (x : QpSt) : (d.setQp q x).alertLow = d.alertLow := rfl
@[simp] theorem setQp_tripLow (d : Dev) (q : Nat) (x : QpSt) : (d.setQp q x).tripLow = d.tripLow := rfl
@[simp] theorem setQp_out (d : Dev) (q : Nat) (x : QpSt) : (d.setQp q x).out = d.out := rfl
@[simp] theorem setQp_fresh (d : Dev) (q : Nat) (x : QpSt) : (d.setQp q x).fresh = d.fresh := rfl
@[simp] theorem setQp_ps (d : Dev) (q : Nat) (x : QpSt) : (d.setQp q x).ps = d.ps := rfl
@[simp] theorem setQp_read (d : Dev) (q : Nat) (x : QpSt) : (d.setQp q x).qp q = x := sget_sput_same _ _ _ _

/-! ### setHp -/

@[simp] theorem setHp_regs (d : Dev) (e : Nat) (x : HostSt) : (d.setHp e x).regs = d.regs := rfl
@[simp] theorem setHp_mem (d : Dev) (e : Nat) (x : HostSt) : (d.setHp e x).mem = d.mem := rfl
@[simp] theorem setHp_fab (d : Dev) (e : Nat) (x : HostSt) : (d.setHp e x).fab = d.fab := rfl
@[simp] theorem setHp_img (d : Dev) (e : Nat) (x : HostSt) : (d.setHp e x).img = d.img := rfl
@[simp] theorem setHp_ldr (d : Dev) (e : Nat) (x : HostSt) : (d.setHp e x).ldr = d.ldr := rfl
@[simp] theorem setHp_srv (d : Dev) (e : Nat) (x : HostSt) : (d.setHp e x).srv = d.srv := rfl
@[simp] theorem setHp_xpt (d : Dev) (e : Nat) (x : HostSt) : (d.setHp e x).xpt = d.xpt := rfl
@[simp] theorem setHp_sch (d : Dev) (e : Nat) (x : HostSt) : (d.setHp e x).sch = d.sch := rfl
@[simp] theorem setHp_lnk (d : Dev) (e : Nat) (x : HostSt) : (d.setHp e x).lnk = d.lnk := rfl
@[simp] theorem setHp_ring (d : Dev) (e : Nat) (x : HostSt) : (d.setHp e x).ring = d.ring := rfl
@[simp] theorem setHp_qps (d : Dev) (e : Nat) (x : HostSt) : (d.setHp e x).qps = d.qps := rfl
@[simp] theorem setHp_clk (d : Dev) (e : Nat) (x : HostSt) : (d.setHp e x).clk = d.clk := rfl
@[simp] theorem setHp_tim (d : Dev) (e : Nat) (x : HostSt) : (d.setHp e x).tim = d.tim := rfl
@[simp] theorem setHp_pwr (d : Dev) (e : Nat) (x : HostSt) : (d.setHp e x).pwr = d.pwr := rfl
@[simp] theorem setHp_boot (d : Dev) (e : Nat) (x : HostSt) : (d.setHp e x).boot = d.boot := rfl
@[simp] theorem setHp_psr (d : Dev) (e : Nat) (x : HostSt) : (d.setHp e x).psr = d.psr := rfl
@[simp] theorem setHp_bist (d : Dev) (e : Nat) (x : HostSt) : (d.setHp e x).bist = d.bist := rfl
@[simp] theorem setHp_sec (d : Dev) (e : Nat) (x : HostSt) : (d.setHp e x).sec = d.sec := rfl
@[simp] theorem setHp_fltq (d : Dev) (e : Nat) (x : HostSt) : (d.setHp e x).fltq = d.fltq := rfl
@[simp] theorem setHp_alertLow (d : Dev) (e : Nat) (x : HostSt) : (d.setHp e x).alertLow = d.alertLow := rfl
@[simp] theorem setHp_tripLow (d : Dev) (e : Nat) (x : HostSt) : (d.setHp e x).tripLow = d.tripLow := rfl
@[simp] theorem setHp_out (d : Dev) (e : Nat) (x : HostSt) : (d.setHp e x).out = d.out := rfl
@[simp] theorem setHp_fresh (d : Dev) (e : Nat) (x : HostSt) : (d.setHp e x).fresh = d.fresh := rfl
@[simp] theorem setHp_ps (d : Dev) (e : Nat) (x : HostSt) : (d.setHp e x).ps = d.ps := rfl
@[simp] theorem setHp_read (d : Dev) (e : Nat) (x : HostSt) : (d.setHp e x).hostPort e = x := sget_sput_same _ _ _ _

/-! ### setPort -/

@[simp] theorem setPort_regs (d : Dev) (l : Nat) (x : Port) : (d.setPort l x).regs = d.regs := rfl
@[simp] theorem setPort_mem (d : Dev) (l : Nat) (x : Port) : (d.setPort l x).mem = d.mem := rfl
@[simp] theorem setPort_fab (d : Dev) (l : Nat) (x : Port) : (d.setPort l x).fab = d.fab := rfl
@[simp] theorem setPort_img (d : Dev) (l : Nat) (x : Port) : (d.setPort l x).img = d.img := rfl
@[simp] theorem setPort_ldr (d : Dev) (l : Nat) (x : Port) : (d.setPort l x).ldr = d.ldr := rfl
@[simp] theorem setPort_srv (d : Dev) (l : Nat) (x : Port) : (d.setPort l x).srv = d.srv := rfl
@[simp] theorem setPort_xpt (d : Dev) (l : Nat) (x : Port) : (d.setPort l x).xpt = d.xpt := rfl
@[simp] theorem setPort_sch (d : Dev) (l : Nat) (x : Port) : (d.setPort l x).sch = d.sch := rfl
@[simp] theorem setPort_ring (d : Dev) (l : Nat) (x : Port) : (d.setPort l x).ring = d.ring := rfl
@[simp] theorem setPort_hp (d : Dev) (l : Nat) (x : Port) : (d.setPort l x).hp = d.hp := rfl
@[simp] theorem setPort_qps (d : Dev) (l : Nat) (x : Port) : (d.setPort l x).qps = d.qps := rfl
@[simp] theorem setPort_clk (d : Dev) (l : Nat) (x : Port) : (d.setPort l x).clk = d.clk := rfl
@[simp] theorem setPort_tim (d : Dev) (l : Nat) (x : Port) : (d.setPort l x).tim = d.tim := rfl
@[simp] theorem setPort_pwr (d : Dev) (l : Nat) (x : Port) : (d.setPort l x).pwr = d.pwr := rfl
@[simp] theorem setPort_boot (d : Dev) (l : Nat) (x : Port) : (d.setPort l x).boot = d.boot := rfl
@[simp] theorem setPort_psr (d : Dev) (l : Nat) (x : Port) : (d.setPort l x).psr = d.psr := rfl
@[simp] theorem setPort_bist (d : Dev) (l : Nat) (x : Port) : (d.setPort l x).bist = d.bist := rfl
@[simp] theorem setPort_sec (d : Dev) (l : Nat) (x : Port) : (d.setPort l x).sec = d.sec := rfl
@[simp] theorem setPort_fltq (d : Dev) (l : Nat) (x : Port) : (d.setPort l x).fltq = d.fltq := rfl
@[simp] theorem setPort_alertLow (d : Dev) (l : Nat) (x : Port) : (d.setPort l x).alertLow = d.alertLow := rfl
@[simp] theorem setPort_tripLow (d : Dev) (l : Nat) (x : Port) : (d.setPort l x).tripLow = d.tripLow := rfl
@[simp] theorem setPort_out (d : Dev) (l : Nat) (x : Port) : (d.setPort l x).out = d.out := rfl
@[simp] theorem setPort_fresh (d : Dev) (l : Nat) (x : Port) : (d.setPort l x).fresh = d.fresh := rfl
@[simp] theorem setPort_ps (d : Dev) (l : Nat) (x : Port) : (d.setPort l x).ps = d.ps := rfl
@[simp] theorem setPort_read (d : Dev) (l : Nat) (x : Port) : (d.setPort l x).port l = x := sget_sput_same _ _ _ _

/-! ### setFlowTx -/

@[simp] theorem setFlowTx_regs (d : Dev) (n c : Nat) (x : FlowTx) : (d.setFlowTx n c x).regs = d.regs := rfl
@[simp] theorem setFlowTx_mem (d : Dev) (n c : Nat) (x : FlowTx) : (d.setFlowTx n c x).mem = d.mem := rfl
@[simp] theorem setFlowTx_fab (d : Dev) (n c : Nat) (x : FlowTx) : (d.setFlowTx n c x).fab = d.fab := rfl
@[simp] theorem setFlowTx_img (d : Dev) (n c : Nat) (x : FlowTx) : (d.setFlowTx n c x).img = d.img := rfl
@[simp] theorem setFlowTx_ldr (d : Dev) (n c : Nat) (x : FlowTx) : (d.setFlowTx n c x).ldr = d.ldr := rfl
@[simp] theorem setFlowTx_srv (d : Dev) (n c : Nat) (x : FlowTx) : (d.setFlowTx n c x).srv = d.srv := rfl
@[simp] theorem setFlowTx_xpt (d : Dev) (n c : Nat) (x : FlowTx) : (d.setFlowTx n c x).xpt = d.xpt := rfl
@[simp] theorem setFlowTx_sch (d : Dev) (n c : Nat) (x : FlowTx) : (d.setFlowTx n c x).sch = d.sch := rfl
@[simp] theorem setFlowTx_ring (d : Dev) (n c : Nat) (x : FlowTx) : (d.setFlowTx n c x).ring = d.ring := rfl
@[simp] theorem setFlowTx_hp (d : Dev) (n c : Nat) (x : FlowTx) : (d.setFlowTx n c x).hp = d.hp := rfl
@[simp] theorem setFlowTx_qps (d : Dev) (n c : Nat) (x : FlowTx) : (d.setFlowTx n c x).qps = d.qps := rfl
@[simp] theorem setFlowTx_clk (d : Dev) (n c : Nat) (x : FlowTx) : (d.setFlowTx n c x).clk = d.clk := rfl
@[simp] theorem setFlowTx_tim (d : Dev) (n c : Nat) (x : FlowTx) : (d.setFlowTx n c x).tim = d.tim := rfl
@[simp] theorem setFlowTx_pwr (d : Dev) (n c : Nat) (x : FlowTx) : (d.setFlowTx n c x).pwr = d.pwr := rfl
@[simp] theorem setFlowTx_boot (d : Dev) (n c : Nat) (x : FlowTx) : (d.setFlowTx n c x).boot = d.boot := rfl
@[simp] theorem setFlowTx_psr (d : Dev) (n c : Nat) (x : FlowTx) : (d.setFlowTx n c x).psr = d.psr := rfl
@[simp] theorem setFlowTx_bist (d : Dev) (n c : Nat) (x : FlowTx) : (d.setFlowTx n c x).bist = d.bist := rfl
@[simp] theorem setFlowTx_sec (d : Dev) (n c : Nat) (x : FlowTx) : (d.setFlowTx n c x).sec = d.sec := rfl
@[simp] theorem setFlowTx_fltq (d : Dev) (n c : Nat) (x : FlowTx) : (d.setFlowTx n c x).fltq = d.fltq := rfl
@[simp] theorem setFlowTx_alertLow (d : Dev) (n c : Nat) (x : FlowTx) : (d.setFlowTx n c x).alertLow = d.alertLow := rfl
@[simp] theorem setFlowTx_tripLow (d : Dev) (n c : Nat) (x : FlowTx) : (d.setFlowTx n c x).tripLow = d.tripLow := rfl
@[simp] theorem setFlowTx_out (d : Dev) (n c : Nat) (x : FlowTx) : (d.setFlowTx n c x).out = d.out := rfl
@[simp] theorem setFlowTx_fresh (d : Dev) (n c : Nat) (x : FlowTx) : (d.setFlowTx n c x).fresh = d.fresh := rfl
@[simp] theorem setFlowTx_ps (d : Dev) (n c : Nat) (x : FlowTx) : (d.setFlowTx n c x).ps = d.ps := rfl
@[simp] theorem setFlowTx_read (d : Dev) (n c : Nat) (x : FlowTx) : (d.setFlowTx n c x).flowTx n c = x := sget_sput_same _ _ _ _

/-! ### setFlowRx -/

@[simp] theorem setFlowRx_regs (d : Dev) (n c : Nat) (x : FlowRx) : (d.setFlowRx n c x).regs = d.regs := rfl
@[simp] theorem setFlowRx_mem (d : Dev) (n c : Nat) (x : FlowRx) : (d.setFlowRx n c x).mem = d.mem := rfl
@[simp] theorem setFlowRx_fab (d : Dev) (n c : Nat) (x : FlowRx) : (d.setFlowRx n c x).fab = d.fab := rfl
@[simp] theorem setFlowRx_img (d : Dev) (n c : Nat) (x : FlowRx) : (d.setFlowRx n c x).img = d.img := rfl
@[simp] theorem setFlowRx_ldr (d : Dev) (n c : Nat) (x : FlowRx) : (d.setFlowRx n c x).ldr = d.ldr := rfl
@[simp] theorem setFlowRx_srv (d : Dev) (n c : Nat) (x : FlowRx) : (d.setFlowRx n c x).srv = d.srv := rfl
@[simp] theorem setFlowRx_xpt (d : Dev) (n c : Nat) (x : FlowRx) : (d.setFlowRx n c x).xpt = d.xpt := rfl
@[simp] theorem setFlowRx_sch (d : Dev) (n c : Nat) (x : FlowRx) : (d.setFlowRx n c x).sch = d.sch := rfl
@[simp] theorem setFlowRx_ring (d : Dev) (n c : Nat) (x : FlowRx) : (d.setFlowRx n c x).ring = d.ring := rfl
@[simp] theorem setFlowRx_hp (d : Dev) (n c : Nat) (x : FlowRx) : (d.setFlowRx n c x).hp = d.hp := rfl
@[simp] theorem setFlowRx_qps (d : Dev) (n c : Nat) (x : FlowRx) : (d.setFlowRx n c x).qps = d.qps := rfl
@[simp] theorem setFlowRx_clk (d : Dev) (n c : Nat) (x : FlowRx) : (d.setFlowRx n c x).clk = d.clk := rfl
@[simp] theorem setFlowRx_tim (d : Dev) (n c : Nat) (x : FlowRx) : (d.setFlowRx n c x).tim = d.tim := rfl
@[simp] theorem setFlowRx_pwr (d : Dev) (n c : Nat) (x : FlowRx) : (d.setFlowRx n c x).pwr = d.pwr := rfl
@[simp] theorem setFlowRx_boot (d : Dev) (n c : Nat) (x : FlowRx) : (d.setFlowRx n c x).boot = d.boot := rfl
@[simp] theorem setFlowRx_psr (d : Dev) (n c : Nat) (x : FlowRx) : (d.setFlowRx n c x).psr = d.psr := rfl
@[simp] theorem setFlowRx_bist (d : Dev) (n c : Nat) (x : FlowRx) : (d.setFlowRx n c x).bist = d.bist := rfl
@[simp] theorem setFlowRx_sec (d : Dev) (n c : Nat) (x : FlowRx) : (d.setFlowRx n c x).sec = d.sec := rfl
@[simp] theorem setFlowRx_fltq (d : Dev) (n c : Nat) (x : FlowRx) : (d.setFlowRx n c x).fltq = d.fltq := rfl
@[simp] theorem setFlowRx_alertLow (d : Dev) (n c : Nat) (x : FlowRx) : (d.setFlowRx n c x).alertLow = d.alertLow := rfl
@[simp] theorem setFlowRx_tripLow (d : Dev) (n c : Nat) (x : FlowRx) : (d.setFlowRx n c x).tripLow = d.tripLow := rfl
@[simp] theorem setFlowRx_out (d : Dev) (n c : Nat) (x : FlowRx) : (d.setFlowRx n c x).out = d.out := rfl
@[simp] theorem setFlowRx_fresh (d : Dev) (n c : Nat) (x : FlowRx) : (d.setFlowRx n c x).fresh = d.fresh := rfl
@[simp] theorem setFlowRx_ps (d : Dev) (n c : Nat) (x : FlowRx) : (d.setFlowRx n c x).ps = d.ps := rfl
@[simp] theorem setFlowRx_read (d : Dev) (n c : Nat) (x : FlowRx) : (d.setFlowRx n c x).flowRx n c = x := sget_sput_same _ _ _ _

/-! ### setPeer -/

@[simp] theorem setPeer_regs (d : Dev) (n : Nat) (x : Peer) : (d.setPeer n x).regs = d.regs := rfl
@[simp] theorem setPeer_mem (d : Dev) (n : Nat) (x : Peer) : (d.setPeer n x).mem = d.mem := rfl
@[simp] theorem setPeer_fab (d : Dev) (n : Nat) (x : Peer) : (d.setPeer n x).fab = d.fab := rfl
@[simp] theorem setPeer_img (d : Dev) (n : Nat) (x : Peer) : (d.setPeer n x).img = d.img := rfl
@[simp] theorem setPeer_ldr (d : Dev) (n : Nat) (x : Peer) : (d.setPeer n x).ldr = d.ldr := rfl
@[simp] theorem setPeer_srv (d : Dev) (n : Nat) (x : Peer) : (d.setPeer n x).srv = d.srv := rfl
@[simp] theorem setPeer_xpt (d : Dev) (n : Nat) (x : Peer) : (d.setPeer n x).xpt = d.xpt := rfl
@[simp] theorem setPeer_sch (d : Dev) (n : Nat) (x : Peer) : (d.setPeer n x).sch = d.sch := rfl
@[simp] theorem setPeer_ring (d : Dev) (n : Nat) (x : Peer) : (d.setPeer n x).ring = d.ring := rfl
@[simp] theorem setPeer_hp (d : Dev) (n : Nat) (x : Peer) : (d.setPeer n x).hp = d.hp := rfl
@[simp] theorem setPeer_qps (d : Dev) (n : Nat) (x : Peer) : (d.setPeer n x).qps = d.qps := rfl
@[simp] theorem setPeer_clk (d : Dev) (n : Nat) (x : Peer) : (d.setPeer n x).clk = d.clk := rfl
@[simp] theorem setPeer_tim (d : Dev) (n : Nat) (x : Peer) : (d.setPeer n x).tim = d.tim := rfl
@[simp] theorem setPeer_pwr (d : Dev) (n : Nat) (x : Peer) : (d.setPeer n x).pwr = d.pwr := rfl
@[simp] theorem setPeer_boot (d : Dev) (n : Nat) (x : Peer) : (d.setPeer n x).boot = d.boot := rfl
@[simp] theorem setPeer_psr (d : Dev) (n : Nat) (x : Peer) : (d.setPeer n x).psr = d.psr := rfl
@[simp] theorem setPeer_bist (d : Dev) (n : Nat) (x : Peer) : (d.setPeer n x).bist = d.bist := rfl
@[simp] theorem setPeer_sec (d : Dev) (n : Nat) (x : Peer) : (d.setPeer n x).sec = d.sec := rfl
@[simp] theorem setPeer_fltq (d : Dev) (n : Nat) (x : Peer) : (d.setPeer n x).fltq = d.fltq := rfl
@[simp] theorem setPeer_alertLow (d : Dev) (n : Nat) (x : Peer) : (d.setPeer n x).alertLow = d.alertLow := rfl
@[simp] theorem setPeer_tripLow (d : Dev) (n : Nat) (x : Peer) : (d.setPeer n x).tripLow = d.tripLow := rfl
@[simp] theorem setPeer_out (d : Dev) (n : Nat) (x : Peer) : (d.setPeer n x).out = d.out := rfl
@[simp] theorem setPeer_fresh (d : Dev) (n : Nat) (x : Peer) : (d.setPeer n x).fresh = d.fresh := rfl
@[simp] theorem setPeer_ps (d : Dev) (n : Nat) (x : Peer) : (d.setPeer n x).ps = d.ps := rfl
@[simp] theorem setPeer_read (d : Dev) (n : Nat) (x : Peer) : (d.setPeer n x).peer n = x := sget_sput_same _ _ _ _

/-! ### setHandoff -/

@[simp] theorem setHandoff_regs (d : Dev) (c : Nat) (h : Handoff) : (d.setHandoff c h).regs = d.regs := rfl
@[simp] theorem setHandoff_mem (d : Dev) (c : Nat) (h : Handoff) : (d.setHandoff c h).mem = d.mem := rfl
@[simp] theorem setHandoff_fab (d : Dev) (c : Nat) (h : Handoff) : (d.setHandoff c h).fab = d.fab := rfl
@[simp] theorem setHandoff_img (d : Dev) (c : Nat) (h : Handoff) : (d.setHandoff c h).img = d.img := rfl
@[simp] theorem setHandoff_ldr (d : Dev) (c : Nat) (h : Handoff) : (d.setHandoff c h).ldr = d.ldr := rfl
@[simp] theorem setHandoff_srv (d : Dev) (c : Nat) (h : Handoff) : (d.setHandoff c h).srv = d.srv := rfl
@[simp] theorem setHandoff_xpt (d : Dev) (c : Nat) (h : Handoff) : (d.setHandoff c h).xpt = d.xpt := rfl
@[simp] theorem setHandoff_sch (d : Dev) (c : Nat) (h : Handoff) : (d.setHandoff c h).sch = d.sch := rfl
@[simp] theorem setHandoff_ring (d : Dev) (c : Nat) (h : Handoff) : (d.setHandoff c h).ring = d.ring := rfl
@[simp] theorem setHandoff_hp (d : Dev) (c : Nat) (h : Handoff) : (d.setHandoff c h).hp = d.hp := rfl
@[simp] theorem setHandoff_qps (d : Dev) (c : Nat) (h : Handoff) : (d.setHandoff c h).qps = d.qps := rfl
@[simp] theorem setHandoff_clk (d : Dev) (c : Nat) (h : Handoff) : (d.setHandoff c h).clk = d.clk := rfl
@[simp] theorem setHandoff_tim (d : Dev) (c : Nat) (h : Handoff) : (d.setHandoff c h).tim = d.tim := rfl
@[simp] theorem setHandoff_pwr (d : Dev) (c : Nat) (h : Handoff) : (d.setHandoff c h).pwr = d.pwr := rfl
@[simp] theorem setHandoff_boot (d : Dev) (c : Nat) (h : Handoff) : (d.setHandoff c h).boot = d.boot := rfl
@[simp] theorem setHandoff_psr (d : Dev) (c : Nat) (h : Handoff) : (d.setHandoff c h).psr = d.psr := rfl
@[simp] theorem setHandoff_bist (d : Dev) (c : Nat) (h : Handoff) : (d.setHandoff c h).bist = d.bist := rfl
@[simp] theorem setHandoff_sec (d : Dev) (c : Nat) (h : Handoff) : (d.setHandoff c h).sec = d.sec := rfl
@[simp] theorem setHandoff_fltq (d : Dev) (c : Nat) (h : Handoff) : (d.setHandoff c h).fltq = d.fltq := rfl
@[simp] theorem setHandoff_alertLow (d : Dev) (c : Nat) (h : Handoff) : (d.setHandoff c h).alertLow = d.alertLow := rfl
@[simp] theorem setHandoff_tripLow (d : Dev) (c : Nat) (h : Handoff) : (d.setHandoff c h).tripLow = d.tripLow := rfl
@[simp] theorem setHandoff_out (d : Dev) (c : Nat) (h : Handoff) : (d.setHandoff c h).out = d.out := rfl
@[simp] theorem setHandoff_fresh (d : Dev) (c : Nat) (h : Handoff) : (d.setHandoff c h).fresh = d.fresh := rfl
@[simp] theorem setHandoff_ps (d : Dev) (c : Nat) (h : Handoff) : (d.setHandoff c h).ps = d.ps := rfl
@[simp] theorem setHandoff_read (d : Dev) (c : Nat) (h : Handoff) : (d.setHandoff c h).handoff c = h := sget_sput_same _ _ _ _

/-! ### setGroup -/

@[simp] theorem setGroup_regs (d : Dev) (k : Nat) (g : CollGroup) : (d.setGroup k g).regs = d.regs := rfl
@[simp] theorem setGroup_mem (d : Dev) (k : Nat) (g : CollGroup) : (d.setGroup k g).mem = d.mem := rfl
@[simp] theorem setGroup_fab (d : Dev) (k : Nat) (g : CollGroup) : (d.setGroup k g).fab = d.fab := rfl
@[simp] theorem setGroup_img (d : Dev) (k : Nat) (g : CollGroup) : (d.setGroup k g).img = d.img := rfl
@[simp] theorem setGroup_ldr (d : Dev) (k : Nat) (g : CollGroup) : (d.setGroup k g).ldr = d.ldr := rfl
@[simp] theorem setGroup_srv (d : Dev) (k : Nat) (g : CollGroup) : (d.setGroup k g).srv = d.srv := rfl
@[simp] theorem setGroup_xpt (d : Dev) (k : Nat) (g : CollGroup) : (d.setGroup k g).xpt = d.xpt := rfl
@[simp] theorem setGroup_sch (d : Dev) (k : Nat) (g : CollGroup) : (d.setGroup k g).sch = d.sch := rfl
@[simp] theorem setGroup_ring (d : Dev) (k : Nat) (g : CollGroup) : (d.setGroup k g).ring = d.ring := rfl
@[simp] theorem setGroup_hp (d : Dev) (k : Nat) (g : CollGroup) : (d.setGroup k g).hp = d.hp := rfl
@[simp] theorem setGroup_qps (d : Dev) (k : Nat) (g : CollGroup) : (d.setGroup k g).qps = d.qps := rfl
@[simp] theorem setGroup_clk (d : Dev) (k : Nat) (g : CollGroup) : (d.setGroup k g).clk = d.clk := rfl
@[simp] theorem setGroup_tim (d : Dev) (k : Nat) (g : CollGroup) : (d.setGroup k g).tim = d.tim := rfl
@[simp] theorem setGroup_pwr (d : Dev) (k : Nat) (g : CollGroup) : (d.setGroup k g).pwr = d.pwr := rfl
@[simp] theorem setGroup_boot (d : Dev) (k : Nat) (g : CollGroup) : (d.setGroup k g).boot = d.boot := rfl
@[simp] theorem setGroup_psr (d : Dev) (k : Nat) (g : CollGroup) : (d.setGroup k g).psr = d.psr := rfl
@[simp] theorem setGroup_bist (d : Dev) (k : Nat) (g : CollGroup) : (d.setGroup k g).bist = d.bist := rfl
@[simp] theorem setGroup_sec (d : Dev) (k : Nat) (g : CollGroup) : (d.setGroup k g).sec = d.sec := rfl
@[simp] theorem setGroup_fltq (d : Dev) (k : Nat) (g : CollGroup) : (d.setGroup k g).fltq = d.fltq := rfl
@[simp] theorem setGroup_alertLow (d : Dev) (k : Nat) (g : CollGroup) : (d.setGroup k g).alertLow = d.alertLow := rfl
@[simp] theorem setGroup_tripLow (d : Dev) (k : Nat) (g : CollGroup) : (d.setGroup k g).tripLow = d.tripLow := rfl
@[simp] theorem setGroup_out (d : Dev) (k : Nat) (g : CollGroup) : (d.setGroup k g).out = d.out := rfl
@[simp] theorem setGroup_fresh (d : Dev) (k : Nat) (g : CollGroup) : (d.setGroup k g).fresh = d.fresh := rfl
@[simp] theorem setGroup_ps (d : Dev) (k : Nat) (g : CollGroup) : (d.setGroup k g).ps = d.ps := rfl
@[simp] theorem setGroup_read (d : Dev) (k : Nat) (g : CollGroup) : (d.setGroup k g).group k = g := sget_sput_same _ _ _ _

/-! ### setRp -/

@[simp] theorem setRp_regs (d : Dev) (a : Nat) (x : RingPort) : (d.setRp a x).regs = d.regs := rfl
@[simp] theorem setRp_mem (d : Dev) (a : Nat) (x : RingPort) : (d.setRp a x).mem = d.mem := rfl
@[simp] theorem setRp_fab (d : Dev) (a : Nat) (x : RingPort) : (d.setRp a x).fab = d.fab := rfl
@[simp] theorem setRp_img (d : Dev) (a : Nat) (x : RingPort) : (d.setRp a x).img = d.img := rfl
@[simp] theorem setRp_ldr (d : Dev) (a : Nat) (x : RingPort) : (d.setRp a x).ldr = d.ldr := rfl
@[simp] theorem setRp_srv (d : Dev) (a : Nat) (x : RingPort) : (d.setRp a x).srv = d.srv := rfl
@[simp] theorem setRp_xpt (d : Dev) (a : Nat) (x : RingPort) : (d.setRp a x).xpt = d.xpt := rfl
@[simp] theorem setRp_sch (d : Dev) (a : Nat) (x : RingPort) : (d.setRp a x).sch = d.sch := rfl
@[simp] theorem setRp_lnk (d : Dev) (a : Nat) (x : RingPort) : (d.setRp a x).lnk = d.lnk := rfl
@[simp] theorem setRp_hp (d : Dev) (a : Nat) (x : RingPort) : (d.setRp a x).hp = d.hp := rfl
@[simp] theorem setRp_qps (d : Dev) (a : Nat) (x : RingPort) : (d.setRp a x).qps = d.qps := rfl
@[simp] theorem setRp_clk (d : Dev) (a : Nat) (x : RingPort) : (d.setRp a x).clk = d.clk := rfl
@[simp] theorem setRp_tim (d : Dev) (a : Nat) (x : RingPort) : (d.setRp a x).tim = d.tim := rfl
@[simp] theorem setRp_pwr (d : Dev) (a : Nat) (x : RingPort) : (d.setRp a x).pwr = d.pwr := rfl
@[simp] theorem setRp_boot (d : Dev) (a : Nat) (x : RingPort) : (d.setRp a x).boot = d.boot := rfl
@[simp] theorem setRp_psr (d : Dev) (a : Nat) (x : RingPort) : (d.setRp a x).psr = d.psr := rfl
@[simp] theorem setRp_bist (d : Dev) (a : Nat) (x : RingPort) : (d.setRp a x).bist = d.bist := rfl
@[simp] theorem setRp_sec (d : Dev) (a : Nat) (x : RingPort) : (d.setRp a x).sec = d.sec := rfl
@[simp] theorem setRp_fltq (d : Dev) (a : Nat) (x : RingPort) : (d.setRp a x).fltq = d.fltq := rfl
@[simp] theorem setRp_alertLow (d : Dev) (a : Nat) (x : RingPort) : (d.setRp a x).alertLow = d.alertLow := rfl
@[simp] theorem setRp_tripLow (d : Dev) (a : Nat) (x : RingPort) : (d.setRp a x).tripLow = d.tripLow := rfl
@[simp] theorem setRp_out (d : Dev) (a : Nat) (x : RingPort) : (d.setRp a x).out = d.out := rfl
@[simp] theorem setRp_fresh (d : Dev) (a : Nat) (x : RingPort) : (d.setRp a x).fresh = d.fresh := rfl
@[simp] theorem setRp_ps (d : Dev) (a : Nat) (x : RingPort) : (d.setRp a x).ps = d.ps := rfl
@[simp] theorem setRp_read (d : Dev) (a : Nat) (x : RingPort) : (d.setRp a x).rp a = x := sget_sput_same _ _ _ _

/-! ### setBc -/

@[simp] theorem setBc_regs (d : Dev) (k : Nat) (b : Bcast) : (d.setBc k b).regs = d.regs := rfl
@[simp] theorem setBc_mem (d : Dev) (k : Nat) (b : Bcast) : (d.setBc k b).mem = d.mem := rfl
@[simp] theorem setBc_fab (d : Dev) (k : Nat) (b : Bcast) : (d.setBc k b).fab = d.fab := rfl
@[simp] theorem setBc_img (d : Dev) (k : Nat) (b : Bcast) : (d.setBc k b).img = d.img := rfl
@[simp] theorem setBc_ldr (d : Dev) (k : Nat) (b : Bcast) : (d.setBc k b).ldr = d.ldr := rfl
@[simp] theorem setBc_srv (d : Dev) (k : Nat) (b : Bcast) : (d.setBc k b).srv = d.srv := rfl
@[simp] theorem setBc_xpt (d : Dev) (k : Nat) (b : Bcast) : (d.setBc k b).xpt = d.xpt := rfl
@[simp] theorem setBc_sch (d : Dev) (k : Nat) (b : Bcast) : (d.setBc k b).sch = d.sch := rfl
@[simp] theorem setBc_lnk (d : Dev) (k : Nat) (b : Bcast) : (d.setBc k b).lnk = d.lnk := rfl
@[simp] theorem setBc_hp (d : Dev) (k : Nat) (b : Bcast) : (d.setBc k b).hp = d.hp := rfl
@[simp] theorem setBc_qps (d : Dev) (k : Nat) (b : Bcast) : (d.setBc k b).qps = d.qps := rfl
@[simp] theorem setBc_clk (d : Dev) (k : Nat) (b : Bcast) : (d.setBc k b).clk = d.clk := rfl
@[simp] theorem setBc_tim (d : Dev) (k : Nat) (b : Bcast) : (d.setBc k b).tim = d.tim := rfl
@[simp] theorem setBc_pwr (d : Dev) (k : Nat) (b : Bcast) : (d.setBc k b).pwr = d.pwr := rfl
@[simp] theorem setBc_boot (d : Dev) (k : Nat) (b : Bcast) : (d.setBc k b).boot = d.boot := rfl
@[simp] theorem setBc_psr (d : Dev) (k : Nat) (b : Bcast) : (d.setBc k b).psr = d.psr := rfl
@[simp] theorem setBc_bist (d : Dev) (k : Nat) (b : Bcast) : (d.setBc k b).bist = d.bist := rfl
@[simp] theorem setBc_sec (d : Dev) (k : Nat) (b : Bcast) : (d.setBc k b).sec = d.sec := rfl
@[simp] theorem setBc_fltq (d : Dev) (k : Nat) (b : Bcast) : (d.setBc k b).fltq = d.fltq := rfl
@[simp] theorem setBc_alertLow (d : Dev) (k : Nat) (b : Bcast) : (d.setBc k b).alertLow = d.alertLow := rfl
@[simp] theorem setBc_tripLow (d : Dev) (k : Nat) (b : Bcast) : (d.setBc k b).tripLow = d.tripLow := rfl
@[simp] theorem setBc_out (d : Dev) (k : Nat) (b : Bcast) : (d.setBc k b).out = d.out := rfl
@[simp] theorem setBc_fresh (d : Dev) (k : Nat) (b : Bcast) : (d.setBc k b).fresh = d.fresh := rfl
@[simp] theorem setBc_ps (d : Dev) (k : Nat) (b : Bcast) : (d.setBc k b).ps = d.ps := rfl
@[simp] theorem setBc_read (d : Dev) (k : Nat) (b : Bcast) : (d.setBc k b).bc k = b := sget_sput_same _ _ _ _

/-! ### setCell -/

@[simp] theorem setCell_regs (d : Dev) (c : Nat) (x : Cell) : (d.setCell c x).regs = d.regs := rfl
@[simp] theorem setCell_mem (d : Dev) (c : Nat) (x : Cell) : (d.setCell c x).mem = d.mem := rfl
@[simp] theorem setCell_img (d : Dev) (c : Nat) (x : Cell) : (d.setCell c x).img = d.img := rfl
@[simp] theorem setCell_ldr (d : Dev) (c : Nat) (x : Cell) : (d.setCell c x).ldr = d.ldr := rfl
@[simp] theorem setCell_srv (d : Dev) (c : Nat) (x : Cell) : (d.setCell c x).srv = d.srv := rfl
@[simp] theorem setCell_xpt (d : Dev) (c : Nat) (x : Cell) : (d.setCell c x).xpt = d.xpt := rfl
@[simp] theorem setCell_sch (d : Dev) (c : Nat) (x : Cell) : (d.setCell c x).sch = d.sch := rfl
@[simp] theorem setCell_lnk (d : Dev) (c : Nat) (x : Cell) : (d.setCell c x).lnk = d.lnk := rfl
@[simp] theorem setCell_ring (d : Dev) (c : Nat) (x : Cell) : (d.setCell c x).ring = d.ring := rfl
@[simp] theorem setCell_hp (d : Dev) (c : Nat) (x : Cell) : (d.setCell c x).hp = d.hp := rfl
@[simp] theorem setCell_qps (d : Dev) (c : Nat) (x : Cell) : (d.setCell c x).qps = d.qps := rfl
@[simp] theorem setCell_clk (d : Dev) (c : Nat) (x : Cell) : (d.setCell c x).clk = d.clk := rfl
@[simp] theorem setCell_tim (d : Dev) (c : Nat) (x : Cell) : (d.setCell c x).tim = d.tim := rfl
@[simp] theorem setCell_pwr (d : Dev) (c : Nat) (x : Cell) : (d.setCell c x).pwr = d.pwr := rfl
@[simp] theorem setCell_boot (d : Dev) (c : Nat) (x : Cell) : (d.setCell c x).boot = d.boot := rfl
@[simp] theorem setCell_psr (d : Dev) (c : Nat) (x : Cell) : (d.setCell c x).psr = d.psr := rfl
@[simp] theorem setCell_bist (d : Dev) (c : Nat) (x : Cell) : (d.setCell c x).bist = d.bist := rfl
@[simp] theorem setCell_sec (d : Dev) (c : Nat) (x : Cell) : (d.setCell c x).sec = d.sec := rfl
@[simp] theorem setCell_fltq (d : Dev) (c : Nat) (x : Cell) : (d.setCell c x).fltq = d.fltq := rfl
@[simp] theorem setCell_alertLow (d : Dev) (c : Nat) (x : Cell) : (d.setCell c x).alertLow = d.alertLow := rfl
@[simp] theorem setCell_tripLow (d : Dev) (c : Nat) (x : Cell) : (d.setCell c x).tripLow = d.tripLow := rfl
@[simp] theorem setCell_out (d : Dev) (c : Nat) (x : Cell) : (d.setCell c x).out = d.out := rfl
@[simp] theorem setCell_fresh (d : Dev) (c : Nat) (x : Cell) : (d.setCell c x).fresh = d.fresh := rfl
@[simp] theorem setCell_ps (d : Dev) (c : Nat) (x : Cell) : (d.setCell c x).ps = d.ps := rfl
@[simp] theorem setCell_read (d : Dev) (c : Nat) (x : Cell) : (d.setCell c x).cell c = x := sget_sput_same _ _ _ _

/-! ### setSeq -/

@[simp] theorem setSeq_regs (d : Dev) (k i : Nat) (x : SeqSt) : (d.setSeq k i x).regs = d.regs := rfl
@[simp] theorem setSeq_mem (d : Dev) (k i : Nat) (x : SeqSt) : (d.setSeq k i x).mem = d.mem := rfl
@[simp] theorem setSeq_img (d : Dev) (k i : Nat) (x : SeqSt) : (d.setSeq k i x).img = d.img := rfl
@[simp] theorem setSeq_ldr (d : Dev) (k i : Nat) (x : SeqSt) : (d.setSeq k i x).ldr = d.ldr := rfl
@[simp] theorem setSeq_srv (d : Dev) (k i : Nat) (x : SeqSt) : (d.setSeq k i x).srv = d.srv := rfl
@[simp] theorem setSeq_xpt (d : Dev) (k i : Nat) (x : SeqSt) : (d.setSeq k i x).xpt = d.xpt := rfl
@[simp] theorem setSeq_sch (d : Dev) (k i : Nat) (x : SeqSt) : (d.setSeq k i x).sch = d.sch := rfl
@[simp] theorem setSeq_lnk (d : Dev) (k i : Nat) (x : SeqSt) : (d.setSeq k i x).lnk = d.lnk := rfl
@[simp] theorem setSeq_ring (d : Dev) (k i : Nat) (x : SeqSt) : (d.setSeq k i x).ring = d.ring := rfl
@[simp] theorem setSeq_hp (d : Dev) (k i : Nat) (x : SeqSt) : (d.setSeq k i x).hp = d.hp := rfl
@[simp] theorem setSeq_qps (d : Dev) (k i : Nat) (x : SeqSt) : (d.setSeq k i x).qps = d.qps := rfl
@[simp] theorem setSeq_clk (d : Dev) (k i : Nat) (x : SeqSt) : (d.setSeq k i x).clk = d.clk := rfl
@[simp] theorem setSeq_tim (d : Dev) (k i : Nat) (x : SeqSt) : (d.setSeq k i x).tim = d.tim := rfl
@[simp] theorem setSeq_pwr (d : Dev) (k i : Nat) (x : SeqSt) : (d.setSeq k i x).pwr = d.pwr := rfl
@[simp] theorem setSeq_boot (d : Dev) (k i : Nat) (x : SeqSt) : (d.setSeq k i x).boot = d.boot := rfl
@[simp] theorem setSeq_psr (d : Dev) (k i : Nat) (x : SeqSt) : (d.setSeq k i x).psr = d.psr := rfl
@[simp] theorem setSeq_bist (d : Dev) (k i : Nat) (x : SeqSt) : (d.setSeq k i x).bist = d.bist := rfl
@[simp] theorem setSeq_sec (d : Dev) (k i : Nat) (x : SeqSt) : (d.setSeq k i x).sec = d.sec := rfl
@[simp] theorem setSeq_fltq (d : Dev) (k i : Nat) (x : SeqSt) : (d.setSeq k i x).fltq = d.fltq := rfl
@[simp] theorem setSeq_alertLow (d : Dev) (k i : Nat) (x : SeqSt) : (d.setSeq k i x).alertLow = d.alertLow := rfl
@[simp] theorem setSeq_tripLow (d : Dev) (k i : Nat) (x : SeqSt) : (d.setSeq k i x).tripLow = d.tripLow := rfl
@[simp] theorem setSeq_out (d : Dev) (k i : Nat) (x : SeqSt) : (d.setSeq k i x).out = d.out := rfl
@[simp] theorem setSeq_fresh (d : Dev) (k i : Nat) (x : SeqSt) : (d.setSeq k i x).fresh = d.fresh := rfl
@[simp] theorem setSeq_ps (d : Dev) (k i : Nat) (x : SeqSt) : (d.setSeq k i x).ps = d.ps := rfl
@[simp] theorem setSeq_read (d : Dev) (k i : Nat) (x : SeqSt) : (d.setSeq k i x).seq k i = x := sget_sput_same _ _ _ _

/-! ### setMolt -/

@[simp] theorem setMolt_regs (d : Dev) (p : Nat) (m : Molt) : (d.setMolt p m).regs = d.regs := rfl
@[simp] theorem setMolt_mem (d : Dev) (p : Nat) (m : Molt) : (d.setMolt p m).mem = d.mem := rfl
@[simp] theorem setMolt_fab (d : Dev) (p : Nat) (m : Molt) : (d.setMolt p m).fab = d.fab := rfl
@[simp] theorem setMolt_ldr (d : Dev) (p : Nat) (m : Molt) : (d.setMolt p m).ldr = d.ldr := rfl
@[simp] theorem setMolt_srv (d : Dev) (p : Nat) (m : Molt) : (d.setMolt p m).srv = d.srv := rfl
@[simp] theorem setMolt_xpt (d : Dev) (p : Nat) (m : Molt) : (d.setMolt p m).xpt = d.xpt := rfl
@[simp] theorem setMolt_sch (d : Dev) (p : Nat) (m : Molt) : (d.setMolt p m).sch = d.sch := rfl
@[simp] theorem setMolt_lnk (d : Dev) (p : Nat) (m : Molt) : (d.setMolt p m).lnk = d.lnk := rfl
@[simp] theorem setMolt_ring (d : Dev) (p : Nat) (m : Molt) : (d.setMolt p m).ring = d.ring := rfl
@[simp] theorem setMolt_hp (d : Dev) (p : Nat) (m : Molt) : (d.setMolt p m).hp = d.hp := rfl
@[simp] theorem setMolt_qps (d : Dev) (p : Nat) (m : Molt) : (d.setMolt p m).qps = d.qps := rfl
@[simp] theorem setMolt_clk (d : Dev) (p : Nat) (m : Molt) : (d.setMolt p m).clk = d.clk := rfl
@[simp] theorem setMolt_tim (d : Dev) (p : Nat) (m : Molt) : (d.setMolt p m).tim = d.tim := rfl
@[simp] theorem setMolt_pwr (d : Dev) (p : Nat) (m : Molt) : (d.setMolt p m).pwr = d.pwr := rfl
@[simp] theorem setMolt_boot (d : Dev) (p : Nat) (m : Molt) : (d.setMolt p m).boot = d.boot := rfl
@[simp] theorem setMolt_psr (d : Dev) (p : Nat) (m : Molt) : (d.setMolt p m).psr = d.psr := rfl
@[simp] theorem setMolt_bist (d : Dev) (p : Nat) (m : Molt) : (d.setMolt p m).bist = d.bist := rfl
@[simp] theorem setMolt_sec (d : Dev) (p : Nat) (m : Molt) : (d.setMolt p m).sec = d.sec := rfl
@[simp] theorem setMolt_fltq (d : Dev) (p : Nat) (m : Molt) : (d.setMolt p m).fltq = d.fltq := rfl
@[simp] theorem setMolt_alertLow (d : Dev) (p : Nat) (m : Molt) : (d.setMolt p m).alertLow = d.alertLow := rfl
@[simp] theorem setMolt_tripLow (d : Dev) (p : Nat) (m : Molt) : (d.setMolt p m).tripLow = d.tripLow := rfl
@[simp] theorem setMolt_out (d : Dev) (p : Nat) (m : Molt) : (d.setMolt p m).out = d.out := rfl
@[simp] theorem setMolt_fresh (d : Dev) (p : Nat) (m : Molt) : (d.setMolt p m).fresh = d.fresh := rfl
@[simp] theorem setMolt_ps (d : Dev) (p : Nat) (m : Molt) : (d.setMolt p m).ps = d.ps := rfl
@[simp] theorem setMolt_read (d : Dev) (p : Nat) (m : Molt) : (d.setMolt p m).molt p = m := sget_sput_same _ _ _ _

/-! ### setLaunchSt -/

@[simp] theorem setLaunchSt_regs (d : Dev) (n : Nat) (x : LaunchSt) : (d.setLaunchSt n x).regs = d.regs := rfl
@[simp] theorem setLaunchSt_mem (d : Dev) (n : Nat) (x : LaunchSt) : (d.setLaunchSt n x).mem = d.mem := rfl
@[simp] theorem setLaunchSt_fab (d : Dev) (n : Nat) (x : LaunchSt) : (d.setLaunchSt n x).fab = d.fab := rfl
@[simp] theorem setLaunchSt_img (d : Dev) (n : Nat) (x : LaunchSt) : (d.setLaunchSt n x).img = d.img := rfl
@[simp] theorem setLaunchSt_ldr (d : Dev) (n : Nat) (x : LaunchSt) : (d.setLaunchSt n x).ldr = d.ldr := rfl
@[simp] theorem setLaunchSt_srv (d : Dev) (n : Nat) (x : LaunchSt) : (d.setLaunchSt n x).srv = d.srv := rfl
@[simp] theorem setLaunchSt_xpt (d : Dev) (n : Nat) (x : LaunchSt) : (d.setLaunchSt n x).xpt = d.xpt := rfl
@[simp] theorem setLaunchSt_sch (d : Dev) (n : Nat) (x : LaunchSt) : (d.setLaunchSt n x).sch = d.sch := rfl
@[simp] theorem setLaunchSt_lnk (d : Dev) (n : Nat) (x : LaunchSt) : (d.setLaunchSt n x).lnk = d.lnk := rfl
@[simp] theorem setLaunchSt_ring (d : Dev) (n : Nat) (x : LaunchSt) : (d.setLaunchSt n x).ring = d.ring := rfl
@[simp] theorem setLaunchSt_hp (d : Dev) (n : Nat) (x : LaunchSt) : (d.setLaunchSt n x).hp = d.hp := rfl
@[simp] theorem setLaunchSt_qps (d : Dev) (n : Nat) (x : LaunchSt) : (d.setLaunchSt n x).qps = d.qps := rfl
@[simp] theorem setLaunchSt_clk (d : Dev) (n : Nat) (x : LaunchSt) : (d.setLaunchSt n x).clk = d.clk := rfl
@[simp] theorem setLaunchSt_pwr (d : Dev) (n : Nat) (x : LaunchSt) : (d.setLaunchSt n x).pwr = d.pwr := rfl
@[simp] theorem setLaunchSt_boot (d : Dev) (n : Nat) (x : LaunchSt) : (d.setLaunchSt n x).boot = d.boot := rfl
@[simp] theorem setLaunchSt_psr (d : Dev) (n : Nat) (x : LaunchSt) : (d.setLaunchSt n x).psr = d.psr := rfl
@[simp] theorem setLaunchSt_bist (d : Dev) (n : Nat) (x : LaunchSt) : (d.setLaunchSt n x).bist = d.bist := rfl
@[simp] theorem setLaunchSt_sec (d : Dev) (n : Nat) (x : LaunchSt) : (d.setLaunchSt n x).sec = d.sec := rfl
@[simp] theorem setLaunchSt_fltq (d : Dev) (n : Nat) (x : LaunchSt) : (d.setLaunchSt n x).fltq = d.fltq := rfl
@[simp] theorem setLaunchSt_alertLow (d : Dev) (n : Nat) (x : LaunchSt) : (d.setLaunchSt n x).alertLow = d.alertLow := rfl
@[simp] theorem setLaunchSt_tripLow (d : Dev) (n : Nat) (x : LaunchSt) : (d.setLaunchSt n x).tripLow = d.tripLow := rfl
@[simp] theorem setLaunchSt_out (d : Dev) (n : Nat) (x : LaunchSt) : (d.setLaunchSt n x).out = d.out := rfl
@[simp] theorem setLaunchSt_fresh (d : Dev) (n : Nat) (x : LaunchSt) : (d.setLaunchSt n x).fresh = d.fresh := rfl
@[simp] theorem setLaunchSt_ps (d : Dev) (n : Nat) (x : LaunchSt) : (d.setLaunchSt n x).ps = d.ps := rfl
@[simp] theorem setLaunchSt_read (d : Dev) (n : Nat) (x : LaunchSt) : (d.setLaunchSt n x).launchSt n = x := sget_sput_same _ _ _ _

/-! ### setCeil -/

@[simp] theorem setCeil_regs (d : Dev) (i v : Nat) (c : Ceil) : (d.setCeil i v c).regs = d.regs := rfl
@[simp] theorem setCeil_mem (d : Dev) (i v : Nat) (c : Ceil) : (d.setCeil i v c).mem = d.mem := rfl
@[simp] theorem setCeil_fab (d : Dev) (i v : Nat) (c : Ceil) : (d.setCeil i v c).fab = d.fab := rfl
@[simp] theorem setCeil_img (d : Dev) (i v : Nat) (c : Ceil) : (d.setCeil i v c).img = d.img := rfl
@[simp] theorem setCeil_ldr (d : Dev) (i v : Nat) (c : Ceil) : (d.setCeil i v c).ldr = d.ldr := rfl
@[simp] theorem setCeil_srv (d : Dev) (i v : Nat) (c : Ceil) : (d.setCeil i v c).srv = d.srv := rfl
@[simp] theorem setCeil_xpt (d : Dev) (i v : Nat) (c : Ceil) : (d.setCeil i v c).xpt = d.xpt := rfl
@[simp] theorem setCeil_sch (d : Dev) (i v : Nat) (c : Ceil) : (d.setCeil i v c).sch = d.sch := rfl
@[simp] theorem setCeil_lnk (d : Dev) (i v : Nat) (c : Ceil) : (d.setCeil i v c).lnk = d.lnk := rfl
@[simp] theorem setCeil_ring (d : Dev) (i v : Nat) (c : Ceil) : (d.setCeil i v c).ring = d.ring := rfl
@[simp] theorem setCeil_hp (d : Dev) (i v : Nat) (c : Ceil) : (d.setCeil i v c).hp = d.hp := rfl
@[simp] theorem setCeil_qps (d : Dev) (i v : Nat) (c : Ceil) : (d.setCeil i v c).qps = d.qps := rfl
@[simp] theorem setCeil_clk (d : Dev) (i v : Nat) (c : Ceil) : (d.setCeil i v c).clk = d.clk := rfl
@[simp] theorem setCeil_tim (d : Dev) (i v : Nat) (c : Ceil) : (d.setCeil i v c).tim = d.tim := rfl
@[simp] theorem setCeil_boot (d : Dev) (i v : Nat) (c : Ceil) : (d.setCeil i v c).boot = d.boot := rfl
@[simp] theorem setCeil_psr (d : Dev) (i v : Nat) (c : Ceil) : (d.setCeil i v c).psr = d.psr := rfl
@[simp] theorem setCeil_bist (d : Dev) (i v : Nat) (c : Ceil) : (d.setCeil i v c).bist = d.bist := rfl
@[simp] theorem setCeil_sec (d : Dev) (i v : Nat) (c : Ceil) : (d.setCeil i v c).sec = d.sec := rfl
@[simp] theorem setCeil_fltq (d : Dev) (i v : Nat) (c : Ceil) : (d.setCeil i v c).fltq = d.fltq := rfl
@[simp] theorem setCeil_alertLow (d : Dev) (i v : Nat) (c : Ceil) : (d.setCeil i v c).alertLow = d.alertLow := rfl
@[simp] theorem setCeil_tripLow (d : Dev) (i v : Nat) (c : Ceil) : (d.setCeil i v c).tripLow = d.tripLow := rfl
@[simp] theorem setCeil_out (d : Dev) (i v : Nat) (c : Ceil) : (d.setCeil i v c).out = d.out := rfl
@[simp] theorem setCeil_fresh (d : Dev) (i v : Nat) (c : Ceil) : (d.setCeil i v c).fresh = d.fresh := rfl
@[simp] theorem setCeil_ps (d : Dev) (i v : Nat) (c : Ceil) : (d.setCeil i v c).ps = d.ps := rfl
@[simp] theorem setCeil_read (d : Dev) (i v : Nat) (c : Ceil) : (d.setCeil i v c).ceil i v = c := sget_sput_same _ _ _ _

end Sys2Proof.Machine
end

