-- ==== Sys2Proof/Laws/Tile.lean ====
section
/-!
SUPPORT. Laws of the checksum and of tiles: the register as a fold, and that a tile built from a header and its areas has 4,416 bytes and a CRC that matches.
-/
namespace Sys2Proof.Machine

@[simp] theorem withNum_eq {α : Type} (n : Nat) (k : Nat → α) : withNum n k = k n := by cases n <;> rfl

theorem bytes_succ (d : Dev) (a n : Nat) : d.bytes a (n + 1) = d.byte a :: d.bytes (a + 1) n := by simp only [Dev.bytes, withNum_eq]

/-- The register is a fold over the bytes. -/
theorem crcRun_foldl (bs : List Byte) (c : Nat) : crcRun bs c = bs.foldl crcByte c := by
  induction bs generalizing c with
  | nil => rfl
  | cons b l ih => simp [crcRun, ih]

theorem crcStep_lt {c : Nat} (h : c < 2 ^ 32) : crcStep c < 2 ^ 32 := by
  unfold crcStep
  split
  · exact Nat.xor_lt_two_pow (by omega) (by decide)
  · omega

theorem crcByte_lt {c : Nat} (h : c < 2 ^ 32) (b : Byte) : crcByte c b < 2 ^ 32 := by
  have hb : b.toNat < 2 ^ 32 := Nat.lt_of_lt_of_le b.isLt (by decide)
  unfold crcByte
  iterate 8 apply crcStep_lt
  exact Nat.xor_lt_two_pow h hb

theorem crcRun_lt (bs : List Byte) {c : Nat} (h : c < 2 ^ 32) : crcRun bs c < 2 ^ 32 := by
  induction bs generalizing c with
  | nil => exact h
  | cons b l ih => simp only [crcRun, withNum_eq]; exact ih (crcByte_lt h b)

/-- A CRC has 32 bits. -/
theorem crc32c_lt (bs : List Byte) : crc32c bs < 2 ^ 32 := Nat.xor_lt_two_pow (crcRun_lt bs (by decide)) (by decide)

@[simp] theorem length_toLe (n v : Nat) : (toLe n v).length = n := by
  induction n generalizing v with
  | zero => rfl
  | succ n ih => simp [toLe, ih]

/-- Reading n bytes of a number back gives its low n bytes. -/
theorem leNat_toLe (n v : Nat) : leNat (toLe n v) = v % 256 ^ n := by
  induction n generalizing v with
  | zero => simp [toLe, leNat, Nat.mod_one]
  | succ n ih =>
    simp only [toLe, leNat, ih, BitVec.toNat_ofNat]
    show v % 256 + 256 * (v / 256 % 256 ^ n) = _
    rw [Nat.pow_succ (m := n), Nat.mul_comm (256 ^ n) 256, Nat.mod_mul]

theorem length_hdrTail (h : Hdr) : (hdrTail h).length = 60 := by
  unfold hdrTail zeros
  simp only [List.length_append, length_toLe, List.length_replicate]

/-- A tile on the mesh has 4,416 bytes. -/
@[simp] theorem length_mkTile (h : Hdr) (scales elems : List Byte) : (mkTile h scales elems).length = 4416 := by
  unfold mkTile zeros
  simp only [List.length_append, length_toLe, length_hdrTail, List.length_take, List.length_replicate]
  omega

/-- A checksum in front of the 4,412 bytes that it covers matches. -/
theorem tileCrcOk_front (rest : List Byte) (h : rest.length = 4412) : tileCrcOk (toLe 4 (crc32c rest) ++ rest) = true := by
  have hc : crc32c rest % 256 ^ 4 = crc32c rest := Nat.mod_eq_of_lt (Nat.lt_of_lt_of_eq (crc32c_lt rest) (by decide))
  unfold tileCrcOk leAt
  rw [List.drop_zero, List.take_left' (length_toLe 4 _), List.drop_left' (length_toLe 4 _), leNat_toLe, List.take_of_length_le (Nat.le_of_eq h), hc]
  exact beq_self_eq_true _

/-- The CRC of a tile that the device builds matches (R102). -/
@[simp] theorem tileCrcOk_mkTile (h : Hdr) (scales elems : List Byte) : tileCrcOk (mkTile h scales elems) = true := by
  have hl := length_mkTile h scales elems
  unfold mkTile at hl ⊢
  simp only [List.length_append, length_toLe] at hl
  exact tileCrcOk_front _ (by simp only [List.length_append]; omega)

end Sys2Proof.Machine
end

