-- ==== Sys2Proof/Machine/Package.lean ====
section
/-!
DEFINITION. The package (chapter 17): where each contact of the land grid lies and what it carries (R494 to R500), the supply rails (R501), the filters of the
control inputs (R506) and the fibres of the receptacles (R511, R512). No command moves these; they say what a pin or fibre of the model is outside.
-/
namespace Sys2Proof.Machine

/-! ### The grid (R494, R495) -/

/-- Row names: the letters without I, O, Q and R; from row 21 on the a-th letter, then the b-th. -/
def rowLetters : List Char := ['A', 'B', 'C', 'D', 'E', 'F', 'G', 'H', 'J', 'K', 'L', 'M', 'N', 'P', 'S', 'T', 'U', 'V', 'W', 'Y']
def rowName (i : Nat) : List Char :=
  let at_ := fun (n : Nat) => rowLetters.getD n 'A'
  if i ≤ 20 then [at_ (i - 1)] else [at_ ((i - 21) / 20), at_ ((i - 21) % 20)]

/-- Centre of the contact of row i and column c in µm east and north of the body centre; the pitch is 800 µm. -/
def contactAt (i c : Nat) : Int × Int := ((2 * (c : Int) - 133) * 400, (133 - 2 * (i : Int)) * 400)

/-! ### Regions (R496) -/

/-- The regions of Table 17-1 that hold contacts. -/
inductive PkgRegion where
  | brw | iow | lps | lpw | core | hbn | hbs | bre | ioe | pes | aux | ctl | mgs
  deriving DecidableEq, Repr

def between (a b n : Nat) : Bool := a ≤ n && n ≤ b

/-- The region of a grid position; none in the corner keep-outs. -/
def pkgRegion (i c : Nat) : Option PkgRegion :=
  if between 1 11 i then (if between 13 120 c then some .hbn else none)
  else if between 122 132 i then (if between 13 120 c then some .hbs else none)
  else if !between 12 121 i || !between 1 132 c then none
  else if between 45 116 c then some .core
  else if c ≤ 44 then
    (if i ≤ 43 then some (if c ≤ 16 then .brw else if c ≤ 30 then .iow else .lps) else some .lpw)
  else if i ≤ 35 then some .bre
  else if i ≤ 68 then some .ioe
  else if i ≤ 100 then some .pes
  else if i ≤ 110 then some (if c ≤ 120 then .aux else .ctl)
  else some .mgs

/-! ### What a contact carries (R497 to R500) -/

/-- Supply rails (Table 17-4), by their index r. -/
inductive Rail where
  | vcomb | vbase | vhbm | vlp6 | vio | vpe | vmg | vaux
  deriving DecidableEq, Repr

/-- Wires of a brood lane. -/
inductive LaneWire where
  | txp | txn | rxp | rxn
  deriving DecidableEq, Repr

/-- Signals of an LP6 port: of a channel, or of the port. -/
inductive LpWire where
  | dq (n : Nat)
  | dqs (j : Nat) (neg : Bool)
  | ck (neg : Bool)
  | ca (n : Nat)
  | cs
  | resetN
  | zq
  deriving DecidableEq, Repr

/-- Control signals (Table 17-3). -/
inductive CtlWire where
  | clkinP | clkinN | porstN | pgAon | pgMain | throtInN | tripN | alertN | bypassN
  | sense (rail : Nat) (neg : Bool)
  deriving DecidableEq, Repr

/-- What a contact carries. -/
inductive Net where
  | vss
  | rail (r : Rail)
  | brood (link lane : Nat) (w : LaneWire)
  | lp6 (port channel : Nat) (w : LpWire)
  | ctl (w : CtlWire)
  deriving DecidableEq, Repr

/-- Signal k of a brood link's sequence (R498), first link of the region given. -/
def broodNet (first n k : Nat) : Net :=
  if k < 64 * n then
    .brood (first + k / 64) (k / 4 % 16) (match k % 4 with | 0 => .txp | 1 => .txn | 2 => .rxp | _ => .rxn)
  else .vss

/-- Signal k of the 50 of an LP6 channel (R499). -/
def channelWire (k : Nat) : LpWire :=
  if k < 32 then .dq k
  else if k < 40 then .dqs ((k - 32) / 2) (k % 2 == 1)
  else if k < 42 then .ck (k == 41)
  else if k < 49 then .ca (k - 42)
  else .cs

def lp6Net (k : Nat) : Net :=
  if k < 1616 then
    let q := k % 202
    if q < 200 then .lp6 (k / 202) (q / 50) (channelWire (q % 50)) else .lp6 (k / 202) 0 (if q = 200 then .resetN else .zq)
  else .vss

/-- The CTL contacts of Table 17-3, by row index and column. -/
def ctlNet (i c : Nat) : Net :=
  let sense := fun (base : Nat) =>
    if between 122 133 c && (c - 122) % 3 < 2 then .ctl (.sense (base + (c - 122) / 3) ((c - 122) % 3 == 1)) else .vss
  match rowName i with
  | ['E', 'B'] => if c = 124 then .ctl .clkinP else if c = 125 then .ctl .clkinN else .vss
  | ['E', 'D'] =>
    if c = 122 then .ctl .porstN else if c = 124 then .ctl .pgAon else if c = 126 then .ctl .pgMain else if c = 128 then .ctl .throtInN
    else if c = 130 then .ctl .tripN else if c = 132 then .ctl .alertN else .vss
  | ['E', 'F'] => if c = 122 then .ctl .bypassN else .vss
  | ['E', 'H'] => sense 0
  | ['E', 'K'] => sense 4
  | _ => .vss

/-- Place of a signal position in its region's sequence: row-major over the positions with i + c odd, w columns from column c0 and rows from i0. -/
def sequenceAt (i0 c0 w i c : Nat) : Nat := (i - i0) * (w / 2) + (c - c0) / 2

/-- What the contact of row i and column c carries; none where there is no contact. -/
def contactNet (i c : Nat) : Option Net :=
  (pkgRegion i c).map fun r =>
    if r == .ctl then ctlNet i c
    else if (i + c) % 2 = 0 then .vss
    else match r with
      | .brw => broodNet 0 4 (sequenceAt 12 1 16 i c)
      | .bre => broodNet 4 3 (sequenceAt 12 117 16 i c)
      | .lpw => lp6Net (sequenceAt 44 1 44 i c)
      | .iow | .ioe => .rail .vio
      | .lps => .rail .vlp6
      | .core => .rail (if i % 4 = 0 then .vbase else .vcomb)
      | .hbn | .hbs => .rail .vhbm
      | .pes => .rail .vpe
      | .aux => .rail .vaux
      | .mgs => .rail .vmg
      | .ctl => .vss

/-! ### Supplies (R501) -/

/-- A rail of Table 17-4: nominal and absolute maximum in mV, tolerance in per cent, the highest current in A. -/
structure RailSpec where
  nominal : Nat
  tolerance : Nat
  current : Nat
  maximum : Nat
  deriving DecidableEq, Repr

def railSpec : Rail → RailSpec
  | .vcomb => ⟨750, 3, 2800, 900⟩
  | .vbase => ⟨800, 3, 480, 950⟩
  | .vhbm => ⟨1100, 3, 260, 1300⟩
  | .vlp6 => ⟨900, 3, 120, 1050⟩
  | .vio => ⟨850, 3, 230, 1000⟩
  | .vpe => ⟨1200, 3, 160, 1400⟩
  | .vmg => ⟨900, 3, 40, 1050⟩
  | .vaux => ⟨1800, 5, 10, 2100⟩

/-- Power in mW that the rails take together at nominal voltage. -/
def railPower : Nat := [Rail.vcomb, .vbase, .vhbm, .vlp6, .vio, .vpe, .vmg, .vaux].foldl (fun a r => a + (railSpec r).nominal * (railSpec r).current) 0

/-- How long an input must hold a level before the device takes it, in ns (R506). -/
def inputFilter : CtlWire → Option Nat
  | .porstN => some 10000
  | .pgAon | .pgMain | .bypassN => some 1000
  | .throtInN => some 200
  | _ => none

/-! ### Fibres (R511, R512) -/

/-- Optical ports in the order of Table 17-7: RING_A and RING_B are 0 and 1, F0 to F11 are 2 to 13, E0 to E3 are 14 to 17. Their engine and their place there. -/
def opticalPort (n : Nat) : Nat × Nat :=
  if n < 4 then (0, n) else if n < 8 then (1, n - 4) else if n < 11 then (2, n - 8) else if n < 14 then (3, n - 11) else (if n < 16 then 2 else 3, 3 + n % 2)

/-- Lanes of an optical port: 2 of a host port, 8 of any other. -/
def opticalLanes (n : Nat) : Nat := if 14 ≤ n then 2 else 8

/-- The engine and the fibre that lane l of a port sends on; it receives on the fibre 32 higher. -/
def fibreOf (n l : Nat) : Nat × Nat :=
  let e := opticalPort n
  (e.1, if 14 ≤ n then 25 + 2 * (n % 2) + l else 8 * e.2 + l + 1)

/-- In by-pass the receive fibre of a ring lane is joined to the transmit fibre of the same lane of the other ring port. -/
def bypassJoin (fibre : Nat) : Nat := if fibre ≤ 40 then fibre - 32 + 8 else fibre - 32 - 8

/-- Loss of a ring hop over k by-passed devices, and the budget, in hundredths of a dB (R371, Table 12-4). -/
def hopLoss (k : Nat) : Nat := 2 * 75 + 2 * 60 + 2 * 50 + 5 + 120 * k
def hopFits (k : Nat) : Bool := hopLoss k ≤ 1100

end Sys2Proof.Machine
end

