-- ==== Sys2Proof/WellFormed.lean ====
section
/-!
DEFINITION. Well-formed commands: the lengths that the packet formats fix (Tables 2-5, 11-2, 11-5, 12-1) and that the sensor and
counter lists of a command have.
-/
namespace Sys2Proof

/-- A mesh packet carries LEN flits of 64 bytes (R46). -/
def Packet.wf (p : Packet) : Bool := p.payload.length == 64 * p.flit.len.toNat

/-- A link flit carries 512 bytes of payload (Table 11-2). -/
def LinkFlit.wf (f : LinkFlit) : Bool := f.payload.length == 512

/-- A Frarax packet carries PLEN units of 64 bytes, at most 72 (Table 11-5). -/
def FrPkt.wf (x : FrPkt) : Bool := x.payload.length == 64 * x.plen.toNat && x.plen.toNat ≤ 72

/-- A ring frame carries PLEN units of 64 bytes, at most 72 (Table 12-1). -/
def RingFrame.wf (x : RingFrame) : Bool := x.payload.length == 64 * x.plen.toNat && x.plen.toNat ≤ 72

/-- A tile on the mesh is 4,416 bytes (R98). -/
def tileWf (t : List Byte) : Bool := t.length == 4416

/-- One sample has a value for each comb, granule and partition (Table 14-1). -/
def PwrSample.wf (s : PwrSample) : Bool :=
  s.cd.length == 16 && s.bd.length == 16 && s.t1.length == 32 && s.lp6Bytes.length == 16 && s.linkBytes.length == 16 && s.hostBytes.length == 16

/-- A Firefly message has a frame or packet of the right length. -/
def FireflyMsg.wf : FireflyMsg → Bool
  | .ring _ x => x.wf
  | .frarax x => x.wf

/-- The commands that carry a mesh packet, a Frarax packet and a ring frame. -/
def Instr.packet? : Instr → Option Packet
  | .packetInject _ p | .tile p | .readReq p | .readResp p | .write p | .writeAck p | .qcredit p | .summary p | .wkcFetchAdd p | .wkcRead p
  | .wkcReset p | .wkcResp p | .cfgWrite p | .cfgAck p | .drain p => some p
  | _ => none

def Instr.frarax? : Instr → Option FrPkt
  | .start x | .vote x | .decideMsg x | .ack x | .abort x | .handoffTile x | .handoffCommit x | .handoffAck x | .hello _ x | .e2eAck x | .nackUnreach x | .relayForward _ x | .heartbeat x | .withdraw _ x | .remoteTile x
  | .remoteQcredit x | .remoteWkcReq x | .remoteWkcResp x | .serveTile x | .collData x | .collAbort x | .launchRefuse x => some x
  | .xptEntry x | .xptEnd x | .xptReturn x | .xptDrop x => some x.pkt
  | _ => none

def Instr.frame? : Instr → Option RingFrame
  | .rhello _ x | .rkeep _ x | .rleave _ x | .expel _ x | .loopFrame _ x | .ctrlMsg _ x | .ctrlAck _ x | .bcData _ x | .bcEnd _ x | .bcNak _ x => some x
  | _ => none

/-- A well-formed command. -/
def Instr.wf (i : Instr) : Bool :=
  (i.packet?.all Packet.wf && i.frarax?.all FrPkt.wf && i.frame?.all RingFrame.wf) &&
  match i with
  | .linkFlit _ f => f.wf
  | .fireflyRequest m | .fireflyReply m => m.wf
  | .choiceTile _ _ _ t | .expertOutputTile _ _ _ t => tileWf t
  | .governorTick e => e.wf
  | .calibration mw _ => mw.length == 8
  | .tempPoll dies hbm => dies.length == 40 && hbm.length == 32
  | .monitorPollEnd counts => counts.length == 36
  | _ => true

end Sys2Proof
end

