-- ==== Sys2Proof/Tests/Slice0.lean ====
section
/-!
SUPPORT. Tests. Each statement about what commands do has here, clause by clause, a device and operands that meet the clause's hypotheses: the theorem named after
it takes the statement and applies it to them, and every hypothesis is discharged by evaluation. Then come tests of the well-formedness checks and of worked
examples of the manual.
-/
namespace Sys2Proof.Tests

open Sys2Proof Sys2Proof.Machine Sys2Proof.Safety

set_option maxRecDepth 100000
set_option Elab.async false

/-- The command completes on the state. -/
def Ran (i : Instr) (s : State) : Prop := ∃ e, exec i s = .next e
theorem ran {i : Instr} {s : State} {P : Dev → Prop} (h : Does i s P) : Ran i s := ⟨_, h.choose_spec.1⟩
theorem stepped {α : Type} {s : State} {f : α → State} {Q : α → Prop} (h : ∃ e, step s = .next (f e) ∧ Q e) : ∃ t, step s = .next t :=
  ⟨_, h.choose_spec.1⟩
theorem nobuf {d : Dev} {c : Nat} {ps : List Opnd} (h : (d.cell c).bufFresh = []) : checked d c ps := by intro b _ hb; rw [h] at hb; cases hb
/-- Is a result the bytes b? -/
def okIs (x : Except Dev (List Byte)) (b : List Byte) : Bool := match x with | .ok a => a == b | .error _ => false
theorem okEq {x : Except Dev (List Byte)} {b : List Byte} (h : okIs x b = true) : x = .ok b := by
  cases x with
  | ok a => simp [okIs] at h; rw [h]
  | error _ => simp [okIs] at h

/-! ### Parts of the devices -/

def rec (typ tc : Nat) (payload : List Byte) : CfgRec := ⟨typ, tc, payload⟩
/-- TC_SETUP of context 0: station 5, v registers 0-15, banks 0 and 1, 4 tree slots. -/
def setup0 : CfgRec := rec 1 0 (toLe 2 5 ++ toLe 1 0 ++ toLe 1 16 ++ toLe 1 3 ++ toLe 1 4 ++ zeros 10)
def plan : CfgRec := rec 2 0 (toLe 1 4 ++ zeros 15)
def progRec (ws : List Nat) : CfgRec := rec 9 0 (ws.flatMap (toLe 8))
def cellDev (x : Cell) : Dev := { Dev.powerOn with fab := { Fabric.zero with cells := [(0, x)], combMap := [(0, 1)] } }
def tcRun : Tc := { Tc.zero with st := .running }
def oneTc (recs : List CfgRec) (y : Tc) : Cell := { Cell.zero with active := recs, tcs := [(0, y)] }
def opState (opc : Nat) (o : CellOps) : State :=
  ⟨cellDev { oneTc [setup0, plan, progRec [cellWord opc o]] tcRun with vregs := [(64, 0x40000000), (65, 0x3F800000), (128, 0x40400000), (193, 7)], acc := [(0, 0x3F800000), (65, 0x40000000)] }, []⟩
def ov (d a b c imm : Nat) : CellOps := ⟨.ofNat 6 d, .ofNat 6 a, .ofNat 6 b, .ofNat 6 c, .ofNat 32 imm⟩
def putLe (l : List Byte) (i n v : Nat) : List Byte := putAt l i (toLe n v)
structure Sect where
  typ : Nat
  instar : Nat
  data : List Byte
def sectOffs : Nat → List Sect → List (Sect × Nat)
  | _, [] => []
  | o, s :: ss => (s, o) :: sectOffs (o + s.data.length) ss
def imgBytes (instars fw fh : Nat) (ss : List Sect) : List Byte :=
  let base := 256 + 16 * ss.length
  putLe (putLe (putLe (putLe (zeros 256) 32 2 ss.length) 34 2 instars) 36 1 fw) 37 1 fh ++
  (sectOffs base ss).flatMap (fun q => toLe 1 q.1.typ ++ zeros 1 ++ toLe 2 q.1.instar ++ toLe 4 q.1.data.length ++ toLe 8 q.2) ++
  ss.flatMap (·.data)
def memAt (a : Nat) (bs : List Byte) : Store Byte := (bs.zipIdx.filter fun q => q.1 != 0#8).map fun q => (a + q.2, q.1)
def imgA : Nat := 0x8000000000
def theImg : Img := ⟨imgA, 4096, 0, []⟩
def wv (l : List (Fld × Nat)) (v : Nat := 0) : Word := l.foldl (fun w q => fset w q.1 q.2) (BitVec.ofNat 64 v)
def activeStat : Nat × Word := (Reg.MOLT_STAT 0, wv [(Fld.MOLT_STAT_ACTIVE_VALID, 1)])
def dimB (stride count max src b0 b1 : Nat) : List Byte := toLe 5 stride ++ toLe 2 count ++ toLe 2 max ++ toLe 1 src ++ toLe 1 b0 ++ toLe 1 b1
/-- identity order -/
def ordId : Nat := 0 + 1*8 + 2*64 + 3*512 + 4*4096 + 5*32768
def descB (base stream kind tier fmt flags prod cons : Nat) (dims : List (List Byte)) : List Byte :=
  toLe 6 base ++ toLe 2 stream ++ toLe 1 (kind*64 + tier*16) ++ toLe 1 fmt ++ toLe 1 flags ++ zeros 1 ++ toLe 2 prod ++ toLe 2 cons ++
  ((dims ++ List.replicate 6 (dimB 0 1 1 0 1 1)).take 6).flatten ++ toLe 8 (ordId * 2^36 + ordId * 2^18 + ordId) ++ toLe 1 0xFF ++ zeros 7
def opDev (recs : List CfgRec) (opc : Nat) (o : CellOps) (y : Tc) (f : Cell → Cell) (g : Dev → Dev) : State :=
  ⟨g (cellDev (f (oneTc ([setup0, plan] ++ recs ++ [progRec [cellWord opc o]]) y))), []⟩
def issue0 : Issue where
  uid := 7
  token := 3
  part := 0
  comb := 0
  cell := 0
  tc := 0
  descIdx := 0
  sd := parseDesc []
  counts := [1,1,1,1,1,1]
  queue := 0
  buf := 0
  chain := none
  forager := none
  stage := none
  sent := 0
  landed := 0
  taken := 0
  spilled := []
  demand := false
  got := []
  copied := 0
  eos := false
  ended := false
/-- descriptor 0: LINK stream 9 from station 5, FP32, 4 tiles; 1: a LOAD of BF16 -/
def dLink : List Byte := descB 0 9 2 0 0x01 0 5 6 [dimB 512 4 4 0 1 1]
def dLoad : List Byte := descB 0x8000100000 10 0 1 0x02 0 0xFFFF 5 [dimB 4608 4 4 0 1 1]
def dFp8 : List Byte := descB 0x8000100000 11 0 1 0x10 0 0xFFFF 5 [dimB 4608 4 4 0 1 1]
def dI32 : List Byte := descB 0x8000100000 12 0 1 0x20 0 0xFFFF 5 [dimB 4608 4 4 0 1 1]
def img4 : List Byte := imgBytes 1 1 1 [⟨4, 0, dLink ++ dLoad ++ dFp8 ++ dI32⟩]
def withImg (extra : Store Byte) (d : Dev) : Dev :=
  { d with regs := [activeStat], mem := extra ++ memAt imgA img4, img := { ImgPart.zero with imgs := [(0, some theImg)] } }
def hF : Hdr := ⟨0, 0x01, 0, 0, 31, 31, false, false, false, 9, 0, 0, 0, 0, 3, 0, 0⟩
/-- A tile whose CRC is off by one. -/
def badTile (h : Hdr) (scales elems : List Byte) : List Byte :=
  let rest := hdrTail h ++ (scales ++ zeros 256).take 256 ++ (elems ++ zeros 4096).take 4096
  toLe 4 (crc32c rest + 1) ++ rest
def tileF : List Byte := mkTile hF [] (List.replicate 64 0x3F#8)
def regsOf (l : List (Nat × Word)) : Store Word := l.foldl (fun m q => sput regDefault m q.1 q.2) []
def onRegs : List (Nat × Word) :=
  [(Reg.BOOT_STAT, wv [(Fld.BOOT_STAT_STAGE, 8)]), (Reg.PART_STAT 0, wv [(Fld.PART_STAT_STATE, 2)]), (Reg.PART_COMBS 0, 1), (Reg.PART_T1 0, 3),
   (Reg.CLK_COMB_PS 0, wv [(Fld.CLK_COMB_PS_STATE, 3)]), (Reg.PART_CTX 0, wv [(Fld.PART_CTX_FIRST, 0), (Fld.PART_CTX_COUNT, 2)]),
   (Reg.PART_QP 0, wv [(Fld.PART_QP_FIRST, 0), (Fld.PART_QP_COUNT, 4)]), activeStat,
   (Reg.GLB_NODE, wv [(Fld.GLB_NODE_VALID, 1), (Fld.GLB_NODE_NODE_ID, 8), (Fld.GLB_NODE_ROLE, 1)]), (Reg.GLB_LEVEL, wv [(Fld.GLB_LEVEL_READY, 1)])]
/-- An operating device: partition 0 ACTIVE with comb 0, granules 0 and 1, contexts 0 and 1 and queue pairs 0 to 3; more registers. -/
def onDev (more : List (Nat × Word)) : Dev :=
  { Dev.powerOn with
    regs := regsOf (onRegs ++ more), boot := { BootSt.zero with pgMain := true }, fab := { Fabric.zero with combMap := [(0, 1)] } }
def st (d : Dev) : State := ⟨d, []⟩
def pk := mkPkt 8 0 130 0 5 9 []
/-- the operating device with an image, a program of one word for sequencer i of comb 0, and that sequencer -/
def sqo (rd r1 r2 : Nat) : SeqOps := ⟨.ofNat 5 rd, .ofNat 5 r1, .ofNat 5 r2⟩
def seqDev (i : Nat) (text : List Byte) (q : SeqSt) (voter : Bool) (img : List Byte) (more : List (Nat × Word)) : Dev :=
  { onDev ([(Reg.MOLT_HSTAT 0, wv [(Fld.MOLT_HSTAT_STATE, 2)])] ++ more) with
    mem := memAt imgA img,
    img := { ImgPart.zero with imgs := [(0, some theImg)], progs := [(progKey 0 0 i, some ⟨text, [], 0, voter⟩)] },
    fab := { Fabric.zero with combMap := [(0, 1)], seqs := [(i, { q with on := true })] } }
def seqOne (i f7 f3 : Nat) (o : SeqOps) (q : SeqSt) : Dev := seqDev i (toLe 4 (seqWord f7 f3 o)) q false img4 []
def xq : SeqSt := { SeqSt.zero with x := [(5, 3), (6, 0x1234567890)], q := [(3, ⟨77, true, true⟩)] }
def rawRec (typ grp x y tc : Nat) (pl : List Byte) : List Byte := toLe 1 typ ++ toLe 1 grp ++ toLe 2 pl.length ++ toLe 1 x ++ toLe 1 y ++ toLe 1 tc ++ toLe 1 0 ++ pl
def instarSec (n : Nat) (rs : List (List Byte)) : Sect := ⟨2, n, toLe 2 n ++ zeros 2 ++ toLe 4 rs.length ++ zeros 56 ++ rs.flatten⟩
def setupPl : List Byte := toLe 2 5 ++ toLe 1 0 ++ toLe 1 16 ++ toLe 1 3 ++ toLe 1 4 ++ zeros 10
def geoB : List Byte := toLe 2 4 ++ toLe 2 1 ++ toLe 1 0 ++ toLe 1 0 ++ toLe 2 16 ++ toLe 4 1000 ++ toLe 4 32 ++ toLe 2 1 ++ toLe 2 8 ++ toLe 2 5 ++ zeros 42
def regionB (size : Nat) : List Byte := putLe (zeros 64) 0 2 1 ++ toLe 1 1 ++ toLe 1 0 ++ zeros 6 ++ toLe 8 size
def imgSv : List Byte := imgBytes 1 1 1 [⟨0xB, 0, geoB⟩, ⟨9, 0, regionB 65536⟩]
def svImg : Img := { theImg with place := [0x8000700000] }
def svRegs : List (Nat × Word) :=
  [(Reg.MOLT_HSTAT 0, wv [(Fld.MOLT_HSTAT_STATE, 2)]), (Reg.SCHED_CTX 0, wv [(Fld.SCHED_CTX_ENABLE, 1), (Fld.SCHED_CTX_PRIO, 3)]),
   (Reg.STEP_GEOM0 0, wv [(Fld.STEP_GEOM0_SLOTS, 4), (Fld.STEP_GEOM0_MAX_CTX, 500)]),
   (Reg.STEP_GEOM1 0, wv [(Fld.STEP_GEOM1_CHUNK, 8), (Fld.STEP_GEOM1_TREE_NODES, 1)]),
   (Reg.PART_REQ 0, wv [(Fld.PART_REQ_FIRST, 0), (Fld.PART_REQ_COUNT, 8)]), (Reg.STEP_BLK 0, wv [(Fld.STEP_BLK_FIRST, 0), (Fld.STEP_BLK_COUNT, 64)]),
   (Reg.STEP_BLK_T1 0, BitVec.ofNat 64 (t1Base + 0x1000000)), (Reg.STEP_CHAIN 0, BitVec.ofNat 64 (t1Base + 0x2000000)),
   (Reg.LNK_QP 0 0, wv [(Fld.LNK_QP0_STATE, 3)])]
def svDev (more : List (Nat × Word)) (mem : Store Byte) (srv : Serving) : Dev :=
  { onDev (svRegs ++ more) with mem := memAt imgA imgSv ++ mem, img := { ImgPart.zero with imgs := [(0, some svImg)] }, srv := srv }
/-- a request description -/
def rqDesc (loop prio prompt qp maxT outVa outSize count : Nat) : List Byte :=
  let l := zeros 256
  let l := putLe l 2 1 loop; let l := putLe l 3 1 prio; let l := putLe l 4 4 prompt; let l := putLe l 20 2 qp; let l := putLe l 36 4 maxT
  let l := putLe l 80 4 0x3F800000; let l := putLe l 88 4 0x3F800000; let l := putLe l 108 8 outVa; let l := putLe l 116 4 9; let l := putLe l 120 4 outSize
  putLe l 128 8 count
def goodRq : List Byte := rqDesc 0 0 5 0 10 0x10000 16 0x8000600000
/-- its status: state, flags, kv -/
def rqStat (state kv : Nat) : List Byte := putLe (putLe (zeros 256) 0 1 state) 12 4 kv
/-- A tile as it rests in memory, from its header and its element words by index; its CRC reads as zero. -/
def memTile (a : Nat) (h : Hdr) (ws : List (Nat × Nat)) : Store Byte := memAt (a + 4) (hdrTail h) ++ ws.flatMap fun q => memAt (a + 320 + 4 * q.1) (toLe 4 q.2)
def sealF (kind : Nat) (x : FrPkt) : FrPkt := { x with hcrc := BitVec.ofNat 32 (frCrc kind x) }
def frp (kind src dst fseq dom epoch ctx : Nat) (arg : BitVec 248) (payload : List Byte) : FrPkt :=
  sealF kind ⟨0, false, false, BitVec.ofNat 2 ((kindClass kind).getD 0), BitVec.ofNat 8 (payload.length / 64), 0, BitVec.ofNat 18 dst, BitVec.ofNat 18 src, BitVec.ofNat 16 dom, 77, BitVec.ofNat 32 fseq, BitVec.ofNat 64 epoch, BitVec.ofNat 6 ctx, arg, payload⟩
/-- A packet whose payload is a tile of 69 flits. -/
def frt (kind src dst fseq dom epoch ctx : Nat) (arg : BitVec 248) (payload : List Byte) : FrPkt :=
  sealF kind ⟨0, false, false, BitVec.ofNat 2 ((kindClass kind).getD 0), 69, 0, BitVec.ofNat 18 dst, BitVec.ofNat 18 src, BitVec.ofNat 16 dom, 77, BitVec.ofNat 32 fseq, BitVec.ofNat 64 epoch, BitVec.ofNat 6 ctx, arg, payload⟩
def rxOf (src : Nat) : Store FlowRx := (List.range 3).map fun c => (4 * src + c, ⟨77, 5, [], 0, 0⟩)
def hOf : OpTile → Hdr | .tile h _ _ _ _ => h | _ => hF
def tOf : OpTile → List Byte | .tile _ t _ _ _ => t | _ => []
def eOf : OpTile → Bool | .tile _ _ e _ _ => e | _ => false
def nOf : OpTile → Nat | .tile _ _ _ n _ => n | _ => 0
def dOf : OpTile → Dev | .tile _ _ _ _ d => d | _ => Dev.powerOn
def lastOf : OpTile → Bool | .tile _ _ e _ _ => e | _ => false
theorem opTile_eta {x : OpTile} (h : lastOf x = true) : x = .tile (hOf x) (tOf x) true (nOf x) (dOf x) := by cases x <;> simp_all [lastOf, hOf, tOf, nOf, dOf]
def pst (l n : Nat) (more : List (Fld × Nat) := []) : Nat × Word := (portStat l, wv ([(Fld.LNK_BL_STAT_STATE, n)] ++ more))
def prt : Port := { Port.zero with since := 0, txSeq := 6, rxSeq := 9, creditsCtrl := 3, creditsResp := 5, creditsData := 9, helloAcked := false }
def ph (n : Nat) : Nat × Word := (Reg.STEP_PHASE 0, wv [(Fld.STEP_PHASE_PHASE, n), (Fld.STEP_PHASE_FAILS, 1)])
def lp (n : Nat) : Nat × Word := (Reg.STEP_STAT 0, wv [(Fld.STEP_STAT_STATE, n)])
def cur : Nat × Word := (Reg.SCHED_STAT 0, wv [(Fld.SCHED_STAT_CUR_VALID, 1)])
def at9 : Attempt := { Attempt.zero with epoch := 9 }
def brd : Nat × Word := (Reg.SCHED_CTX 0, wv [(Fld.SCHED_CTX_ENABLE, 1), (Fld.SCHED_CTX_BROOD, 1)])
def dRem : List Byte := descB (tg 0 1 3 2 1 5 0) 9 3 0 0x01 0 5 6 [dimB 512 4 4 0 1 1]
where tg (k pos x y tc q i : Nat) : Nat := k * 2^46 + pos * 2^43 + x * 2^33 + y * 2^27 + tc * 2^25 + q * 2^21 + i
def w4 (l : List (Nat × Nat)) : List Byte := l.foldl (fun b q => putLe b (4 * q.1) 4 q.2) (zeros 4096)
/-- two experts: 0 at home 1, 1 at home 0; edge 0 queue 2; act desc 1, return desc 2; 1 tile in, 2 tiles out; gMax 1; target seq -/
def layerM (a h0 h1 : Nat) (cap : Nat := 4) : Store Byte := memTile a hF [(0, 2 + 1 * 256 + 0 * 8192 + 2 * 16384), (1, 1 + 2 * 65536), (2, 1 + 2 * 65536), (3, 1), (4, 0 + 1 * 16 + 3 * 256),
  (16, h0 + 0 * 8 + cap * 65536), (17, 3 + 4 * 65536), (18, 0 + 16 * 1 + 256 * 2), (20, h1 + 1 * 8 + cap * 65536), (21, 3 + 5 * 65536), (22, 0 + 16 * 2 + 256 * 4)]
def manE (id reg off tiles : Nat) : List Byte := putLe (putLe (putLe (putLe (zeros 64) 0 4 id) 4 1 reg) 8 8 off) 16 8 tiles
def dA (base : Nat) : List Byte := descB base 10 0 1 0x01 0 0xFFFF 5 [dimB 4608 4 4 0 1 1]
def actT : List Byte := mkTile hF [] (toLe 4 5 ++ toLe 4 6 ++ toLe 4 0 ++ toLe 4 0x3F800000)
def imgR : List Byte := imgBytes 1 1 1 [⟨4, 0, dRem ++ dA 0x8000100000 ++ dA 0x8000200000 ++ dA 0x8000300000⟩, ⟨0xA, 0, [7#8, 1#8, 3#8, 2#8]⟩, ⟨7, 0, manE 0xE0000000 0 0 1 ++ manE 0xC0000000 0 4608 1⟩]
def rD (more : List (Nat × Word)) (mem : Store Byte) (f : Dev → Dev) (brood : Bool := true) : Dev :=
  let d := svDev ([lp 1, cur, ph 1, (Reg.LNK_DOMAIN 0, 5), (Reg.GLB_LEVEL, wv [(Fld.GLB_LEVEL_READY, 1), (Fld.GLB_LEVEL_BROOD_MEMBERS, 7)]), pst 2 3 [(Fld.LNK_BL_STAT_USED, 1), (Fld.LNK_BL_STAT_PEER_POS, 1)], pst 3 3 [(Fld.LNK_BL_STAT_USED, 1), (Fld.LNK_BL_STAT_PEER_POS, 2)]] ++ (if brood then [brd] else []) ++ more) [] { Serving.zero with att := [(0, at9)] }
  f { d with ps := 100 * us, mem := memAt imgA imgR ++ mem,
             img := { ImgPart.zero with imgs := [(0, some { theImg with place := [0x8000500000] })] },
             lnk := { Links.zero with session := 77, rx := rxOf 9 ++ rxOf 10, lead := some 0, participants := [(0, [0,1,2])], ports := [(2, prt), (3, prt)] } }
def fz (kind src epoch : Nat) (arg : List (Nat × Nat × Nat)) (pl : List Byte := []) : FrPkt := frp kind src 8 5 5 epoch 0 (mkArg arg) pl
def fzt (kind src epoch : Nat) (arg : List (Nat × Nat × Nat)) (pl : List Byte) : FrPkt := frt kind src 8 5 5 epoch 0 (mkArg arg) pl
def rst (a b : Nat) (more : List (Fld × Nat) := []) : Nat × Word := (Reg.LNK_RING_STAT, wv ([(Fld.LNK_RING_STAT_A_STATE, a), (Fld.LNK_RING_STAT_B_STATE, b), (Fld.LNK_RING_STAT_SWITCH, 2)] ++ more))
def helB (node sess fl : Nat) (link kind : Nat := 1) : List Byte := toLe 8 node ++ toLe 1 link ++ toLe 1 kind ++ toLe 2 0 ++ toLe 2 sess ++ toLe 1 fl ++ toLe 1 0 ++ toLe 1 0 ++ zeros 47 ++ zeros 64
def nodeW (n : Nat) : Nat := (wv [(Fld.GLB_NODE_VALID, 1), (Fld.GLB_NODE_NODE_ID, n), (Fld.GLB_NODE_ROLE, 1)]).toNat
def colN : Nat × Word := (Reg.GLB_NODE, wv [(Fld.GLB_NODE_VALID, 1), (Fld.GLB_NODE_NODE_ID, 8), (Fld.GLB_NODE_ROLE, 2)])
def sealR (kind : Nat) (x : RingFrame) : RingFrame := let y := { x with pcrc := BitVec.ofNat 32 (ringPcrc x.payload) }; { y with hcrc := BitVec.ofNat 32 (ringCrc kind y) }
def rfr (kind src dst seq : Nat) (arg : List (Nat × Nat × Nat)) (pl : List Byte) (f : RingFrame → RingFrame := id) : RingFrame :=
  sealR kind (f ⟨0, false, 0, false, 3, BitVec.ofNat 8 ((pl.length + 63) / 64), .ofNat 7 src, .ofNat 8 dst, 9, 4, 5, 12, 0, .ofNat 32 seq, 0, 0, mkRArg arg, pl⟩)
def rgD (a b : Nat) (pa : RingPort) (f : Ring → Ring := id) (more : List (Nat × Word) := []) : Dev :=
  { onDev ([colN, rst a b, (Reg.LNK_RING_THOP, 0x00640064), (Reg.LNK_RING_CTL, 1), (Reg.TIME_SYSTIME, 100000)] ++ more) with ps := 40 * ms, ring := f { Ring.zero with drive := true, ports := [(0, pa), (1, RingPort.zero)] } }
def rp0 : RingPort := { RingPort.zero with sent := [(4, 1000, false), (5, 2000, false)], hello := some (helloOf (helB (nodeW 24) 5 0)), txSeq := 6 }
def clkD (f : ClkSt → ClkSt) (m : List (Nat × Word)) (g : Dev → Dev := id) : Dev := g { onDev m with ps := 40 * ms, clk := f ClkSt.zero }

theorem tileCrcOk_bad (h : Hdr) (scales elems : List Byte) : tileCrcOk (badTile h scales elems) = false := by
  have hl := length_mkTile h scales elems
  unfold mkTile at hl
  unfold badTile
  simp only [List.length_append, length_toLe] at hl
  have hr : (hdrTail h ++ (scales ++ zeros 256).take 256 ++ (elems ++ zeros 4096).take 4096).length = 4412 := by simp only [List.length_append]; omega
  revert hr
  generalize hdrTail h ++ (scales ++ zeros 256).take 256 ++ (elems ++ zeros 4096).take 4096 = rest
  intro hr
  have hc := crc32c_lt rest
  unfold tileCrcOk leAt
  rw [List.drop_zero, List.take_left' (length_toLe 4 _), List.drop_left' (length_toLe 4 _), leNat_toLe, List.take_of_length_le (Nat.le_of_eq hr)]
  exact beq_false_of_ne (by omega)

/-- Two hypotheses as one. -/
theorem both {a b P : Prop} (h : a → b → P) : a ∧ b → P := fun x => h x.1 x.2

/-! ### A tile in memory -/

theorem sget_absent (m : Store Byte) (x : Nat) (h : ∀ q ∈ m, q.1 ≠ x) : sget (fun _ => 0#8) m x = 0#8 := by
  induction m with
  | nil => rfl
  | cons q m ih =>
    have hq : x ≠ q.1 := fun e => h q (List.mem_cons_self ..) e.symm
    simp only [sget, if_neg hq]
    exact ih fun r hr => h r (List.mem_cons_of_mem _ hr)

theorem sget_skip (pre m : Store Byte) (x : Nat) (h : ∀ q ∈ pre, q.1 ≠ x) : sget (fun _ => 0#8) (pre ++ m) x = sget (fun _ => 0#8) m x := by
  induction pre with
  | nil => rfl
  | cons q p ih =>
    have hq : x ≠ q.1 := fun e => h q (List.mem_cons_self ..) e.symm
    simp only [List.cons_append, sget, if_neg hq]
    exact ih fun r hr => h r (List.mem_cons_of_mem _ hr)

/-- The cells of bytes from index k on. -/
def cellsFrom (a k : Nat) (bs : List Byte) : Store Byte := ((bs.zipIdx k).filter fun q => q.1 != 0#8).map fun q => (a + q.2, q.1)

theorem cellsFrom_ge (a : Nat) (bs : List Byte) : ∀ k, ∀ q ∈ cellsFrom a k bs, a + k ≤ q.1 := by
  induction bs with
  | nil => intro k q hq; cases hq
  | cons b l ih =>
    intro k q hq
    simp only [cellsFrom, List.zipIdx_cons, List.filter_cons] at hq
    split at hq
    · simp only [List.map_cons, List.mem_cons] at hq
      rcases hq with rfl | hq
      · exact Nat.le_refl _
      · exact Nat.le_trans (by omega) (ih (k + 1) q hq)
    · exact Nat.le_trans (by omega) (ih (k + 1) q hq)

theorem sget_cellsFrom (a : Nat) (post : Store Byte) (bs : List Byte) : ∀ k i, i < bs.length → (∀ q ∈ post, q.1 < a + k ∨ a + k + bs.length ≤ q.1) →
    sget (fun _ => 0#8) (cellsFrom a k bs ++ post) (a + k + i) = bs.getD i 0#8 := by
  induction bs with
  | nil => intro k i h; cases h
  | cons b l ih =>
    intro k i hi hp
    simp only [List.length_cons] at hi hp
    have hcons : cellsFrom a k (b :: l) = (if b != 0#8 then [(a + k, b)] else []) ++ cellsFrom a (k + 1) l := by
      simp only [cellsFrom, List.zipIdx_cons, List.filter_cons]
      split <;> rfl
    rw [hcons, List.append_assoc]
    cases i with
    | zero =>
      by_cases hb : b = 0#8
      · subst hb
        rw [sget_skip _ _ _ (by simp), sget_skip _ _ _ fun q hq => by have := cellsFrom_ge a l (k + 1) q hq; omega]
        rw [sget_absent _ _ fun q hq => by have := hp q hq; omega]
        rfl
      · have hb' : (b != 0#8) = true := by simpa using hb
        simp [hb', sget]
    | succ i =>
      rw [sget_skip _ _ _ (by intro q hq; split at hq <;> simp at hq; subst hq; simp only; omega)]
      have := ih (k + 1) i (by omega) fun q hq => by have := hp q hq; omega
      rw [show a + k + (i + 1) = a + (k + 1) + i by omega, this]
      rfl

theorem bytes_ext (d : Dev) (bs : List Byte) : ∀ a, (∀ i, i < bs.length → d.byte (a + i) = bs.getD i 0#8) → d.bytes a bs.length = bs := by
  induction bs with
  | nil => intro a _; rfl
  | cons b l ih =>
    intro a h
    have h0 := h 0 (by simp)
    have hs := ih (a + 1) fun i hi => by have := h (i + 1) (by simpa using hi); rw [show a + 1 + i = a + (i + 1) by omega, this]; rfl
    rw [List.length_cons, bytes_succ, hs]
    rw [show d.byte a = b by simpa using h0]

/-- Reading back bytes that stand in memory among others. -/
theorem bytes_mem {d : Dev} {pre post : Store Byte} {x a n : Nat} {bs : List Byte} (hx : x = a) (hm : d.mem = pre ++ (memAt a bs ++ post)) (hn : bs.length = n)
    (hpre : ∀ q ∈ pre, q.1 < a ∨ a + n ≤ q.1) (hpost : ∀ q ∈ post, q.1 < a ∨ a + n ≤ q.1) : d.bytes x n = bs := by
  subst hx hn
  refine bytes_ext d bs x fun i hi => ?_
  unfold Dev.byte
  rw [hm, sget_skip _ _ _ fun q hq => by have := hpre q hq; omega]
  exact sget_cellsFrom x post bs 0 i hi (by simpa using hpost)

theorem length_badTile (h : Hdr) (scales elems : List Byte) : (badTile h scales elems).length = 4416 := by
  have hl := length_mkTile h scales elems
  unfold mkTile at hl
  unfold badTile
  simpa only [List.length_append, length_toLe] using hl

theorem front_of {d : Dev} {c q : Nat} {s : QSlot} {l : List QSlot} {tile : List Byte} (hs : ((d.cell c).queue q).slots = s :: l) (hl : s.landed = true)
    (hb : d.bytes (slotAddr (d.cell c).active c q s.pos) tileWire = tile) : d.front c q = some (s, tile) := by
  unfold Dev.front
  simp only [hs, hl, hb, if_true]

theorem slotOk_bad {d : Dev} {a : Nat} (h : hdrValid (hdrOf (d.bytes a tileWire)) = false) : d.slotOk a = false := by
  unfold Dev.slotOk
  simp only [h, Bool.and_false]

theorem slotOk_good {d : Dev} {a : Nat} {t : List Byte} (hb : d.bytes a tileWire = t) (h : tileCrcOk t = true) (h' : hdrValid (hdrOf t) = true) : d.slotOk a = true := by
  unfold Dev.slotOk
  simp only [hb, h, h', Bool.and_self]

theorem cutSlots_one {l : List Byte} (h : l.length = 4608) : cutSlots l = [l] := by
  unfold cutSlots tileBytes
  rw [h]
  show [(l.drop (4608 * 0)).take 4608] = [l]
  rw [Nat.mul_zero, List.drop_zero, List.take_of_length_le (Nat.le_of_eq h)]

theorem tile_mem {d : Dev} {x a : Nat} {h : Hdr} {s e : List Byte} (hx : x = a) (hm : d.mem = memAt a (mkTile h s e)) : d.bytes x tileWire = mkTile h s e :=
  bytes_mem (pre := []) (post := []) hx (by rw [hm, List.append_nil]; rfl) (length_mkTile h s e) (by simp) (by simp)

theorem badTile_mem {d : Dev} {x a : Nat} {h : Hdr} {s e : List Byte} (hx : x = a) (hm : d.mem = memAt a (badTile h s e)) : d.bytes x tileWire = badTile h s e :=
  bytes_mem (pre := []) (post := []) hx (by rw [hm, List.append_nil]; rfl) (length_badTile h s e) (by simp) (by simp)

theorem tile_mem_in {d : Dev} {x a : Nat} {pre post : Store Byte} {h : Hdr} {s e : List Byte} (hx : x = a) (hm : d.mem = pre ++ (memAt a (mkTile h s e) ++ post))
    (hpre : (pre.all fun q => q.1 < a || a + 4416 ≤ q.1) = true) (hpost : (post.all fun q => q.1 < a || a + 4416 ≤ q.1) = true) : d.bytes x tileWire = mkTile h s e :=
  bytes_mem hx hm (length_mkTile h s e) (fun q hq => by simpa [tileWire] using List.all_eq_true.mp hpre q hq) (fun q hq => by simpa [tileWire] using List.all_eq_true.mp hpost q hq)

theorem front_mem {d : Dev} {c q : Nat} {s : QSlot} {tile : List Byte} (a : Nat) (hs : ((d.cell c).queue q).slots = [s]) (hl : s.landed = true)
    (hx : slotAddr (d.cell c).active c q s.pos = a) (hm : d.mem = memAt a tile) (hlen : tile.length = 4416) : d.front c q = some (s, tile) :=
  front_of hs hl (bytes_mem (pre := []) (post := []) hx (by rw [hm, List.append_nil]; rfl) hlen (by simp) (by simp))

theorem length_raw {d : Dev} {j : Job} (h : j.op = 1) (hn : j.srcLen = 4608) : (d.jobOutput j).1.flatten.length = 4608 := by
  unfold Dev.jobOutput
  rw [if_pos h, hn]
  simp only [List.length_flatten, Dev.jobBytes, Function.comp_def, List.map_map, List.length_map, List.length_range]
  decide +kernel

theorem slotOk_mem {d : Dev} {a : Nat} (tile : List Byte) (hm : d.mem = memAt a tile) (hlen : tile.length = 4416) (hc : tileCrcOk tile = true)
    (hv : hdrValid (hdrOf tile) = true) : d.slotOk a = true :=
  slotOk_good (bytes_mem (pre := []) (post := []) rfl (by rw [hm, List.append_nil]; rfl) hlen (by simp) (by simp)) hc hv

theorem entryData_one {d : Dev} {p c e t row : Nat} {l : LayerRec} (a : Nat) (tile b : List Byte) (pre post : Store Byte) (hh : l.hTiles = 1)
    (ha : d.actAddr p l (row / 64) 0 = a) (hm : d.mem = pre ++ (memAt a tile ++ post)) (hlen : tile.length = 4416)
    (hpre : (pre.all fun q => q.1 < a || a + 4416 ≤ q.1) = true) (hpost : (post.all fun q => q.1 < a || a + 4416 ≤ q.1) = true)
    (hc : tileCrcOk tile = true) (hv : hdrValid (hdrOf tile) = true) (hb : rowOf tile (row % 64) = b) : d.entryData p c e t l row = .ok b := by
  have ht : d.bytes a tileWire = tile :=
    bytes_mem rfl hm hlen (fun q hq => by simpa [tileWire] using List.all_eq_true.mp hpre q hq) (fun q hq => by simpa [tileWire] using List.all_eq_true.mp hpost q hq)
  have hn : (d.newTiles p c t l row).find? (fun a => let tile := d.bytes a tileWire; !(tileCrcOk tile && hdrValid (hdrOf tile))) = none := by
    rw [List.find?_eq_none]
    intro x hx
    have hx' : x = a := by
      unfold Dev.newTiles at hx
      rw [hh] at hx
      have := (List.mem_filter.mp hx).1
      simpa [ha, List.range_succ] using this
    subst hx'
    simp only [ht, hc, hv]
    decide
  unfold Dev.entryData
  rw [hn, hh]
  show Except.ok (rowOf (d.bytes (d.actAddr p l (row / 64) 0) tileWire) (row % 64) ++ []) = _
  rw [ha, ht, hb, List.append_nil]

theorem desc_of {d : Dev} {i : Img} {n : Nat} {b : List Byte}
    (h : (match d.section? i 4 with | some s => decide (104 * n + 104 ≤ s.len) && d.bytes (i.addr + s.off + 104 * n) 96 == b | none => false) = true) :
    d.desc i n = some (parseDesc b) := by
  unfold Dev.desc
  cases hs : d.section? i 4 with
  | none => rw [hs] at h; cases h
  | some s =>
    rw [hs] at h
    simp only [Bool.and_eq_true, decide_eq_true_eq, beq_iff_eq] at h
    simp only [h.1, if_true, h.2]

/-- Does a list rise from a number on? -/
def rises : Nat → List Nat → Bool
  | _, [] => true
  | a, b :: l => decide (a ≤ b) && rises (b + 1) l

theorem le_of_rises {a : Nat} {l : List Nat} (h : rises a l = true) : ∀ x ∈ l, a ≤ x := by
  induction l generalizing a with
  | nil => simp
  | cons b l ih =>
    simp only [rises, Bool.and_eq_true, decide_eq_true_eq] at h
    intro x hx
    rcases List.mem_cons.mp hx with rfl | hx
    · exact h.1
    · have := ih h.2 x hx; omega

theorem nodup_of_rises {a : Nat} {l : List Nat} (h : rises a l = true) : l.Nodup := by
  induction l generalizing a with
  | nil => exact List.nodup_nil
  | cons b l ih =>
    simp only [rises, Bool.and_eq_true, decide_eq_true_eq] at h
    refine List.nodup_cons.mpr ⟨fun hb => ?_, ih h.2⟩
    have := le_of_rises h.2 b hb
    omega
/-! ### The device of a started attempt: tables, bounds and epochs touch memory, fabric and groups only -/

/-- Do two devices differ in memory, fabric and collective groups only? -/
def Near (d e : Dev) : Prop := ∃ m f gs, e = { d with mem := m, fab := f, lnk := { d.lnk with groups := gs } }
theorem Near.rfl' (d : Dev) : Near d d := ⟨d.mem, d.fab, d.lnk.groups, rfl⟩
theorem Near.trans {d e f : Dev} (h : Near d e) (k : Near e f) : Near d f := by
  obtain ⟨m, x, gs, rfl⟩ := h
  obtain ⟨n, y, hs, rfl⟩ := k
  exact ⟨n, y, hs, rfl⟩
theorem Near.fold {α : Type} {f : Dev → α → Dev} (h : ∀ d x, Near d (f d x)) (l : List α) : ∀ d, Near d (l.foldl f d) := by
  induction l with
  | nil => exact Near.rfl'
  | cons x l ih => exact fun d => (h d x).trans (ih _)
theorem near_setBytes (l : List Byte) : ∀ (d : Dev) (a : Nat), Near d (d.setBytes a l) := by
  induction l with
  | nil => exact fun d _ => Near.rfl' d
  | cons b l ih => exact fun d a => Near.trans ⟨_, _, _, rfl⟩ (ih (d.setByte a b) (a + 1))
theorem near_writeTables (d : Dev) (p c : Nat) (g : Geo) (plan : List SlotPlan) (epoch : Nat) : Near d (d.writeTables p c g plan epoch) :=
  (Near.fold (fun e _ => near_setBytes _ e _) _ d).trans (Near.fold (fun e _ => Near.fold (fun e _ => near_setBytes _ e _) _ e) _ _)
theorem near_writeBounds (d : Dev) (i : Img) (g : Geo) (vs : List SlotView) (epoch : Nat) : Near d (d.writeBounds i g vs epoch) := by
  refine Near.fold (fun e m => ?_) _ d
  split
  · exact Near.fold (fun e k => ⟨_, _, _, rfl⟩) _ e
  · exact Near.rfl' e
theorem near_giveEpoch (d : Dev) (p epoch : Nat) : Near d (d.giveEpoch p epoch) := by
  refine Near.fold (fun e k => Near.fold (fun e i => ?_) _ e) _ d
  generalize e.seq k i = s
  obtain ⟨on, pc, x, q, data, w, ep⟩ := s
  cases w <;> first | exact Near.rfl' e | exact ⟨_, _, _, rfl⟩

theorem near_freshStep (d : Dev) (p : Nat) : Near d (d.freshStep p) := ⟨_, _, _, rfl⟩

/-- The device of an attempt before its tables are written, where one device commits alone. -/
def begun (d : Dev) (p c : Nat) (g : Geo) : Dev :=
  let adm := d.nextAdmits p c
  let d0 : Dev := { d with bist := { d.bist with gapAsk := d.bist.gapAsk.erase c } }
  let d1 := (d0.modAtt c fun t => t.fresh ((d.att c).epoch + 1) d.ps adm (d.toPause c)).markStart p c
  let d2 := adm.foldl (fun (e : Dev) q => e.admitWork p c g q.2) d1
  ((d2.stepPlan c adm).foldl (fun (e : Dev) q => e.growChain p c g q) d2).modAtt c fun t => { t with plan := d2.stepPlan c adm }

theorem attempt_tail {b e : Dev} {p c n : Nat} (he : Near b e) (h5 : b.broodCtx c = false) (h6 : (b.handoff c).consume = none) (h7 : (b.att c).pend = none)
    (h8 : b.partCtxs p = [c]) (h9 : b.curCtx p = some c) (g : Geo) (member : Bool) :
    Near b (((((if e.broodCtx c && !member then e.sendStarts p c g n else e).giveEpoch p n).checkHandoff p c).takePend p c).checkPreempt p) := by
  have h5' : e.broodCtx c = false := by obtain ⟨m, f, gs, rfl⟩ := he; exact h5
  rw [h5', Bool.false_and, if_neg Bool.false_ne_true]
  have hx := he.trans (near_giveEpoch e p n)
  revert hx
  generalize e.giveEpoch p n = x
  intro hx
  have ha : x.checkHandoff p c = x := by
    have hk : (x.handoff c).consume = none := by obtain ⟨m, f, gs, rfl⟩ := hx; exact h6
    unfold Dev.checkHandoff
    rw [hk]
  have hb : x.takePend p c = x := by
    have hk : (x.att c).pend = none := by obtain ⟨m, f, gs, rfl⟩ := hx; exact h7
    unfold Dev.takePend
    rw [hk]
  have hc : x.checkPreempt p = x := by
    have hcur : x.curCtx p = some c := by obtain ⟨m, f, gs, rfl⟩ := hx; exact h9
    have hp : x.partCtxs p = [c] := by obtain ⟨m, f, gs, rfl⟩ := hx; exact h8
    unfold Dev.checkPreempt
    rw [hcur, hp]
    simp [Dev.asksPreempt]
  rw [ha, hb, hc]
  exact hx

theorem near_startAttempt {d : Dev} {p c : Nat} {g : Geo} {i : Img} (h1 : d.memberCtx c = false) (h2 : (d.att c).pendStart = none) (h3 : d.owedSlot p c = none)
    (h4 : (begun d p c g).tableCtx p c = false) (h5 : (begun d p c g).broodCtx c = false) (h6 : ((begun d p c g).handoff c).consume = none)
    (h7 : ((begun d p c g).att c).pend = none) (h8 : (begun d p c g).partCtxs p = [c]) (h9 : (begun d p c g).curCtx p = some c) :
    Near (begun d p c g) (d.startAttempt p c g i) := by
  unfold Dev.startAttempt
  simp only [h1, h2, h3, Bool.false_eq_true, if_false]
  have h4' := h4
  unfold begun at h4'
  simp only at h4'
  rw [h4', if_neg Bool.false_ne_true]
  refine attempt_tail (b := begun d p c g) ?_ h5 h6 h7 h8 h9 g false
  exact ((near_writeTables _ _ _ _ _ _).trans (near_writeBounds _ _ _ _ _)).trans (near_freshStep _ _)

/-- What the clause on damaged tables asks of the started device, from the device of its beginning. -/
theorem tables_of_begun {d : Dev} {p c : Nat} {g : Geo} {i : Img} {x : DramError} (hn : Near (begun d p c g) (d.startAttempt p c g i))
    (h1 : ((begun d p c g).att c).plan.isEmpty = false) (h2 : x.within (blkAddr ((begun d p c g).poolFirst p)) (8 * (begun d p c g).poolCount p) = true)
    (h3 : (begun d p c g).fltq.length < 64) :
    (((d.startAttempt p c g i).tablesOf p c g).any fun r => x.within r.1 r.2) = true ∧ (d.startAttempt p c g i).fltq.length < 64 := by
  generalize d.startAttempt p c g i = e at hn
  generalize begun d p c g = b at *
  have hp : (e.att c).plan = (b.att c).plan := by obtain ⟨m, f, gs, rfl⟩ := hn; rfl
  have hf : e.poolFirst p = b.poolFirst p := by obtain ⟨m, f, gs, rfl⟩ := hn; rfl
  have hc : e.poolCount p = b.poolCount p := by obtain ⟨m, f, gs, rfl⟩ := hn; rfl
  have hq : e.fltq = b.fltq := by obtain ⟨m, f, gs, rfl⟩ := hn; rfl
  refine ⟨?_, by rw [hq]; exact h3⟩
  unfold Dev.tablesOf
  dsimp only
  rw [hp, hf, hc, h1, if_neg Bool.false_ne_true, List.any_cons, h2, Bool.true_or]

/-! ### Take -/

namespace Take

def takeS : State := opDev [rec 3 0 (toLe 1 1 ++ toLe 1 2)] 4 (ov 63 63 63 63 (1 + 256)) tcRun (fun x => { x with queues := [(1, ⟨1, [⟨0, .cell 130 5, true, false, 0⟩]⟩)] }) fun d => { d with mem := memAt (4608*4) tileF }
def badT := badTile hF [] []
def badTakeS : State := opDev [rec 3 0 (toLe 1 1 ++ toLe 1 2)] 4 (ov 63 63 63 63 (1 + 256)) tcRun (fun x => { x with queues := [(1, ⟨1, [⟨0, .cell 130 5, true, false, 0⟩]⟩)] }) fun d => { d with mem := memAt (4608*4) badT }
def emptyTakeS : State := opDev [rec 3 0 (toLe 1 1 ++ toLe 1 2)] 4 (ov 63 63 63 63 (1 + 256)) tcRun id id

theorem test_TakeMovesACheckedTile (h : Obligations.TakeMovesACheckedTile) :
    Ran (.take 0 0 (ov 63 63 63 63 (1 + 256))) takeS ∧
    Ran (.take 0 0 (ov 63 63 63 63 (1 + 256))) emptyTakeS ∧
    Ran (.take 0 0 (ov 63 63 63 63 (1 + 256))) badTakeS :=
  ⟨ran (both (both (both (both ((h.1 takeS 0 0 (ov 63 63 63 63 (1 + 256)) (by decide +kernel)).1 ⟨0, .cell 130 5, true, false, 0⟩ tileF 130 5 (both (both (front_mem (4608*4))) (by decide +kernel) (by simp only [takeS, opDev]) (length_mkTile _ _ _)) (tileCrcOk_mkTile _ _ _))))) (by decide +kernel)),
   ran (both ((h.1 emptyTakeS 0 0 (ov 63 63 63 63 (1 + 256)) (by decide +kernel)).2) (by decide +kernel)),
   ran (both (both (h.2 badTakeS 0 0 (ov 63 63 63 63 (1 + 256)) ⟨0, .cell 130 5, true, false, 0⟩ badT 0 (by decide +kernel) (both (both (front_mem (4608*4))) (by decide +kernel) (by simp only [badTakeS, opDev]) (length_badTile _ _ _)) (tileCrcOk_bad _ _ _))) (by decide +kernel))⟩

end Take

/-! ### Puts -/

namespace Puts

def putI : Issue := { issue0 with sd := parseDesc dLink, counts := [4,1,1,1,1,1] }
def outR : CfgRec := rec 4 0 [2#8, 2#8, 1#8, 1#8, 3#8, 1#8, 0xFF#8, 0#8]
def strR : CfgRec := rec 6 0 (toLe 2 0 ++ zeros 14)
def putS (cr : Nat) : State := opDev [outR, strR] 5 (ov 63 63 63 63 2) { tcRun with outs := [(2, ⟨cr, 1, false⟩)] } id fun d => withImg (memAt 4 (hdrTail hF)) { d with fab := { d.fab with issues := [putI] } }
def wit1 : State := putS 1
def wit2 : State := putS 0
def sumS : State := opDev [outR] 10 (ov 63 33 63 63 0x302) { tcRun with sums := [(1, ⟨0x12345678, true, false⟩)] } id id
def rowS (opc : Nat) (o : CellOps) : State := opDev [] opc o tcRun (fun x => { x with vregs := [(64, 0x40000000), (65, 0x3F800000), (128, 0x40400000)], acc := [(0, 0x3F800000), (65, 0x40000000)] }) fun d => { d with mem := memAt 4 (hdrTail hF) ++ memAt 320 (List.replicate 200 0x3F#8) }
def wit4 : State := rowS 6 (ov 14 63 63 63 0)
def wit5 : State := rowS 7 (ov 63 1 63 63 30)
def wit6 : State := rowS 9 (ov 63 48 63 63 0x100)

theorem test_RowsAndBanksMove (h : Obligations.RowsAndBanksMove) :
    Ran (.ldrow 0 0 (ov 14 63 63 63 0)) wit4 ∧
    Ran (.strow 0 0 (ov 63 1 63 63 30)) wit5 ∧
    Ran (.rdbank 0 0 (ov 63 48 63 63 0x100)) wit6 :=
  ⟨ran (both (both ((h wit4 0 0 (ov 14 63 63 63 0) (by decide +kernel)).1)) (by decide +kernel)),
   ran (both (both ((h wit5 0 0 (ov 63 1 63 63 30) (by decide +kernel)).2.1)) (by decide +kernel)),
   ran (both (both ((h wit6 0 0 (ov 63 48 63 63 0x100) (by decide +kernel)).2.2 0)) (by decide +kernel))⟩

theorem test_PutAndSumsendSend (h : Obligations.PutAndSumsendSend) :
    Ran (.put 0 0 (ov 63 63 63 63 2)) wit1 ∧
    Ran (.put 0 0 (ov 63 63 63 63 2)) wit2 ∧
    Ran (.sumsend 0 0 (ov 63 33 63 63 0x302)) sumS :=
  ⟨ran (both (both ((both (both (both (both (both (h.1 wit1 0 0 (ov 63 63 63 63 2) putI))))) (by decide +kernel)).1 outR)) (by decide +kernel)),
   ran (both ((both (both (both (both (both (h.1 wit2 0 0 (ov 63 63 63 63 2) putI))))) (by decide +kernel)).2) (by decide +kernel)),
   ran (both (both (both (h.2 sumS 0 0 (ov 63 33 63 63 0x302) 1 outR))) (by decide +kernel))⟩

end Puts

/-! ### Products -/

namespace Products

def chR (a b len j l idx fl : Nat) : CfgRec := rec 7 0 (toLe 2 5 ++ toLe 2 a ++ toLe 2 b ++ toLe 1 0 ++ toLe 1 0 ++ toLe 4 len ++ toLe 2 j ++ toLe 1 l ++ toLe 1 idx ++ toLe 1 fl)
def rc := chR 1 3 32 0 0 2 0
def str1 : CfgRec := rec 6 0 (toLe 2 1 ++ toLe 1 1 ++ zeros 13)
def str3 : CfgRec := rec 6 0 (toLe 2 3 ++ toLe 1 2 ++ zeros 13)
def runC : ChainRun := ⟨0, 0, 1, 1, 32, false, 0, 1, [], 0⟩
def iA : Issue := { issue0 with uid := 1, descIdx := 1, sd := { parseDesc dLoad with buffered := true }, counts := [1,1,1,1,1,1], landed := 1, got := [0] }
def iB : Issue := { iA with uid := 2, descIdx := 3, buf := 2 }
def prodS : State := opDev [rc, str1, str3] 0 (ov 0 0 0 0 0) { tcRun with chains := [(2, some runC)] }
  (fun x => { x with acc := [(5, 7)] })
  fun d => { withImg [] d with fab := { d.fab with issues := [iA, iB] } }
def x1 : OpTile := prodS.dev.takeOperand 0 0 1
def x2 : OpTile := (dOf x1).takeOperand 0 0 3

theorem test_ChainsAccumulate (h : Obligations.ChainsAccumulate) :
    Ran (.tileProductDone 0 0 2) prodS :=
  ran (both (both (both (both (both (both (both (both (both (both (both (both (both (h.2 prodS 0 0 2 rc runC theImg 0 (hOf x1) (hOf x2) (tOf x1) (tOf x2) (nOf x1) (nOf x2) (eOf x1) (eOf x2) (dOf x1) (dOf x2)))))))))))))) (by decide +kernel) (opTile_eta (by decide +kernel)) (opTile_eta (by decide +kernel)))

end Products

/-! ### Flits -/

namespace Flits

def wit1 : State := st (onDev [])
def pk2 := mkPkt 8 0 40 0 5 9 []
def wit2 : State := st (onDev [])
def stR : CfgRec := rec 8 0 [0#8, 1#8, 0xFF#8, 0xFF#8, 0xFF#8, 2#8, 3#8, 0xFF#8, 0xFF#8, 0#8, 0#8]
def o2 : CfgRec := rec 4 0 [2#8, 2#8, 1#8, 1#8, 3#8, 1#8, 0xFF#8, 0#8]
def stC (sl : List QSlot) : Cell := { oneTc [setup0, plan, stR, o2, rec 3 0 [1#8, 2#8]] { tcRun with outs := [(2, ⟨1, 0, false⟩)] } with queues := [(1, ⟨1, sl⟩)] }
def sl0 : QSlot := ⟨0, .cell 130 5, true, false, 0⟩
def hP : Hdr := { hF with pred := 1 }
def tP := mkTile hP [] []
def stD (sl : List QSlot) : Dev := { onDev [] with fab := { Fabric.zero with cells := [(0, stC sl)], combMap := [(0, 1)] }, mem := memAt (4608*4) tP }
def wit3 : State := st (stD [sl0])
def wit4 : State := st (stD [])
def waitTc : Tc := { tcRun with st := .waitIn, wait := .queue 1 }
def wdD (stl : List Nat) : Dev := { onDev [] with ps := 20 * us, fab := { Fabric.zero with cells := [(0, oneTc [setup0, rec 3 0 [1#8, 2#8]] waitTc)], combMap := [(0, 1)], stalled := stl } }
def wit5 : State := st (wdD [])
def wit6 : State := st (wdD [0])
def landD : Dev := { onDev [] with ps := 20 * us, fab := { Fabric.zero with cells := [(0, oneTc [setup0, rec 3 0 [1#8, 2#8]] waitTc)], combMap := [(0, 1)] } }
def tp (g : Nat) := (mkPkt 1 g 0 130 5 0 tileF).withTc 0 1
def wit7 : State := st { landD with fab := { landD.fab with transit := [tp 0, pk] } }
def wit8 : State := st { landD with fab := { landD.fab with transit := [tp 1, pk] } }
def cr (tag : Nat) := mkPkt 6 0 0 130 tag 1 []
def crD : Dev := { onDev [] with fab := { Fabric.zero with cells := [(0, { oneTc [setup0, o2] { tcRun with st := .waitOut, wait := .output 2 } with tcs := [(0, { tcRun with st := .waitOut, wait := .output 2 })] })], combMap := [(0, 1)], issues := [{ issue0 with uid := 9, forager := some 0 }, issue0], transit := [cr 2] } }
def wit9 : State := st crD
def crF (dst tag : Nat) := mkPkt 6 0 dst 130 tag 1 []
def wit11 : State := st crD
def wit12 : State := st crD

theorem test_InjectionSteeringAndStalls (h : Obligations.InjectionSteeringAndStalls) :
    Ran (.packetInject 0 pk) wit1 ∧
    Ran (.packetInject 0 pk2) wit2 ∧
    Ran (.steerTile 0 0) wit3 ∧
    Ran (.steerTile 0 0) wit4 ∧
    Ran (.stallWatchdog 0 0) wit6 ∧
    Ran (.stallWatchdog 0 0) wit5 :=
  ⟨ran ((h.1 wit1 0 pk).1 (by decide +kernel)),
   ran (both (both (both (both ((h.1 wit2 0 pk2).2 0) (by decide +kernel) ⟨_, by rfl⟩))) (by decide +kernel)),
   ran (both (both (both (both (both (both (both (both ((both (both (h.2.1 wit3 0 0 stR)) (by decide +kernel)).1 sl0 tP 2 o2 130 5 (both (both (front_mem (4608*4))) (by decide +kernel) (by simp only [wit3, st, stD]) (length_mkTile _ _ _)))))))))) (by decide +kernel)),
   ran (both ((both (both (h.2.1 wit4 0 0 stR)) (by decide +kernel)).2) (by decide +kernel)),
   ran ((both (both (both (h.2.2 wit6 0 0))) (by decide +kernel)).1 (by decide +kernel)),
   ran (both (both (both ((both (both (both (h.2.2 wit5 0 0))) (by decide +kernel)).2 0))) (by decide +kernel))⟩

theorem test_TilesAndCreditsLand (h : Obligations.TilesAndCreditsLand) :
    Ran (.tile (tp 0)) wit7 ∧
    Ran (.tile (tp 1)) wit8 ∧
    Ran (.qcredit (crF 1 (0x4000 + 9))) wit11 ∧
    Ran (.qcredit (crF (seqCell 0 1) (0x8000 + 9))) wit12 ∧
    Ran (.qcredit (cr 2)) wit9 :=
  ⟨ran (both ((both (both (h.1 wit7 (tp 0))) (by decide +kernel)).1) (by decide +kernel)),
   ran ((both (both (h.1 wit8 (tp 1))) (by decide +kernel)).2 (by decide +kernel)),
   ran ((both (h.2 wit11 (crF 1 (0x4000 + 9))) (by decide +kernel)).1 (by decide +kernel)),
   ran ((both (h.2 wit12 (crF (seqCell 0 1) (0x8000 + 9))) (by decide +kernel)).2.1 (by decide +kernel)),
   ran (both (both ((both (h.2 wit9 (cr 2)) (by decide +kernel)).2.2)) (by decide +kernel))⟩

end Flits

/-! ### Answers -/

namespace Answers

def rq : Packet := (((mkPkt 2 0 (cellAt 32 0) 130 5 0x8000004000 []).withEject 1).withTc 1 2)
def memD : Dev := { onDev [] with mem := memAt 0x8000004000 tileF, fab := { (onDev []).fab with transit := [rq, pk] } }
def wit2 : State := st memD
def wr (a : Nat) : Packet := { (((mkPkt 4 0 (cellAt 32 0) 130 5 a (List.replicate 64 7#8)).withEject 1).withTc 1 2) with }
def wit3 : State := st memD
def rsp (tag : Nat) := (mkPkt 3 0 0 130 tag 0 tileF).withTc 0 1
def fI : Issue := { issue0 with uid := 9, forager := some 0, sd := parseDesc dLoad, counts := [4,1,1,1,1,1], sent := 2 }
def bI : Issue := { issue0 with uid := 10, forager := some 0, sd := { parseDesc dLoad with buffered := true }, counts := [4,1,1,1,1,1], sent := 2, buf := 1 }
def ansD : Dev := { onDev [] with ps := 20 * us, fab := { Fabric.zero with cells := [(0, { oneTc [setup0, plan, rec 3 0 [1#8, 2#8]] waitTc with queues := [(1, ⟨0, [⟨1, .forager 9, false, true, 0⟩]⟩)], unacked := 3 })], combMap := [(0, 1)], issues := [fI, bI], transit := [rsp 1] } } where
  waitTc : Tc := { tcRun with st := .waitIn, wait := .queue 1 }
def wit4 : State := st ansD
def wit6 : State := st ansD
def sm := (mkPkt 8 0 0 130 5 0x312345678 []).withTc 1 2
def wit7 : State := st { ansD with fab := { ansD.fab with cells := [(0, { Cell.zero with tcs := [(1, { tcRun with st := .waitIn, wait := .summary 19 })] })] } }
def sm2 := (mkPkt 8 0 (seqCell 0 1) 130 5 0x312345678 []).withTc 1 15
def wit8 : State := st ansD
def img4w : List Byte := imgBytes 1 1 1 [⟨4, 0, dLink ++ dLoad ++ dFp8 ++ dI32⟩, ⟨10, 0, [3#8, 0#8, 2#8, 1#8]⟩]
def wkD : Dev := { onDev [] with mem := memAt imgA img4w, img := { ImgPart.zero with imgs := [(0, some theImg)] }, fab := { Fabric.zero with combMap := [(0,1)], wkc := [(wkcKey false 0 3, ⟨41, true⟩)] } }
def wk (op inc : Nat) := (mkPkt 9 0 (cellAt 2 1) 12 0x8000 (3 * 2^40 + op * 2^38 + inc) []).withTc 0 0
def wit9 : State := st wkD
def seqD : Dev := { onDev [] with fab := { Fabric.zero with combMap := [(0,1)], seqs := [(1, { SeqSt.zero with on := true, wait := .wkc 5 })] } }
def wr2 := (mkPkt 0xA 0 (seqCell 0 1) 130 0x8001 77 [])
def wit10 : State := st seqD
def rqL : Packet := (mkPkt 2 0 1 0 5 (cellBase 1) []).withTc 1 2
def wrL (g : Nat) : Packet := (mkPkt 4 g 1 0 5 (cellBase 1) (List.replicate 64 7#8)).withTc 1 2
def locD : Dev := { onDev [] with mem := memAt (cellBase 1) tileF, fab := { Fabric.zero with combMap := [(0, 1)], transit := [rqL, pk] } }
def wit11 : State := st locD
def wit12 : State := st locD
def wit13 : State := st locD
def ansB : Dev := { ansD with fab := { ansD.fab with issues := [fI, { bI with got := [0] }] } }
def wit14 : State := st ansB
def rspF := (mkPkt 3 0 1 130 0x4001 0 tileF).withTc 0 1
def wit15 : State := st ansB
def wit16 : State := st ansB

theorem test_MemoryPacketsServed (h : Obligations.MemoryPacketsServed) :
    Ran (.readReq rq) wit2 ∧
    Ran (.write (wr 0x8000004000)) wit3 ∧
    Ran (.readReq rqL) wit11 ∧
    Ran (.write (wrL 0)) wit12 ∧
    Ran ((Instr.write (wrL 1))) wit13 :=
  ⟨ran (both (both (both (both (both (both ((h.1 wit2 rq).1)))))) (by decide +kernel)),
   ran (both (both (both (both (both (both (both (both (both ((h.1 wit3 (wr 0x8000004000)).2.1))))))))) (by decide +kernel)),
   ran (both (both (both (both (both (both ((h.1 wit11 rqL).2.2.1)))))) (by decide +kernel)),
   ran (both (both (both (both (both (both (both (both (both ((h.1 wit12 (wrL 0)).2.2.2.1))))))))) (by decide +kernel)),
   ran (both (both (both (both ((h.1 wit13 (wrL 1)).2.2.2.2 4 (Instr.write (wrL 1)))))) (by decide +kernel))⟩

theorem test_WorkCountersServe (h : Obligations.WorkCountersServe) :
    Ran (.wkcReset (wk 2 0)) wit9 ∧
    Ran (.wkcResp wr2) wit10 :=
  ⟨ran (both (both (both (both (both (both (h.2.1 wit9 (wk 2 0))))))) (by decide +kernel)),
   ran (both (both (both (h.2.2 wit10 wr2 1 5))) (by decide +kernel))⟩

theorem test_AnswersAndSummariesLand (h : Obligations.AnswersAndSummariesLand) :
    Ran (.readResp (rsp 1)) wit4 ∧
    Ran (.readResp (rsp (0x2000 + 2))) wit14 ∧
    Ran (.readResp rspF) wit15 ∧
    Ran (.writeAck (mkPkt 5 0 1 130 (0x4000 + 9) 0 [])) wit16 ∧
    Ran (.writeAck (mkPkt 5 0 0 130 5 0 [])) wit6 ∧
    Ran (.summary sm) wit7 ∧
    Ran (.summary sm2) wit8 :=
  ⟨ran (both (both (both (both (both ((h.1 wit4 (rsp 1)).1 ⟨1, .forager 9, false, true, 0⟩ 9))))) (by decide +kernel)),
   ran (both (both (both (both ((h.1 wit14 (rsp (0x2000 + 2))).2.1 ({ bI with got := [0] }) 1)))) (by decide +kernel)),
   ran (both ((h.1 wit15 rspF).2.2.1) (by decide +kernel)),
   ran (both (both ((h.1 wit16 (mkPkt 5 0 1 130 (0x4000 + 9) 0 [])).2.2.2.1 fI)) (by decide +kernel)),
   ran (both (both ((h.1 wit6 (mkPkt 5 0 0 130 5 0 [])).2.2.2.2)) (by decide +kernel)),
   ran ((h.2 wit7 sm (by decide +kernel)).1 (by decide +kernel)),
   ran (both ((h.2 wit8 sm2 (by decide +kernel)).2 1) (by decide +kernel))⟩

end Answers

/-! ### Drains -/

namespace Drains

def wr (a : Nat) : Packet := { (((mkPkt 4 0 (cellAt 32 0) 130 5 a (List.replicate 64 7#8)).withEject 1).withTc 1 2) with }
def imD : Dev := { onDev [(Reg.MOLT_HSTAT 0, wv [(Fld.MOLT_HSTAT_STATE, 2)])] with img := { ImgPart.zero with imgs := [(0, some theImg)] } }
def wit1 : State := st imD
def img4w : List Byte := imgBytes 1 1 1 [⟨4, 0, dLink ++ dLoad ++ dFp8 ++ dI32⟩, ⟨10, 0, [3#8, 0#8, 2#8, 1#8]⟩]
def wkD (live : Bool) : Dev := { onDev [] with mem := memAt imgA img4w, img := { ImgPart.zero with imgs := [(0, some theImg)] }, fab := { Fabric.zero with combMap := [(0,1)], wkc := [(wkcKey false 0 3, ⟨41, live⟩)] } }
def wk (op inc : Nat) := (mkPkt 9 0 (cellAt 2 1) 12 0x8000 (3 * 2^40 + op * 2^38 + inc) []).withTc 0 0
def wit2 : State := st (wkD true)
def cfgP (g tag : Nat) := mkPkt 0x10 g 0 130 tag 0 (recBytes (rec 3 0 [1#8, 2#8]) 0 0)
def cfD : Dev := { onDev [] with fab := { Fabric.zero with combMap := [(0,1)], transit := [cfgP 1 3] }, img := { ImgPart.zero with molts := [(0, { Molt.zero with unacked := [130, 5] })] } }
def wit5 : State := st cfD
def wit6 : State := st cfD
def wit7 : State := st cfD
def drD (n : Nat) : Dev := { onDev [] with ps := 50 * us, mem := memAt imgA img4w, fab := { Fabric.zero with combMap := [(0,1)] }, img := { ImgPart.zero with imgs := [(0, some theImg)], molts := [(0, { Molt.zero with draining := true, drained := [(0, n)] })] } }
def drP := mkPkt 0x18 0 0 130 0 0 []
def wit8 : State := st (drD 5)
def wit9 : State := st (drD 512)
def haltCell : Cell := { Cell.zero with tcs := [(0, tcRun), (1, { tcRun with st := .halted }), (2, { tcRun with st := .waitIn, wait := .queue 3 })] }
def dbD : Dev := { onDev [(Reg.DBG_CYC_ACTIVE 0, 7), (Reg.DBG_CYC_ACTIVE 1, 8)] with fab := { Fabric.zero with cells := [(0, haltCell)], combMap := [(0,1)] } }
def wit10 : State := st dbD
def slD : Dev := onDev [(Reg.PART_STAT 0, wv [(Fld.PART_STAT_STATE, 3)])]
def wit13 : State := st slD

theorem test_MemoryPacketsServed (h : Obligations.MemoryPacketsServed) :
    Ran (.write (wr 0x8000000400)) wit1 :=
  ran (both (both (both (both (both (both (both (both (h.2 wit1 (wr 0x8000000400))))))))) (by decide +kernel))

theorem test_WorkCountersServe (h : Obligations.WorkCountersServe) :
    Ran (.wkcFetchAdd (wk 0 9)) wit2 :=
  ran (both (both (both (both (h.1 wit2 (wk 0 9) 0 Instr.wkcFetchAdd (by simp))))) (by decide +kernel) (fun v => (by decide +kernel : enters wit2.dev (wk 0 9).dst ((mkPkt 10 (wk 0 9).gen (wk 0 9).src (wk 0 9).dst (wk 0 9).tag 0 []).withTc (wk 0 9).tc (wk 0 9).queue) = true)))

theorem test_DebugControl (h : Obligations.DebugControl) :
    Ran (.dbgTcHalt 1 0 5) wit10 ∧
    Ran (.dbgFreeze 1 0 true) wit10 ∧
    Ran (.dbgClr 1 0) wit10 ∧
    Ran ((.dbgFreeze 0 0 true)) wit13 :=
  ⟨ran ((both (h.1 wit10 1 0) (by decide +kernel)).1 5),
   ran ((both (h.1 wit10 1 0) (by decide +kernel)).2.1 true),
   ran ((both (h.1 wit10 1 0) (by decide +kernel)).2.2),
   ran (both (both (both (both (h.2 wit13 0 0 0 (.dbgFreeze 0 0 true))))) (by decide +kernel))⟩

theorem test_ShadowLoadsAndDrains (h : Obligations.ShadowLoadsAndDrains) :
    Ran (.cfgWrite (cfgP 1 3)) wit5 ∧
    Ran (.cfgWrite (cfgP 3 3)) wit6 ∧
    Ran (.cfgAck (mkPkt 0x11 0 1 130 0 0 [])) wit7 ∧
    Ran (.cellDrainSend 0) wit8 ∧
    Ran (.drain drP) wit8 ∧
    Ran (.drainBarrierComplete 0) wit9 :=
  ⟨ran (both (both (both ((h.1 wit5 (cfgP 1 3)).1))) (by decide +kernel)),
   ran (both ((h.1 wit6 (cfgP 3 3)).2.1) (by decide +kernel)),
   ran (both (both (both (both ((h.1 wit7 (mkPkt 0x11 0 1 130 0 0 [])).2.2 0)))) (by decide +kernel)),
   ran (both (both (both (both (both (both ((h.2 wit8).1 0 0 theImg)))))) (by decide +kernel)),
   ran (both (both ((h.2 wit8).2.1 drP 0)) (by decide +kernel)),
   ran (both (both (both (both ((h.2 wit9).2.2 0 theImg)))) (by decide +kernel))⟩

end Drains

/-! ### Seqs -/

namespace Seqs

def o := sqo 7 5 6
def wit1 : State := st (seqOne 1 0 0 o xq)
def wit2 : State := st (seqOne 1 1 0 o xq)
def wit3 : State := st (seqOne 1 0 2 o xq)
def wit4 : State := st (seqOne 1 0 2 (sqo 7 0 0) xq)
def wit5 : State := st (seqOne 1 1 2 o xq)
def wit6 : State := st (seqOne 1 2 4 o xq)
def stepD (ph : Nat) : Dev := { seqDev 1 (toLe 4 (seqWord 0 5 o)) xq false img4 [(Reg.SCHED_STAT 0, wv [(Fld.SCHED_STAT_CUR_VALID, 1)]), (Reg.STEP_PHASE 0, wv [(Fld.STEP_PHASE_PHASE, ph)])] with srv := { Serving.zero with att := [(0, { Attempt.zero with epoch := 9 })] } }
def wit7 : State := st (stepD 1)
def wit8 : State := st (stepD 0)
def waitD (en : Bool) : Dev := let d := seqOne 1 2 1 o xq; { d with fab := { d.fab with issues := [{ issue0 with queue := 1, landed := 4, ended := en }, { issue0 with uid := 8, queue := 1, landed := 2, ended := true }] } }
def wit9 : State := st (waitD true)
def wit10 : State := st (waitD false)
def wit11 : State := st (seqOne 1 2 5 o xq)
def rvD (w : Nat) (q : SeqSt) := st (seqDev 1 (toLe 4 w) q false img4 [])
def wit12 : State := rvD (encR 1 6 5 4 7 0x33) xq
def xm : SeqSt := { xq with x := [(5, 0x10010), (6, 0x1234567890)], data := [(8, 7#8), (9, 1#8), (15, 0x80#8)] }
def wit14 : State := rvD (encI 0xFF8 5 3 6 0x03) xm
def wit15 : State := rvD (encS 0xFF8 6 5 3 0x23) xm
def wit16 : State := rvD (encB (2*0xFFE) 5 5 0) xm
def wit17 : State := rvD (encI 0xFFC 5 3 6 0x03) xm

theorem test_SequencerBaseInstructions (h : Obligations.SequencerBaseInstructions) :
    Ran (.sequencerBaseInstruction 0 1) wit12 ∧
    Ran (.sequencerBaseInstruction 0 1) wit14 ∧
    Ran (.sequencerBaseInstruction 0 1) wit15 ∧
    Ran (.sequencerBaseInstruction 0 1) wit16 ∧
    Ran (.sequencerException 0 1) wit17 :=
  ⟨ran (both (h.1 (rvRows[14]) (List.getElem_mem _) wit12 0 1 7 5 6) (by decide +kernel)),
   ran (both (both (both ((h.2 wit14 0 1 5 6 0xFF8 (by decide +kernel)).1))) (by decide +kernel)),
   ran (both (both (both ((h.2 wit15 0 1 5 6 0xFF8 (by decide +kernel)).2.1))) (by decide +kernel)),
   ran (both ((h.2 wit16 0 1 5 5 0xFFE (by decide +kernel)).2.2.1) (by decide +kernel)),
   ran (both (both (both (both ((h.2 wit17 0 1 5 6 0xFFC (by decide +kernel)).2.2.2 0)))) (by decide +kernel))⟩

theorem test_SequencerMovesAndWaits (h : Obligations.SequencerMovesAndWaits) :
    Ran (.sqBndw 0 1 o) wit1 ∧
    Ran (.sqBndr 0 1 o) wit2 ∧
    Ran (.sqSumr 0 1 o) wit3 ∧
    Ran (.sqSumr 0 1 (sqo 7 0 0)) wit4 ∧
    Ran (.sqSump 0 1 o) wit5 ∧
    Ran (.sqStat 0 1 o) wit6 ∧
    Ran (.sqStep 0 1 o) wit7 ∧
    Ran (.sqStep 0 1 o) wit8 ∧
    Ran (.sqWait 0 1 o) wit9 ∧
    Ran (.sqWait 0 1 o) wit10 ∧
    Ran (.sqLaunch 0 1 o) wit11 :=
  ⟨ran ((h.1 wit1 0 1 o 0).1 (by unfold seqIssues; decide +kernel)),
   ran ((h.1 wit2 0 1 o 0).2.1 (by unfold seqIssues; decide +kernel)),
   ran (((h.1 wit3 0 1 o 0).2.2.1 (by unfold seqIssues; decide +kernel)).1 (by decide +kernel)),
   ran (((h.1 wit4 0 1 (sqo 7 0 0) 0).2.2.1 (by unfold seqIssues; decide +kernel)).2 (by decide +kernel)),
   ran ((h.1 wit5 0 1 o 0).2.2.2 (by unfold seqIssues; decide +kernel)),
   ran ((h.2 wit6 0 1 o 0).1 (by unfold seqIssues; decide +kernel)),
   ran (both (((h.2 wit7 0 1 o 0).2.1 0 (by unfold seqIssues; decide +kernel) (by decide +kernel)).1) (by decide +kernel)),
   ran (((h.2 wit8 0 1 o 0).2.1 0 (by unfold seqIssues; decide +kernel) (by decide +kernel)).2 (by decide +kernel)),
   ran (both (((h.2 wit9 0 1 o 0).2.2.1 (by unfold seqIssues; decide +kernel)).1) (by decide +kernel)),
   ran (((h.2 wit10 0 1 o 0).2.2.1 (by unfold seqIssues; decide +kernel)).2 (by decide +kernel)),
   ran ((h.2 wit11 0 1 o 0).2.2.2 (by unfold seqIssues; decide +kernel))⟩

end Seqs

/-! ### SeqIssues -/

namespace SeqIssues

def o := sqo 7 5 6
def chR2 : CfgRec := rec 7 0 (toLe 2 5 ++ toLe 2 1 ++ toLe 2 1 ++ toLe 1 0 ++ toLe 1 0 ++ toLe 4 33 ++ toLe 2 0 ++ toLe 1 1 ++ toLe 1 2 ++ toLe 1 1)
def chD : Dev := let d := seqOne 1 1 1 o { SeqSt.zero with x := [(5, 5), (6, 2)] }; { d with fab := { d.fab with cells := [(0, oneTc [setup0, chR2] tcRun), (3, oneTc [chR2] tcRun)] } }
def chD2 : Dev := { chD with fab := { chD.fab with cells := [(0, oneTc [setup0, chR2] tcRun), (3, oneTc [setup0, chR2] tcRun)] } }
def wit2 : State := st chD2
def wit3 : State := st chD
def ldD (desc : Nat) : Dev := let d := seqOne 1 0 1 o { SeqSt.zero with x := [(5, desc), (6, 2)] }; { d with fab := { d.fab with cells := [(0, oneTc [setup0, plan, rec 3 0 [1#8, 2#8], rec 6 0 (toLe 2 1 ++ toLe 1 1 ++ toLe 1 0xFF ++ zeros 12)] tcRun)] } }
def theBd : Binding := ((ldD 1).bindings theImg 0 1).headD ⟨0,0,0,0,false,none⟩
def wit4 : State := st (ldD 1)
def dStore2 : List Byte := descB 0x20000200000 9 1 2 0x01 0 5 0xFFFF [dimB 4608 4 4 0 1 1]
def imgS : List Byte := imgBytes 1 1 1 [⟨4, 0, dStore2⟩]
def stD2 : Dev := let d := seqDev 1 (toLe 4 (seqWord 0 1 o)) { SeqSt.zero with x := [(6,2)] } false imgS []; d
def wit5 : State := st stD2
def img4w : List Byte := imgBytes 1 1 1 [⟨4, 0, dLink ++ dLoad ++ dFp8 ++ dI32⟩, ⟨10, 0, [3#8, 0#8, 2#8, 1#8]⟩]
def wkD (f7 : Nat) : Dev := let d := seqDev 1 (toLe 4 (seqWord f7 3 o)) { SeqSt.zero with x := [(5, 3), (6, 2^40+9)] } false img4w []; d
def wit6 : State := st (wkD 0)
def wit7 : State := st (wkD 1)
def imgP : List Byte := imgBytes 2 1 1 [instarSec 0 [], instarSec 1 [rawRec 1 0 2 1 0 setupPl, rawRec 1 0 3 1 0 setupPl, rawRec 1 0 2 1 1 setupPl]]
def plD (n : Nat) (more : List (Nat × Word)) : Dev := seqDev 1 (toLe 4 (seqWord 0 4 o)) { SeqSt.zero with x := [(5, n), (6, 2)] } false imgP more
def wit8 : State := st (plD 1 [])
def wit9 : State := st (plD 9 [])
def wit10 : State := st (plD 1 [(Reg.MOLT_STAT 0, wv [(Fld.MOLT_STAT_ACTIVE_VALID, 1), (Fld.MOLT_STAT_SHADOW_INSTAR, 1), (Fld.MOLT_STAT_SHADOW_VALID, 1)])])
def vD (f3 n : Nat) (voter : Bool) (more : List (Nat × Word)) (a : Attempt) : Dev :=
  let d := seqDev 1 (toLe 4 (seqWord 1 f3 o)) { SeqSt.zero with x := [(5, n), (6, 2)] } voter (imgBytes 2 2 1 [instarSec 0 [], instarSec 1 []]) ([(Reg.PART_COMBS 0, 7)] ++ more)
  { d with img := { d.img with progs := d.img.progs ++ [(progKey 0 1 0, some ⟨[], [], 0, true⟩), (progKey 0 2 0, some ⟨[], [], 0, true⟩)], molts := [(0, { Molt.zero with requests := [(2, 1)] })] },
           fab := { d.fab with combMap := [(0,1),(1,1),(2,1)] }, srv := { d.srv with att := [(0, a)] } }
def wit11 : State := st (vD 4 1 false [] Attempt.zero)
def wit12 : State := st (vD 4 1 true [] Attempt.zero)
def wit13 : State := st (vD 5 0 false [] Attempt.zero)
def wit14 : State := st (vD 5 0 true [(Reg.SCHED_STAT 0, wv [(Fld.SCHED_STAT_CUR_VALID, 1)]), (Reg.STEP_PHASE 0, wv [(Fld.STEP_PHASE_PHASE, 1)])] { Attempt.zero with epoch := 9 })
def wit15 : State := st (vD 4 5 true [] Attempt.zero)

theorem test_PreloadsAndVoters (h : Obligations.PreloadsAndVoters) :
    Ran (.sqPreload 0 1 o) wit10 ∧
    Ran (.sqPreload 0 1 o) wit8 ∧
    Ran (.sqPreload 0 1 o) wit9 ∧
    Ran (.sqMolt 0 1 o) wit11 ∧
    Ran (.sqMolt 0 1 o) wit15 ∧
    Ran (.sqMolt 0 1 o) wit12 ∧
    Ran (.sqVote 0 1 o) wit13 ∧
    Ran (.sqVote 0 1 o) wit14 :=
  ⟨ran (both ((h.1 wit10 0 1 o 0 theImg (by unfold seqIssues; decide +kernel) (by decide +kernel)).1) (by decide +kernel)),
   ran (both (both (both (both (both (both (both (both (both ((h.1 wit8 0 1 o 0 theImg (by unfold seqIssues; decide +kernel) (by decide +kernel)).2.1))))))))) (by decide +kernel)),
   ran (both (both ((h.1 wit9 0 1 o 0 theImg (by unfold seqIssues; decide +kernel) (by decide +kernel)).2.2)) (by decide +kernel)),
   ran (both ((h.2 wit11 0 1 o 0).1 (by unfold seqIssues; decide +kernel)) (by decide +kernel)),
   ran (both (both (both ((h.2 wit15 0 1 o 0).2.1 theImg (by unfold seqIssues; decide +kernel)))) (by decide +kernel)),
   ran (both (both (both (both (both (both (both ((h.2 wit12 0 1 o 0).2.2.1 theImg 2 [] 1 (by unfold seqIssues; decide +kernel)))))))) (by decide +kernel)),
   ran (both ((h.2 wit13 0 1 o 0).2.2.2.1 (by unfold seqIssues; decide +kernel)) (by decide +kernel)),
   ran (both (both (both (both ((h.2 wit14 0 1 o 0).2.2.2.2 0 (by unfold seqIssues; decide +kernel))))) (by decide +kernel))⟩

theorem test_SequencerIssues (h : Obligations.SequencerIssues) :
    Ran (.sqChain 0 1 o) wit2 ∧
    Ran (.sqChain 0 1 o) wit3 ∧
    Ran (.sqIssue 0 1 o) wit4 ∧
    Ran (.sqIssue 0 1 o) wit5 ∧
    Ran (.sqWkc 0 1 o) wit6 ∧
    Ran (.sqWkcrst 0 1 o) wit7 :=
  ⟨ran ((h.1 wit2 0 1 o 0).1 (by unfold seqIssues; decide +kernel) (by decide +kernel)),
   ran (both (both ((h.1 wit3 0 1 o 0).2.1 0x0814 (by unfold seqIssues; decide +kernel))) (by decide +kernel)),
   ran (both (both (both (both (both (both (both (both (both (both (both ((h.1 wit4 0 1 o 0).2.2.1 theImg (parseDesc (dLoad.take 96)) theBd 256 (by unfold seqIssues; decide +kernel)))))))))))) (by decide +kernel)),
   ran (both (both (both (both (both ((h.1 wit5 0 1 o 0).2.2.2 theImg (parseDesc (dStore2.take 96)) (by unfold seqIssues; decide +kernel)))))) (by decide +kernel)),
   ran ((h.2 wit6 0 1 o 0 130 (by decide +kernel)).1 (by unfold seqIssues; decide +kernel) (by decide +kernel)),
   ran ((h.2 wit7 0 1 o 0 130 (by decide +kernel)).2 (by unfold seqIssues; decide +kernel) (by decide +kernel))⟩

end SeqIssues

/-! ### Handles -/

namespace Handles

def fI : Issue := { issue0 with uid := 9, comb := 0, forager := some 0, sd := parseDesc dLoad, counts := [4,1,1,1,1,1], queue := 1 }
def fD : Dev := { onDev [] with fab := { Fabric.zero with combMap := [(0,1)], cells := [(0, (oneTc [setup0, plan, rec 3 0 [1#8, 2#8], rec 6 0 (toLe 2 1 ++ toLe 1 1 ++ toLe 1 0xFF ++ zeros 12)] tcRun).setForCredit 1 2)], issues := [fI] } }
def wit1 : State := st fD
def wit2 : State := st fD
def hD (more : List (Nat × Word)) : Dev := { onDev more with mem := memAt imgA img4, img := { ImgPart.zero with imgs := [(0, some theImg), (5, some theImg)], progs := [(progKey 5 0 1, some ⟨[], [], 0, false⟩)] } }
def wit4 : State := st (hD [])
def wit5 : State := st (hD [(Reg.MOLT_CMD 0, wv [(Fld.MOLT_CMD_OP, 1)])])
def wit6 : State := st (hD [(Reg.MOLT_HSTAT 5, wv [(Fld.MOLT_HSTAT_STATE, 3)])])
def rgD : Dev := { hD [(Reg.MOLT_CMD 0, wv [(Fld.MOLT_CMD_OP, 1), (Fld.MOLT_CMD_HANDLE, 5)]), (Reg.MOLT_HSTAT 5, wv [(Fld.MOLT_HSTAT_STATE, 1)])] with img := { ImgPart.zero with molts := [(0, { Molt.zero with cmdHandle := 5 })] } }
def rgI : Img := rgD.candidate 0 0
def wit7 : State := st rgD
def flR (stt : Nat) : List (Nat × Word) := [(Reg.MOLT_HSTAT 0, wv [(Fld.MOLT_HSTAT_STATE, 2)]), (Reg.MOLT_STAT 0, wv [(Fld.MOLT_STAT_ACTIVE_VALID, 1), (Fld.MOLT_STAT_SHADOW_INSTAR, 1), (Fld.MOLT_STAT_SHADOW_VALID, 1), (Fld.MOLT_STAT_STATE, stt), (Fld.MOLT_STAT_GEN, 255)])]
def flC (g : Byte) : Cell := { oneTc [setup0] tcRun with gen := g, shadow := [plan, setup0], shadowValid := true, queues := [(1, ⟨1, []⟩)], vregs := [(0, 1)], acc := [(5, 5)] }
def flD (stt : Nat) : Dev := { onDev (flR stt) with mem := memAt imgA (imgBytes 2 1 1 [instarSec 0 [], instarSec 1 []]), img := { ImgPart.zero with imgs := [(0, some theImg)], molts := [(0, { Molt.zero with barrier := true, requests := [(0, 1)], draining := true })] }, fab := { Fabric.zero with combMap := [(0,1)], cells := [(0, flC 255), (130, flC 255)], seqs := [(1, { SeqSt.zero with on := true, wait := .molt 7 1 })] } }
def wit8 : State := st (flD 3)

theorem test_HandleCommands (h : Obligations.HandleCommands) :
    Ran (.registerImage 1 0 5 0) wit4 ∧
    Ran ((.retire 1 0 5)) wit5 ∧
    Ran (.retire 1 0 5) wit6 ∧
    Ran (.registrationEnd 0) wit7 :=
  ⟨ran (both (both ((both ((h wit4 1 0 5 0).1) (by decide +kernel)).1)) (by decide +kernel)),
   ran ((both ((h wit5 1 0 5 0).1) (by decide +kernel)).2.1 (by decide +kernel) (.retire 1 0 5) (by decide +kernel)),
   ran (both ((both ((h wit6 1 0 5 0).1) (by decide +kernel)).2.2) (by decide +kernel)),
   ran (both ((both (both ((h wit7 1 0 5 0).2 rgI)) (by decide +kernel) rfl).2 cSecurity 0x0932 0x5000000000000000) (by decide +kernel))⟩

theorem test_FlipsAndAborts (h : Obligations.FlipsAndAborts) :
    Ran (.flipStart 0) wit8 :=
  ran (both (both (both (both (both ((h.1 wit8 0).1 theImg))))) (by decide +kernel) (nodup_of_rises (a := 0) (by decide +kernel)) (by decide +kernel))

theorem test_ForagersReadAhead (h : Obligations.ForagersReadAhead) :
    Ran (.foragerTransferSend 0 0) wit1 ∧
    Ran (.fqLimitWrite 1 0 3 64) wit2 :=
  ⟨ran (both (both (both (both (both (h.1 wit1 0 0 fI [0,0,0,0,0,0] false))))) (by decide +kernel)),
   ran (both (both (both (h.2 wit2 1 0 3 64 0))) (by decide +kernel))⟩

end Handles

/-! ### Loads -/

namespace Loads

def flR (stt : Nat) : List (Nat × Word) := [(Reg.MOLT_HSTAT 0, wv [(Fld.MOLT_HSTAT_STATE, 2)]), (Reg.MOLT_STAT 0, wv [(Fld.MOLT_STAT_ACTIVE_VALID, 1), (Fld.MOLT_STAT_SHADOW_INSTAR, 1), (Fld.MOLT_STAT_SHADOW_VALID, 1), (Fld.MOLT_STAT_STATE, stt), (Fld.MOLT_STAT_GEN, 255)])]
def flC (g : Byte) : Cell := { oneTc [setup0] tcRun with gen := g, shadow := [plan, setup0], shadowValid := true, queues := [(1, ⟨1, []⟩)], vregs := [(0, 1)], acc := [(5, 5)] }
def flD (stt : Nat) : Dev := { onDev (flR stt) with mem := memAt imgA (imgBytes 2 1 1 [instarSec 0 [], instarSec 1 []]), img := { ImgPart.zero with imgs := [(0, some theImg)], molts := [(0, { Molt.zero with barrier := true, requests := [(0, 1)], draining := true })] }, fab := { Fabric.zero with combMap := [(0,1)], cells := [(0, flC 255), (130, flC 255)], seqs := [(1, { SeqSt.zero with on := true, wait := .molt 5 1 })] } }
def wit1 : State := st (flD 4)
def wit2 : State := st (flD 5)
def ldRegs : List (Nat × Word) := [(Reg.MEM_LD_BASE 0, wv [(Fld.MEM_LD_BASE_BASE, t1Base + 0x200000), (Fld.MEM_LD_BASE_LOG2N, 4)]), (Reg.MEM_LD_TAIL 0, 18), (Reg.MEM_LD_HEAD 0, 17)]
def jobR (op kind sf df fl src dst len rows cols : Nat) : List Byte := toLe 1 op ++ toLe 1 kind ++ toLe 1 sf ++ toLe 1 df ++ toLe 2 0 ++ toLe 1 fl ++ zeros 1 ++ toLe 8 src ++ toLe 4 0 ++ toLe 2 0xFFFF ++ zeros 2 ++ toLe 8 dst ++ (if op = 2 then toLe 4 rows ++ toLe 4 cols else zeros 8) ++ toLe 8 len ++ toLe 8 77 ++ zeros 8
def A0 := t1Base + 0x400000
def B0 := t1Base + 0x500000
def lD (r : List Byte) (jobs : List Job) (more : Store Byte) : Dev := { onDev ldRegs with mem := memAt (t1Base + 0x200040) r ++ more, ldr := { Loader.zero with jobs := jobs } }
def jc := jobR 1 0 0 0 0 A0 B0 512 0 0
def jJ (r : List Byte) : Job := ⟨0, 17, r, [], 0, 1, [], 0, none, 0⟩
def wit3 : State := st (lD jc [] [])
def wit6 : State := st (lD jc [jJ jc] (memAt A0 (List.replicate 512 9#8)))
def wit7 : State := st (onDev ldRegs)
def wit9 : State := st (onDev ldRegs)

theorem test_LoaderRuns (h : Obligations.LoaderRuns) :
    Ran (((1, Instr.loaderCopy 0) : Nat × Instr).snd) wit3 ∧
    Ran (.loaderJobEnd 0 true) wit6 ∧
    Ran (.ldTailWrite 1 0 33) wit7 ∧
    Ran (.ldBaseWrite 0 0 (wv [(Fld.MEM_LD_BASE_BASE, t1Base + 0x300000), (Fld.MEM_LD_BASE_LOG2N, 6)])) wit9 :=
  ⟨ran (both (both (both (both (both (both (both (both ((h.1 wit3 0 17).1 (1, Instr.loaderCopy 0))))))))) (by decide +kernel)),
   ran (both (both (both (both (both (both (both (both (both (both (both (both (both ((h.1 wit6 0 17).2 (jJ jc)))))))))))))) (by decide +kernel)),
   ran (both ((h.2 wit7 1 0 33).1) (by decide +kernel)),
   ran (both (both (both (both (both (both ((h.2 wit9 0 0 (wv [(Fld.MEM_LD_BASE_BASE, t1Base + 0x300000), (Fld.MEM_LD_BASE_LOG2N, 6)])).2)))))) (by decide +kernel))⟩

theorem test_FlipsAndAborts (h : Obligations.FlipsAndAborts) :
    Ran (.flipEnd 0) wit1 ∧
    Ran (.abortingEnd 0) wit2 :=
  ⟨ran (both ((h.1 wit1 0).2) (by decide +kernel)),
   ran (both (both (both (both (h.2 wit2 0 theImg 0))) (by decide +kernel) (nodup_of_rises (a := 0) (by decide +kernel))) (by decide +kernel))⟩

end Loads

/-! ### Repairs -/

namespace Repairs

def t2R : Nat × Word := (Reg.MEM_CFG, wv [(Fld.MEM_CFG_T2_GRANULES, 2)])
def recM (kind sf df src dst len rows cols op : Nat) : List Byte := toLe 1 op ++ toLe 1 kind ++ toLe 1 sf ++ toLe 1 df ++ zeros 4 ++ toLe 8 src ++ zeros 8 ++ toLe 8 dst ++ (if op = 2 then toLe 4 rows ++ toLe 4 cols else zeros 8) ++ toLe 8 len
def entM (stt part n : Nat) (recs : List Byte) : List Byte := toLe 1 stt ++ toLe 1 part ++ toLe 2 n ++ zeros 252 ++ recs
def D2 := t2Base + 0x400000
def msD (ent : List Byte) (more : List (Nat × Word)) (sizes : Store Nat) (mem : Store Byte) : Dev := { onDev ([t2R, (Reg.PART_T2 0, 1), (Reg.MOLT_HSTAT 0, wv [(Fld.MOLT_HSTAT_STATE, 2)])] ++ more) with mem := memAt imgA (imgBytes 1 1 1 [⟨9, 0, putLe (toLe 2 1 ++ zeros 62 ++ toLe 1 2 ++ toLe 1 0 ++ zeros 6 ++ toLe 8 4608) 0 2 1⟩]) ++ memAt (t2Base + 4096 * 3) ent ++ mem, img := { ImgPart.zero with imgs := [(0, some { theImg with place := [D2] })] }, ldr := { Loader.zero with sizes := sizes } }
def rp : Repair := ⟨3, 0, D2, [], []⟩
def rp2 : Repair := ⟨4, 0, D2, [], [(0, 7)]⟩
def rD : Dev := let d := msD (entM 2 0 1 (recM 0 1 2 (t1Base + 0x600000) D2 4608 0 0 1)) [] [(192, 1)] []; { d with ldr := { d.ldr with repairs := [rp, rp2] } }
def rj : Job := ⟨rD.msPart 3, 0, rD.msRecord 3 0 ++ zeros 16, [], 0, 1, [], 0, none, rD.ps⟩
def ro := (rD.jobOutput rj).1
def wit1 : State := st rD

theorem test_PatrolAndRepair (h : Obligations.PatrolAndRepair) :
    Ran (.repairEnd true) wit1 ∧
    Ran (.repairEnd false) wit1 :=
  ⟨ran (both (both ((both ((h wit1).2 rp [rp2] ro) (by decide +kernel)).1)) (by decide +kernel) (Prod.ext (Eq.refl ro) (by decide +kernel : (rD.jobOutput rj).2 = true)) (cutSlots_one (both (length_raw (d := rD) (j := rj)) (by decide +kernel))) (both (length_raw (d := rD) (j := rj)) (by decide +kernel)) (slotOk_bad (by decide +kernel : hdrValid (hdrOf (rD.bytes D2 tileWire)) = false))),
   ran ((both ((h wit1).2 rp [rp2] ro) (by decide +kernel)).2 (by decide +kernel))⟩

end Repairs

/-! ### LoopRegs -/

namespace LoopRegs

def lp (n : Nat) : Nat × Word := (Reg.STEP_STAT 0, wv [(Fld.STEP_STAT_STATE, n)])
def S0 := svDev [] [] Serving.zero
def wit1 : State := st S0
def wit2 : State := st (svDev [(Reg.SCHED_CTX 0, 0)] [] Serving.zero)
def held1 : Serving := { Serving.zero with slots := [(0, [⟨1, 2⟩])] }
def wit3 : State := st (svDev [lp 1] [] Serving.zero)
def wit5 : State := st (svDev [lp 3] [] held1)
def wit6 : State := st (svDev [lp 3] [] Serving.zero)
def wit7 : State := st S0
def wit8 : State := st (svDev [(Reg.SCHED_CTX 0, 0)] [] Serving.zero)
def wit9 : State := st (svDev [(Reg.MOLT_HSTAT 0, 0), lp 1] [] Serving.zero)
def rqMem (st_ : Nat) : Store Byte := memAt (reqWork 2) (goodRq ++ rqStat st_ 0)
def wit10 : State := st (svDev [] (rqMem 0) Serving.zero)
def wit11 : State := st (svDev [lp 1, (Reg.STEP_EVT_CFG 0, wv [(Fld.STEP_EVT_CFG_LOG2N, 5)])] (rqMem 0 ++ memAt (reqWork 3) (putLe goodRq 4 4 0)) Serving.zero)
def wit12 : State := st (svDev [] (rqMem 2) Serving.zero)
def wit13 : State := st (svDev [lp 1] (rqMem 3) held1)
def wit14 : State := st (svDev [lp 1] (rqMem 7) Serving.zero)
def wit15 : State := st (svDev [lp 1] (rqMem 7) Serving.zero)
def wit16 : State := st (svDev [lp 1, (Reg.STEP_PHASE 0, wv [(Fld.STEP_PHASE_PHASE, 3)])] (rqMem 7) Serving.zero)
def wit17 : State := st (svDev [lp 1] (rqMem 0) Serving.zero)

theorem test_LoopsAndTheirSettings (h : Obligations.LoopsAndTheirSettings) :
    Ran (.loopStart 1 0) wit1 ∧
    Ran (.loopStart 1 0) wit2 ∧
    Ran (.loopStop 1 0) wit3 ∧
    Ran (.loopStop 1 0) wit5 ∧
    Ran (.loopStop 1 0) wit6 ∧
    Ran (.loopResume 1 0) wit5 ∧
    Ran (.loopResume 1 0) wit1 ∧
    Ran (.ctxEnable 1 0) wit7 ∧
    Ran (.ctxEnable 1 0) wit9 ∧
    Ran (.ctxDisable 1 0) wit7 ∧
    Ran (.ctxDisable 1 0) wit9 ∧
    Ran (.ctxSettingsWrite 1 0 3 true 5) wit8 ∧
    Ran (.ctxSettingsWrite 1 0 3 true 5) wit7 :=
  ⟨ran (both ((both (both (h.1 wit1 1 0 0)) (by decide +kernel)).1) (by decide +kernel)),
   ran (both ((both (both (h.1 wit2 1 0 0)) (by decide +kernel)).2.1) (by decide +kernel)),
   ran ((both (both (h.1 wit3 1 0 0)) (by decide +kernel)).2.2.1 (by decide +kernel)),
   ran (both ((both (both (h.1 wit5 1 0 0)) (by decide +kernel)).2.2.2.1) (by decide +kernel)),
   ran (both ((both (both (h.1 wit6 1 0 0)) (by decide +kernel)).2.2.2.2.1) (by decide +kernel)),
   ran ((both (both (h.1 wit5 1 0 0)) (by decide +kernel)).2.2.2.2.2.1 (by decide +kernel)),
   ran ((both (both (h.1 wit1 1 0 0)) (by decide +kernel)).2.2.2.2.2.2 (by decide +kernel)),
   ran (both (both (both ((both (h.2 wit7 1 0) (by decide +kernel)).1 0 svImg))) (by decide +kernel)),
   ran (both (both ((both (h.2 wit9 1 0) (by decide +kernel)).2.1 0)) (by decide +kernel)),
   ran ((both (h.2 wit7 1 0) (by decide +kernel)).2.2.1 (by decide +kernel)),
   ran (both ((both (h.2 wit9 1 0) (by decide +kernel)).2.2.2.1) (by decide +kernel)),
   ran ((both (h.2 wit8 1 0) (by decide +kernel)).2.2.2.2.1 3 true 5 (by decide +kernel)),
   ran (both (both ((both (h.2 wit7 1 0) (by decide +kernel)).2.2.2.2.2 3 true 5)) (by decide +kernel))⟩

theorem test_Doorbells (h : Obligations.Doorbells) :
    Ran (.submit 1 0 2) wit10 ∧
    Ran (.submit 1 0 3) wit11 ∧
    Ran (.cancel 1 0 2) wit12 ∧
    Ran (.cancel 1 0 2) wit13 ∧
    Ran (.release 1 0 2) wit14 ∧
    Ran (((dbCancel, .cancel 1 0 2) : Nat × Instr).snd) wit15 ∧
    Ran (((dbCancel, .cancel 1 0 2) : Nat × Instr).snd) wit16 ∧
    Ran (.reqDescWrite 1 2 31 0x123456789) wit17 ∧
    Ran (.reqDescWrite 1 2 3 0x123456789) wit15 :=
  ⟨ran (both ((both (both (h.1 wit10 1 0 2)) (by decide +kernel)).1) (by decide +kernel)),
   ran (both ((both (both (h.1 wit11 1 0 3)) (by decide +kernel)).2.1 2 4) (by decide +kernel)),
   ran (both ((both (both (h.1 wit12 1 0 2)) (by decide +kernel)).2.2.1) (by decide +kernel)),
   ran (both (both ((both (both (h.1 wit13 1 0 2)) (by decide +kernel)).2.2.2.1)) (by decide +kernel)),
   ran ((both (both (h.1 wit14 1 0 2)) (by decide +kernel)).2.2.2.2 (by decide +kernel)),
   ran (both (both ((both (both ((h.2 wit15 1 0 2).1 (dbCancel, .cancel 1 0 2))) (by decide +kernel)).1)) (by decide +kernel)),
   ran (both ((both (both ((h.2 wit16 1 0 2).1 (dbCancel, .cancel 1 0 2))) (by decide +kernel)).2) (by decide +kernel)),
   ran ((both ((h.2 wit17 1 0 2).2 31 0x123456789) (by decide +kernel)).1 (by decide +kernel)),
   ran (both ((both ((h.2 wit15 1 0 2).2 3 0x123456789) (by decide +kernel)).2) (by decide +kernel))⟩

end LoopRegs

/-! ### Prefixes -/

namespace Prefixes

def hv (st_ : HandleState) (uses : Nat) (copies : List (Nat × Nat)) : Handle := ⟨st_, 0, 1, 32, uses, 0, 16, 1, 0, [4, 5], copies⟩
def T2 := 0x20000400000
def pR : List (Nat × Word) := [(Reg.STEP_PFX_ARG 0, BitVec.ofNat 64 (handleVal 0 1 7)), (Reg.STEP_PFX_T2 0, BitVec.ofNat 64 T2), (Reg.STEP_PFX_T2N 0, 4), (Reg.MEM_CFG, wv [(Fld.MEM_CFG_T2_GRANULES, 2)]), (Reg.PART_T2 0, 1)]
def blkM (gen r b : Nat) : Store Byte := memAt (blkAddr b) (toLe 8 (mkBlk false true false gen ((t1Base + 0x1000000 + b * 36864) / 512)))
def refM (b r : Nat) : Store Byte := memAt (refAddr b) (toLe 2 r)
def pfxD (h : Handle) (cps : List BlockCopy) (refs : Nat) (mem : Store Byte) (more : List (Nat × Word)) : Dev :=
  svDev (pR ++ more) (mem ++ blkM 3 1 4 ++ blkM 255 1 5 ++ refM 4 refs ++ refM 5 1) { Serving.zero with handles := [(7, h)], copies := cps }
def wit1 : State := st (pfxD (hv .valid 0 []) [] 1 [] [])
def wit2 : State := st (pfxD (hv .valid 1 []) [] 1 [] [])
def wit3 : State := st (pfxD (hv .valid 1 []) [] 1 [] [(Reg.STEP_PFX_ARG 0, 5)])
def cp (b : Nat) : BlockCopy := ⟨0, b, b - 4, t1Base + 0x1000000 + b * 36864, T2 + (b - 4) * 36864, true, 7⟩
def cpm := memAt (t1Base + 0x1000000 + 4 * 36864) (List.replicate 300 0xAB#8)
def wit4 : State := st (pfxD (hv .demoting 0 [(1, T2 + 36864)]) [cp 4] 1 cpm [(Reg.STEP_PFX_CMD 0, wv [(Fld.STEP_PFX_CMD_RESULT, 1)])])
def rgS (stt : Nat) (paus : Nat) : Dev := { svDev [] (memAt (reqWork 2) (goodRq ++ rqStat stt 3)) { Serving.zero with pausedAt := [(2, paus)] } with ps := 3000 * ms }
def wit6 : State := st (rgS 4 0)
def wit7 : State := st (rgS 5 0)
def evS : Dev := { svDev [(Reg.STEP_EVT_CFG 0, wv [(Fld.STEP_EVT_CFG_LOG2N, 5), (Fld.STEP_EVT_CFG_QP, 0), (Fld.STEP_EVT_CFG_RKEY, 77)]), (Reg.STEP_EVT_VA 0, 0x40000)] [] { Serving.zero with evts := [(0, [⟨1,2,3,4,5,6⟩])] } with ps := ms }
def wit8 : State := st { evS with mem := (rgS 5 0).mem }

theorem test_PrefixesAndRings (h : Obligations.PrefixesAndRings) :
    Ran (.demote 1 0) wit1 ∧
    Ran (.demote 1 0) wit2 ∧
    Ran (.pfxRelease 1 0) wit1 ∧
    Ran ((.demote 1 0)) wit3 ∧
    Ran (.prefixCopyEnd 4) wit4 ∧
    Ran (.headPoll 2) wit6 ∧
    Ran (.headPoll 2) wit7 ∧
    Ran (.pauseTimeout 2) wit6 ∧
    Ran (.eventHeadPoll 0) wit8 :=
  ⟨ran (both (both (both (both (both ((both (both ((h.1 wit1 1 0 7).1)) (by decide +kernel)).1))))) (by decide +kernel)),
   ran (both ((both (both ((h.1 wit2 1 0 7).1)) (by decide +kernel)).2.1) (by decide +kernel)),
   ran ((both (both ((h.1 wit1 1 0 7).1)) (by decide +kernel)).2.2.1 (by decide +kernel)),
   ran ((both (both ((h.1 wit3 1 0 7).1)) (by decide +kernel)).2.2.2 (by decide +kernel) (.demote 1 0) (by decide +kernel)),
   ran (both (both (both (both (both (both (both ((h.1 wit4 1 0 7).2 4 (cp 4)))))))) (by decide +kernel)),
   ran (both (both (both (both ((h.2 wit6 2 0 (by decide +kernel)).1)))) (by decide +kernel)),
   ran (both (both (both ((h.2 wit7 2 0 (by decide +kernel)).2.1))) (by decide +kernel)),
   ran (both (both (both ((h.2 wit6 2 0 (by decide +kernel)).2.2.1))) (by decide +kernel)),
   ran (both (both (both ((h.2 wit8 2 0 (by decide +kernel)).2.2.2 0))) (by decide +kernel))⟩

end Prefixes

/-! ### StepRuns -/

namespace StepRuns

def lp (n : Nat) : Nat × Word := (Reg.STEP_STAT 0, wv [(Fld.STEP_STAT_STATE, n)])
def ph (n : Nat) : Nat × Word := (Reg.STEP_PHASE 0, wv [(Fld.STEP_PHASE_PHASE, n)])
def cur : Nat × Word := (Reg.SCHED_STAT 0, wv [(Fld.SCHED_STAT_CUR_VALID, 1), (Fld.SCHED_STAT_PREEMPT_PENDING, 1)])
def sv0 : Serving := { Serving.zero with prompts := [(2, [1,2,3,4,5])] }
def bD : Dev := { svDev [lp 1, cur] (memAt (reqWork 2) (goodRq ++ rqStat 2 0)) sv0 with sch := { Sched.zero with resident := [(0, 1)] } }
def wit1 : State := st bD
def aD : Dev := { bD with sch := { bD.sch with chosen := [(0, 1)] }, fab := { bD.fab with seqs := [(1, { SeqSt.zero with on := true, wait := .step 5 })] }, srv := { sv0 with att := [(0, { Attempt.zero with epoch := 9 })] } }
def gg : Geo := (aD.geo 0 0).getD ⟨0,0,0,0,0,0,0,0,0,0⟩
def wit2 : State := st aD
def cD : Dev := { svDev [lp 1, cur, ph 3] (memAt (reqWork 2) (goodRq ++ rqStat 3 0)) { sv0 with att := [(0, { Attempt.zero with epoch := 9, applying := true, decided := true })], slots := [(0, [⟨0, 2⟩])] } with sch := { Sched.zero with resident := [(0, 1)], chosen := [(0, 1)] } }
def wit3 : State := st cD
def eD : Dev := { svDev [lp 2] (memAt (reqWork 2) (goodRq ++ putLe (rqStat 4 3) 2 2 1)) { sv0 with att := [(0, { Attempt.zero with epoch := 9 })], slots := [(0, [⟨0, 2⟩])] } with sch := { Sched.zero with resident := [(0, 1)], chosen := [(0, 1)] } }
def wit4 : State := st eD
def ecX : DramError := ⟨2146435072, true⟩
def wit5 : State := st { aD.wf (Reg.PART_CTX 0) Fld.PART_CTX_COUNT 1 with ldr := { aD.ldr with ecc := [ecX] } }

theorem damaged : (((wit5.dev.startAttempt 0 0 gg svImg).tablesOf 0 0 gg).any fun r => ecX.within r.1 r.2) = true ∧ (wit5.dev.startAttempt 0 0 gg svImg).fltq.length < 64 :=
  tables_of_begun (near_startAttempt (d := wit5.dev) (p := 0) (c := 0) (g := gg) (i := svImg) (by decide +kernel) (by decide +kernel) (by decide +kernel)
    (by decide +kernel) (by decide +kernel) (by decide +kernel) (by decide +kernel) (by decide +kernel) (by decide +kernel))
    (by decide +kernel) (by decide +kernel) (by decide +kernel)

theorem test_CommitsAreApplied (h : Obligations.CommitsAreApplied) :
    Ran (.commitApplied 0) wit3 ∧
    Ran (.emptyCommit 0) wit4 :=
  ⟨ran (both (both (both (both ((both (h wit3 0 0) (by decide +kernel)).1 gg)))) (by decide +kernel)),
   ran (both (both (both (both ((both (h wit4 0 0) (by decide +kernel)).2)))) (by decide +kernel))⟩

theorem test_StepsStart (h : Obligations.StepsStart) :
    Ran (.stepBoundary 0) wit1 ∧
    Ran (.attemptStart 0) wit2 ∧
    Ran (.attemptStart 0) wit5 :=
  ⟨ran (both (both (both (h.1 wit1 0))) (by decide +kernel)),
   ran ((both (both (both (both (both (both (both (both (h.2 wit2 0 0 gg svImg)))))))) (by decide +kernel)).1 (by decide +kernel)),
   ran (both ((both (both (both (both (both (both (both (both (h.2 wit5 0 0 gg svImg)))))))) (by decide +kernel)).2 ecX) (by decide +kernel) damaged.1 damaged.2)⟩

end StepRuns

/-! ### Aborts -/

namespace Aborts

def ph (n : Nat) : Nat × Word := (Reg.STEP_PHASE 0, wv [(Fld.STEP_PHASE_PHASE, n), (Fld.STEP_PHASE_FAILS, 2)])
def lp (n : Nat) : Nat × Word := (Reg.STEP_STAT 0, wv [(Fld.STEP_STAT_STATE, n)])
def cur : Nat × Word := (Reg.SCHED_STAT 0, wv [(Fld.SCHED_STAT_CUR_VALID, 1), (Fld.SCHED_STAT_PREEMPT_PENDING, 1)])
def at9 : Attempt := { Attempt.zero with epoch := 9 }
def xD (n : Nat) (a : Attempt) (cmp : Option Nat) (cnt : Nat) : Dev := { svDev [lp 1, cur, ph n, (Reg.SCHED_CDL 0, 1000)] [] { Serving.zero with att := [(0, a)] } with sch := { Sched.zero with counter := [(0, cnt)], compare := [(0, cmp)] }, ps := 100 * us }
def wit1 : State := st (xD 1 at9 none (1000*1000000))
def wit2 : State := st (xD 1 at9 (some 5) 6)
def brd : Nat × Word := (Reg.SCHED_CTX 0, wv [(Fld.SCHED_CTX_ENABLE, 1), (Fld.SCHED_CTX_BROOD, 1)])
def withL (d : Dev) (lead : Nat) : Dev := { d with lnk := { d.lnk with lead := some lead, participants := [(0, [0, 1, 2])] } }
def bx (n : Nat) (a : Attempt) : Dev := { svDev [lp 1, cur, ph n, brd, (Reg.SCHED_CDL 0, 1000), (Reg.LNK_DOMAIN 0, 5)] [] { Serving.zero with att := [(0, a)] } with ps := 100 * us, lnk := { Links.zero with rx := rxOf 9 ++ rxOf 10 } }
def wit3 : State := st (withL (bx 2 { at9 with decideSent := true, tc := 1000 }) 0)
def wit4 : State := st (withL (bx 2 { at9 with voteAt := 1000 }) 1)
def vo : Dev := let d := xD 1 at9 none 0; { d with img := { d.img with progs := [(progKey 0 0 1, some ⟨toLe 4 (seqWord 1 5 (sqo 7 5 6)), [], 0, true⟩)] }, fab := { d.fab with seqs := [(1, { SeqSt.zero with on := true, x := [(5, 1)] })] } }
def wit5 : State := st vo

theorem test_AttemptsAreAborted (h : Obligations.AttemptsAreAborted) :
    Ran (.stepDeadline 0) wit1 ∧
    Ran (.preemptTimer 0) wit2 ∧
    Ran (.ackDeadline 0) wit3 ∧
    Ran (.memberDecisionTimeout 0) wit4 ∧
    Ran (.sqVote 0 1 (sqo 7 5 6)) wit5 :=
  ⟨ran (both (both ((both ((both (both (both (h wit1 0 0))) (by decide +kernel)).1) (by decide +kernel)).1)) (by decide +kernel)),
   ran (both (both ((both ((both (both (both (h wit2 0 0))) (by decide +kernel)).1) (by decide +kernel)).2 5)) (by decide +kernel)),
   ran (both ((both (both ((both (both (both (h wit3 0 0))) (by decide +kernel)).2.1 0)) (by decide +kernel)).1) (by decide +kernel)),
   ran (both ((both (both ((both (both (both (h wit4 0 0))) (by decide +kernel)).2.1 0)) (by decide +kernel)).2) (by decide +kernel)),
   ran (both ((both (both (both (h wit5 0 0))) (by decide +kernel)).2.2 0 1 (sqo 7 5 6) (by unfold seqIssues; decide +kernel)) (by decide +kernel))⟩

end Aborts

/-! ### Broods -/

namespace Broods

def ph (n : Nat) : Nat × Word := (Reg.STEP_PHASE 0, wv [(Fld.STEP_PHASE_PHASE, n), (Fld.STEP_PHASE_FAILS, 2)])
def lp (n : Nat) : Nat × Word := (Reg.STEP_STAT 0, wv [(Fld.STEP_STAT_STATE, n)])
def cur : Nat × Word := (Reg.SCHED_STAT 0, wv [(Fld.SCHED_STAT_CUR_VALID, 1), (Fld.SCHED_STAT_PREEMPT_PENDING, 1)])
def at9 : Attempt := { Attempt.zero with epoch := 9 }
def brd : Nat × Word := (Reg.SCHED_CTX 0, wv [(Fld.SCHED_CTX_ENABLE, 1), (Fld.SCHED_CTX_BROOD, 1)])
def withL (d : Dev) (lead : Nat) : Dev := { d with lnk := { d.lnk with lead := some lead, participants := [(0, [0, 1, 2])] } }
def bx (n : Nat) (a : Attempt) : Dev := { svDev [lp 1, cur, ph n, brd, (Reg.SCHED_CDL 0, 1000), (Reg.LNK_DOMAIN 0, 5)] [] { Serving.zero with att := [(0, a)] } with ps := 100 * us, lnk := { Links.zero with rx := rxOf 9 ++ rxOf 10 } }
def vt (kind src ab : Nat) (epoch : Nat := 9) : FrPkt := frp kind src 8 5 5 epoch 0 (mkArg [(33, 1, ab), (34, 1, 0x12), (36, 2, 7)]) []
def wit1 : State := st (withL (bx 1 { at9 with mvotes := [2] }) 0)
def wit2 : State := st (withL (bx 2 { at9 with mvotes := [2] }) 0)
def wit3 : State := st (withL (bx 2 { at9 with mvotes := [2] }) 0)
def wit4 : State := st (withL (bx 2 { at9 with mvotes := [2] }) 1)
def wit5 : State := st (withL (bx 2 { at9 with decideSent := true, acks := [2], tc := 10^9 }) 0)
def wit6 : State := st (withL (bx 2 at9) 1)
def wit7 : State := st (withL (bx 2 { at9 with decided := true }) 0)
def stArg (dig : Nat) : BitVec 248 := mkArg [(33, 1, 3), (36, 2, 2), (40, 8, 4), (48, 8, dig)]
def wit8 : State := st (withL (bx 0 at9) 1)
def wit9 : State := st (withL (bx 0 at9) 1)
def wit10 : State := st (withL (bx 0 at9) 1)
def gg : Geo := ((bx 0 at9).geo 0 0).getD ⟨0,0,0,0,0,0,0,0,0,0⟩
def svt := frp 0x20 9 8 5 5 12 0 (mkArg [(34, 2, 0)]) tileF
def wit11 : State := st (withL (bx 0 at9) 1)
def abL (k : Nat) : FrPkt := frp 0x25 9 8 5 5 9 0 (mkArg [(33, 1, 2), (34, 1, 0x43), (36, 2, 7)]) []
def wit12 : State := st (withL (bx 1 at9) 1)
def wit13 : State := st (withL (bx 0 at9) 1)
def bxe : Dev := let d := withL (bx 0 at9) 1; (d.wr (Reg.STEP_EPOCH 0) 8).wr (Reg.STEP_COMMITS 0) 3
def stA (n : Nat) : BitVec 248 := mkArg [(33, 1, 3), (36, 2, 2), (40, 8, n), (48, 8, 0)]
def wit14 : State := st bxe
def wit15 : State := st bxe
def wit16 : State := st bxe

theorem test_BroodsDecide (h : Obligations.BroodsDecide) :
    Ran (.vote (vt 0x22 9 0)) wit1 ∧
    Ran (.vote (vt 0x22 9 0)) wit2 ∧
    Ran (.vote (vt 0x22 9 1)) wit3 ∧
    Ran (.decideMsg (frp 0x23 9 8 5 5 9 0 (mkArg [(40, 8, 500000)]) [])) wit4 ∧
    Ran (.ack (vt 0x24 9 0)) wit5 ∧
    Ran (.abort (vt 0x25 9 0)) wit6 ∧
    Ran (.abort (abL 0)) wit12 ∧
    Ran (.abort (abL 0)) wit13 ∧
    Ran (.broodCommitApply 0) wit7 ∧
    Ran (.start (frp 0x21 9 8 5 5 12 0 (stArg 0) [])) wit8 ∧
    Ran (.start (frp 0x21 9 8 5 5 12 0 (stA 4) [])) wit14 ∧
    Ran (.start (frp 0x21 9 8 5 5 12 0 (stA 11) [])) wit15 ∧
    Ran (.start (frp 0x21 9 8 5 5 9 0 (stArg 0) [])) wit9 ∧
    Ran (.start (frp 0x21 9 8 5 5 5 0 (stA 4) [])) wit16 ∧
    Ran (.start (frp 0x21 9 8 5 5 12 0 (stArg 8) [])) wit10 ∧
    Ran (.serveTile svt) wit11 :=
  ⟨ran (both ((both (both (both (both ((h.1 wit1 (vt 0x22 9 0) 0 0).1)))) (by decide +kernel)).1) (by decide +kernel)),
   ran (both (both (both ((both (both (both (both ((h.1 wit2 (vt 0x22 9 0) 0 0).1)))) (by decide +kernel)).2.1))) (by decide +kernel)),
   ran (both (both ((both (both (both (both ((h.1 wit3 (vt 0x22 9 1) 0 0).1)))) (by decide +kernel)).2.2)) (by decide +kernel)),
   ran (both (both (both (both (both ((h.1 wit4 (frp 0x23 9 8 5 5 9 0 (mkArg [(40, 8, 500000)]) []) 0 0).2.1))))) (by decide +kernel)),
   ran (both (both (both (both (both ((h.1 wit5 (vt 0x24 9 0) 0 0).2.2.1))))) (by decide +kernel)),
   ran (both (both (both (both (both ((h.1 wit6 (vt 0x25 9 0) 0 0).2.2.2.1))))) (by decide +kernel)),
   ran ((both (both (both ((h.1 wit12 (abL 0) 0 0).2.2.2.2.1))) (by decide +kernel)).1 (by decide +kernel)),
   ran ((both (both (both ((h.1 wit13 (abL 0) 0 0).2.2.2.2.1))) (by decide +kernel)).2 (by decide +kernel)),
   ran (both (both (both (both ((h.1 wit7 (vt 0x25 9 0) 0 0).2.2.2.2.2 0)))) (by decide +kernel)),
   ran (both (both ((both (both (both (both (both ((both (both ((h.2 wit8 (frp 0x21 9 8 5 5 12 0 (stArg 0) []) 0 0).1)) (by decide +kernel)).1))))) (by decide +kernel)).1)) (by decide +kernel)),
   ran (both ((both (both (both (both (both ((both (both ((h.2 wit14 (frp 0x21 9 8 5 5 12 0 (stA 4) []) 0 0).1)) (by decide +kernel)).1))))) (by decide +kernel)).2.1) (by decide +kernel)),
   ran (both (both (both ((both (both (both (both (both ((both (both ((h.2 wit15 (frp 0x21 9 8 5 5 12 0 (stA 11) []) 0 0).1)) (by decide +kernel)).1))))) (by decide +kernel)).2.2))) (by decide +kernel)),
   ran (both ((both (both ((h.2 wit9 (frp 0x21 9 8 5 5 9 0 (stArg 0) []) 0 0).1)) (by decide +kernel)).2.1) (by decide +kernel)),
   ran (both ((both (both ((h.2 wit16 (frp 0x21 9 8 5 5 5 0 (stA 4) []) 0 0).1)) (by decide +kernel)).2.2) (by decide +kernel)),
   ran (both (both ((h.2 wit10 (frp 0x21 9 8 5 5 12 0 (stArg 8) []) 0 0).2.1 4)) (by decide +kernel)),
   ran (both (both (both (both (both (both (both (both ((h.2 wit11 svt 0 0).2.2 gg)))))))) (by decide +kernel))⟩

end Broods

/-! ### Parts -/

namespace Parts

def pS (n : Nat) : Nat × Word := (Reg.PART_STAT 0, wv [(Fld.PART_STAT_STATE, n)])
def fullPart : List (Nat × Word) := [(Reg.MEM_CFG, wv [(Fld.MEM_CFG_T1_GRANULES, 2)]), (Reg.PART_SHARE 0, 0x1010101), (Reg.PART_REQ 0, wv [(Fld.PART_REQ_FIRST, 0), (Fld.PART_REQ_COUNT, 8)])]
def free0 : Dev := onDev (fullPart ++ [pS 0])
def wit1 : State := st free0
def wit2 : State := st (onDev (fullPart ++ [pS 2, (Reg.SEC_KEYDIG 0 0 0, 5)]))
def wit4 : State := st (onDev (fullPart ++ [pS 1]))
def wit5 : State := st (onDev (fullPart ++ [pS 4]))
def partD (k : List (Nat × Word)) : Dev := onDev (fullPart ++ k)
def wit6 : State := st (partD [pS 0])
def wit7 : State := st (partD [pS 2, (acctOff 3 0, 0x8000000000000005), (acctOff 3 2, 9), (Reg.ACCT_USED, 4)])
def wit8 : State := st (partD [pS 2, (Reg.PART_STAT 1, wv [(Fld.PART_STAT_STATE, 2)]), (Reg.LNK_DOMAIN 1, 200)])
def sealD : Dev := { onDev (fullPart ++ [pS 2, (Reg.SEC_KEYDIG 0 0 0, 5)]) with sch := { Sched.zero with sealing := some 0 } }
def wit10 : State := st sealD

theorem test_PartitionsLiveAndEnd (h : Obligations.PartitionsLiveAndEnd) :
    Ran (.partCreate 0 0) wit1 ∧
    Ran (.partSeal 0 0) wit2 ∧
    Ran (.partTeardown 0 0) wit2 ∧
    Ran (((free0.sealCheck 0, Instr.partSeal 0 0) : Option Nat × Instr).snd) wit1 ∧
    (∃ t, step wit10 = .next t) ∧
    Ran ((Instr.partSeal 0 0)) wit10 ∧
    Ran (.scrubEnd 0) wit4 ∧
    Ran (.scrubEnd 0) wit5 ∧
    Ran (.partShareWrite 0 0 0x1020304) wit6 ∧
    Ran (.partCapWrite 0 0 0x1020304) wit6 ∧
    Ran (.lnkDomainWrite 0 0 0x1020304) wit6 ∧
    Ran (.lnkDomainWrite 0 0 200) wit8 ∧
    Ran (.partIsolateWrite 0 true) wit6 ∧
    Ran (.acctRelease 0 3) wit7 ∧
    Ran (.acctZero 0 3) wit6 :=
  ⟨ran ((both (((h).1 wit1 0).1) (by decide +kernel)).1 (by decide +kernel)),
   ran (both ((both (((h).1 wit2 0).1) (by decide +kernel)).2.1) (by decide +kernel)),
   ran ((both (((h).1 wit2 0).1) (by decide +kernel)).2.2.1 (by decide +kernel)),
   ran (both ((both (((h).1 wit1 0).1) (by decide +kernel)).2.2.2 1 (by decide +kernel) (free0.sealCheck 0, Instr.partSeal 0 0)) (by decide +kernel)),
   stepped (both (both (both (both (((h).1 wit10 0).2.1)))) (by decide +kernel)),
   ran (both (((h).1 wit10 0).2.2.1) (by decide +kernel) (Instr.partSeal 0 0) (by decide +kernel)),
   ran (((h).1 wit4 0).2.2.2.1 (by decide +kernel)),
   ran (((h).1 wit5 0).2.2.2.2 (by decide +kernel)),
   ran (both (((h).2 wit6 0 0x1020304).1) (by decide +kernel)),
   ran (both (((h).2 wit6 0 0x1020304).2.1) (by decide +kernel)),
   ran (both (both (((h).2 wit6 0 0x1020304).2.2.1)) (by decide +kernel)),
   ran (both (both (both (both (((h).2 wit8 0 200).2.2.2.1)))) (by decide +kernel)),
   ran (both (((h).2 wit6 0 0x1020304).2.2.2.2.1 true) (by decide +kernel)),
   ran (both ((((h).2 wit7 0 200).2.2.2.2.2 3 (by decide +kernel)).1) (by decide +kernel)),
   ran ((((h).2 wit6 0 0x1020304).2.2.2.2.2 3 (by decide +kernel)).2 (by decide +kernel))⟩

end Parts

/-! ### PortsUp -/

namespace PortsUp

def flit (typ seq ack : Nat) (cls : Nat := 0) (ok := true) : LinkFlit :=
  let f : LinkFlit := ⟨0, .ofNat 16 seq, .ofNat 16 ack, .ofNat 2 cls, .ofNat 2 typ, 1, 2, 3, 255, zeros 64⟩
  { f with crc := BitVec.ofNat 32 (flitCrc f + b2n (!ok)) }
def pst (l n : Nat) : Nat × Word := (portStat l, wv [(Fld.LNK_BL_STAT_STATE, n)])
def rp (n s : Nat) : ReplayFlit := ⟨n, 0, 255, zeros 64, s⟩
def prt : Port := { Port.zero with since := 0, txSeq := 6, rxSeq := 9, replay := [rp 4 1, rp 5 1], creditsCtrl := 3, helloAcked := false }
def lkD (l st : Nat) (x : Port := prt) (ps : Nat := 40 * ms) (more : List (Nat × Word) := []) : Dev := { onDev (pst l st :: more) with lnk := { Links.zero with session := 77, ports := [(l, x)] }, ps := ps }
def wit1 : State := st (lkD 2 3)
def wit2 : State := st (lkD 2 3)
def wit4 : State := st (lkD 2 3)
def ppk : FrPkt := sealF 3 (frp 3 9 8 0 0 0 0 0 [])
def wit5 : State := st (lkD 2 0)
def wit7 : State := st (lkD 2 1)
def wit8 : State := st (lkD 9 1 prt (10 * ms))
def wit9 : State := st (lkD 2 2)
def wit10 : State := st (lkD 2 3)
def wit12 : State := st (lkD 2 4)
def helB (node sess fl : Nat) (link kind : Nat := 1) : List Byte := toLe 8 node ++ toLe 1 link ++ toLe 1 kind ++ toLe 2 0 ++ toLe 2 sess ++ toLe 1 fl ++ toLe 1 0 ++ toLe 1 0 ++ zeros 47 ++ zeros 64
def nodeW (n : Nat) : Nat := (wv [(Fld.GLB_NODE_VALID, 1), (Fld.GLB_NODE_NODE_ID, n), (Fld.GLB_NODE_ROLE, 1)]).toNat
def hel (node sess : Nat) : FrPkt := frp 1 node 8 0 0 0 0 0 (helB (nodeW node) sess 0)
def wit13 : State := st (lkD 2 2)
def wit16 : State := st (lkD 2 3 { prt with hello := some (helloOf (helB (nodeW 9) 6 4)) })
def wit17 : State := st (lkD 2 3 { prt with hello := some (helloOf (helB (nodeW 9) 6 4)) })
def flD : Dev := let d := lkD 2 2 prt; { d with lnk := { d.lnk with misEnd := some 5 } }
def wit18 : State := st flD
def wit19 : State := st (lkD 2 3)
def wit21 : State := st (lkD 2 3 { prt with skip := true })
def dupD : Dev := let d := lkD 2 2 prt; { d with lnk := { d.lnk with dupEnd := some 5 } }
def wit22 : State := st dupD

theorem test_LinkFlitsInOrder (h : Obligations.LinkFlitsInOrder) :
    Ran (.linkFlit 2 (flit 1 10 4 1)) wit1 ∧
    Ran (.linkFlit 2 (flit 1 10 4 1 false)) wit2 ∧
    Ran (.linkFlit 2 (flit 0 0 4 1)) wit19 ∧
    Ran (.linkFlit 2 (flit 1 12 4 1)) wit21 ∧
    Ran (.linkFlit 2 (flit 2 0 4 1)) wit4 ∧
    Ran (.idleFlitTimer 2) wit1 :=
  ⟨ran (both (both (both (both ((h wit1 2 (flit 1 10 4 1)).1)))) (by decide +kernel)),
   ran (both ((h wit2 2 (flit 1 10 4 1 false)).2.1) (by decide +kernel)),
   ran (both (both (both ((h wit19 2 (flit 0 0 4 1)).2.2.1))) (by decide +kernel)),
   ran (both (both (both (both (both ((h wit21 2 (flit 1 12 4 1)).2.2.2.1))))) (by decide +kernel)),
   ran (both (both (both (both ((h wit4 2 (flit 2 0 4 1)).2.2.2.2.1)))) (by decide +kernel)),
   ran (both ((h wit1 2 (flit 1 10 4 1)).2.2.2.2.2) (by decide +kernel))⟩

theorem test_PortsComeUp (h : Obligations.PortsComeUp) :
    Ran (.portTrainStart 2) wit5 ∧
    Ran (.portRetrain 0 2) wit5 ∧
    Ran (.portTrained 9) wit8 ∧
    Ran (.portTrainTimeout 2) wit7 ∧
    Ran (.portHelloTimeout 2) wit9 ∧
    Ran (.portSilence 2) wit10 ∧
    Ran (.portFecLimit 2) wit10 ∧
    Ran (.laneLockLoss 2 3) wit10 ∧
    Ran (.laneLockLoss 2 3) wit5 ∧
    Ran (.withdraw 2 ppk) wit9 ∧
    Ran (.portDisable 0 2 true) wit5 ∧
    Ran (.portDisable 0 2 false) wit12 ∧
    Ran (.hello 2 (hel 9 5)) wit13 ∧
    Ran (.hello 2 (hel 9 5)) wit16 ∧
    Ran (.helloTimer 2) wit13 ∧
    Ran (.broodFlagClear) wit18 ∧
    Ran (.broodFlagClear) wit22 ∧
    Ran (.hello 2 ({ hel 9 5 with hcrc := 0 })) wit17 :=
  ⟨ran (both ((h.1 wit5 2).1) (by decide +kernel)),
   ran (both ((h.1 wit5 2).2.1) (by decide +kernel)),
   ran (both ((h.1 wit8 9).2.2.1) (by decide +kernel)),
   ran (both ((h.1 wit7 2).2.2.2.1) (by decide +kernel)),
   ran (both ((h.1 wit9 2).2.2.2.2.1) (by decide +kernel)),
   ran (both ((h.1 wit10 2).2.2.2.2.2.1) (by decide +kernel)),
   ran ((h.1 wit10 2).2.2.2.2.2.2.1 (by decide +kernel)),
   ran ((h.1 wit10 2).2.2.2.2.2.2.2.1 3 (by decide +kernel)),
   ran ((h.1 wit5 2).2.2.2.2.2.2.2.2.1 3 (by decide +kernel)),
   ran (both ((h.1 wit9 2).2.2.2.2.2.2.2.2.2.1 ppk) (by decide +kernel)),
   ran (((h.1 wit5 2).2.2.2.2.2.2.2.2.2.2 (by decide +kernel)).1 (by decide +kernel)),
   ran (both (both (((h.1 wit12 2).2.2.2.2.2.2.2.2.2.2 (by decide +kernel)).2)) (by decide +kernel)),
   ran (both (both ((h.2 wit13 2 (hel 9 5)).1)) (by decide +kernel)),
   ran (both (both ((h.2 wit16 2 (hel 9 5)).2.1)) (by decide +kernel)),
   ran (both ((h.2 wit13 2 (hel 9 5)).2.2.1) (by decide +kernel)),
   ran (both (both (both ((h.2 wit18 2 (hel 9 5)).2.2.2.1 5))) (by decide +kernel)),
   ran (both (both (both ((h.2 wit22 2 (hel 9 5)).2.2.2.2.1 5))) (by decide +kernel)),
   ran (both ((h.2 wit17 2 ({ hel 9 5 with hcrc := 0 })).2.2.2.2.2) (by decide +kernel))⟩

end PortsUp

/-! ### Deliver -/

namespace Deliver

def sp (n : Nat) (sends : Nat := 1) (p : FrPkt := frt 0x40 8 9 n 0 0 0 0 [7#8]) : SentPkt := ⟨0x40, { p with fseq := BitVec.ofNat 32 n }, 5, sends⟩
def peerL : List (Fld × Nat) := [(Fld.LNK_BL_STAT_USED, 1), (Fld.LNK_BL_STAT_PEER_POS, 1)]
def fd (more : List (Nat × Word) := []) (c : Nat := 2) : Dev := { onDev ([pst 2 3 peerL, pst 0 3 [(Fld.LNK_BL_STAT_USED, 1), (Fld.LNK_BL_STAT_PEER_POS, 2)], (Reg.LNK_BROOD_STAT, wv [(Fld.LNK_BROOD_STAT_FORMED, 1)]), (Reg.GLB_LEVEL, wv [(Fld.GLB_LEVEL_READY, 1), (Fld.GLB_LEVEL_BROOD_MEMBERS, 7)])] ++ more) with
  lnk := { Links.zero with session := 77, ports := [(0, prt), (2, prt)], tx := [(4 * 9 + c, ⟨8, [sp 4, sp 5 2, sp 6 4], [], 2⟩)], rx := [(36, ⟨77, 5, [], 0, 0⟩), (37, ⟨77, 5, [], 0, 0⟩), (38, ⟨77, 5, [], 3, 1000⟩)] }, ps := 40 * ms }
def bad (x : FrPkt) : FrPkt := { x with hcrc := x.hcrc + 1 }
def ak := frp 4 9 8 0 0 0 0 (mkArg [(33, 1, 2), (36, 4, 5), (40, 8, 1)]) []
def wit1 : State := st fd
def wit2 : State := st fd
def wit3 : State := st fd
def wit4 : State := st fd
def wit5 : State := st fd
def wit6 : State := st (fd [pst 0 0])
def wit8 : State := st (fd)
def sx (n : Nat) (k : Nat := 0x40) (dom : Nat := 6) : FrPkt := frt k 9 8 n dom 0 0 0 [7#8]
def wit10 : State := st fd
def wit11 : State := st fd
def wit12 : State := st fd
def wit13 : State := st fd
def wit14 : State := st fd
def wit16 : State := st fd

theorem test_DeliveryIsKept (h : Obligations.DeliveryIsKept) :
    Ran (.e2eAck ak) wit1 ∧
    Ran (.e2eAckTimer 9 2) wit1 ∧
    Ran (.packetRetransmit 9 2 6) wit1 ∧
    Ran (.nackUnreach (frp 5 9 8 0 0 0 0 (mkArg [(40, 4, 10)]) [])) wit3 ∧
    Ran (.relayForward 0x10 (frt 0x10 9 10 0 0 0 0 0 [7#8])) wit5 ∧
    Ran (.relayForward 0x10 (frt 0x10 9 10 0 0 0 0 0 [7#8])) wit6 ∧
    Ran (.linkLossResend 4) wit3 ∧
    Ran (.heartbeat (frp 2 9 8 0 0 0 0 0 [])) wit8 ∧
    Ran (.heartbeatTimer 9) wit1 ∧
    Ran (.memberLossTimeout 9) wit1 ∧
    Ran (((2, Instr.heartbeat (frp 2 9 10 0 0 0 0 0 [])) : Nat × Instr).snd) wit4 ∧
    Ran (((4, Instr.e2eAck (bad ak)) : Nat × Instr).snd) wit2 ∧
    Ran (((0x40, Instr.collData (bad (sx 5))) : Nat × Instr).snd) wit10 ∧
    Ran (((0x40, Instr.collData (frt 0x40 9 10 5 6 0 0 0 [7#8])) : Nat × Instr).snd) wit11 ∧
    Ran (((0x40, Instr.collData (sx 3)) : Nat × Instr).snd) wit12 ∧
    Ran (((0x40, Instr.collData (sx 8)) : Nat × Instr).snd) wit13 ∧
    Ran (((0x40, Instr.collData (sx 300)) : Nat × Instr).snd) wit16 ∧
    Ran (((0x40, Instr.collData (sx 5)) : Nat × Instr).snd) wit14 :=
  ⟨ran (both (both ((h.1 wit1 ak).1)) (by decide +kernel)),
   ran (both ((h.1 wit1 ak).2.1 9 2) (by decide +kernel)),
   ran (both (both (both ((h.1 wit1 ak).2.2.1 9 2 6 (sp 6 4) 2))) (by decide +kernel)),
   ran (both ((h.1 wit3 (frp 5 9 8 0 0 0 0 (mkArg [(40, 4, 10)]) [])).2.2.2.1) (by decide +kernel)),
   ran (both ((both ((h.1 wit5 (frt 0x10 9 10 0 0 0 0 0 [7#8])).2.2.2.2.1 0x10 0) (by decide +kernel)).1) (by decide +kernel)),
   ran ((both ((h.1 wit6 (frt 0x10 9 10 0 0 0 0 0 [7#8])).2.2.2.2.1 0x10 0) (by decide +kernel)).2 (by decide +kernel)),
   ran ((h.1 wit3 (frp 5 9 8 0 0 0 0 (mkArg [(40, 4, 10)]) [])).2.2.2.2.2.1 4 (by decide +kernel)),
   ran (both ((h.1 wit8 (frp 2 9 8 0 0 0 0 0 [])).2.2.2.2.2.2.1) (by decide +kernel)),
   ran (both (both ((h.1 wit1 ak).2.2.2.2.2.2.2.1 9)) (by decide +kernel)),
   ran (both (both ((h.1 wit1 ak).2.2.2.2.2.2.2.2.1 9)) (by decide +kernel)),
   ran (both (((h.1 wit4 (frp 2 9 10 0 0 0 0 0 [])).2.2.2.2.2.2.2.2.2 (2, Instr.heartbeat (frp 2 9 10 0 0 0 0 0 [])) (by decide +kernel)).1) (by decide +kernel)),
   ran (((h.1 wit2 (bad ak)).2.2.2.2.2.2.2.2.2 (4, Instr.e2eAck (bad ak)) (by decide +kernel)).2 (by decide +kernel)),
   ran ((h.2 wit10 (bad (sx 5)) 2 ((0x40, Instr.collData (bad (sx 5)))) (by decide +kernel)).1 (by decide +kernel)),
   ran (both ((h.2 wit11 (frt 0x40 9 10 5 6 0 0 0 [7#8]) 2 (0x40, Instr.collData (frt 0x40 9 10 5 6 0 0 0 [7#8])) (by decide +kernel)).2.1) (by decide +kernel)),
   ran (both ((h.2 wit12 (sx 3) 2 (0x40, Instr.collData (sx 3)) (by decide +kernel)).2.2.1) (by decide +kernel)),
   ran (both (both ((h.2 wit13 (sx 8) 2 (0x40, Instr.collData (sx 8)) (by decide +kernel)).2.2.2.1)) (by decide +kernel)),
   ran (both (both ((h.2 wit16 (sx 300) 2 (0x40, Instr.collData (sx 300)) (by decide +kernel)).2.2.2.2.1)) (by decide +kernel)),
   ran (both (both (both (both ((h.2 wit14 (sx 5) 2 (0x40, Instr.collData (sx 5)) (by decide +kernel)).2.2.2.2.2)))) (by decide +kernel))⟩

end Deliver

/-! ### Streams -/

namespace Streams

def img0 : Img := { theImg with place := [0x8000500000] }
def rt (ep : Nat) := fz 0x10 9 ep [(33, 1, 1 + 16 * 5), (34, 1, 3), (35, 1, 2), (36, 1, 0)] tileF
def D0 := rD [] [] id
def wit1 : State := st D0
def wit2 : State := st D0
def wit3 : State := st D0
def outR : CfgRec := rec 4 0 [2#8, 2#8, 1#8, 1#8, 3#8, 1#8, 0xFF#8, 0#8]
def strR : CfgRec := rec 6 0 (toLe 2 0 ++ zeros 14)
def rq0 (ep : Nat) := fz 0x11 9 ep [(33, 1, 0 + 16 * 5), (34, 1, 0), (35, 1, 0), (36, 1, 0), (37, 1, 3)]
def D1 := rD [] [] fun d => { d with fab := { d.fab with cells := [(0, oneTc [setup0, outR, strR] tcRun)] } }
def wit4 : State := st D1
def wit5 : State := st D1
def wq := fz 0x12 9 9 [(34, 6, 7 * 2^40 + 25), (40, 2, 77)]
def wit6 : State := st D0
def wr := fz 0x13 9 9 [(34, 6, 123456), (40, 2, 1)]
def D2 := rD [] [] fun d => { d with fab := { d.fab with seqs := [(1, { SeqSt.zero with on := true, wait := .wkc 7 })] }, lnk := { d.lnk with waits := [⟨.counter 0 1 7, 0, 9, 5⟩] } }
def wit7 : State := st D2
def D3 := rD [] [] fun d => { d with fab := { d.fab with seqs := [(1, { SeqSt.zero with on := true, wait := .wkc 7 })] }, lnk := { d.lnk with waits := [⟨.counter 0 1 7, 0, 9, 5⟩] }, ps := 300 * us }
def wit8 : State := st D3

theorem test_RemoteStreamsAndCounters (h : Obligations.RemoteStreamsAndCounters) :
    Ran (.remoteTile (rt 9)) wit1 ∧
    Ran (.remoteTile (rt 8)) wit2 ∧
    Ran (.remoteTile (rt 12)) wit3 ∧
    Ran (.remoteQcredit (rq0 9)) wit4 ∧
    Ran (.remoteQcredit (rq0 8)) wit5 ∧
    Ran (.remoteWkcReq wq) wit6 ∧
    Ran (.remoteWkcResp wr) wit7 ∧
    Ran (.remoteWkcResp wr) wit8 :=
  ⟨ran (((both (both (h wit1 (rt 9) 0 0 img0)) (by decide +kernel)).1 (by decide +kernel)).1 (by decide +kernel)),
   ran (((both (both (h wit2 (rt 8) 0 0 img0)) (by decide +kernel)).1 (by decide +kernel)).2.1 (by decide +kernel)),
   ran (both (both (both (((both (both (h wit3 (rt 12) 0 0 img0)) (by decide +kernel)).1 (by decide +kernel)).2.2))) (by decide +kernel)),
   ran (both (both (both (both ((both (both (h wit4 (rq0 9) 0 0 img0)) (by decide +kernel)).2.1 strR 2)))) (by decide +kernel)),
   ran (both ((both (both (h wit5 (rq0 8) 0 0 img0)) (by decide +kernel)).2.2.1) (by decide +kernel)),
   ran (both (both (both (both (both (both (both ((both (both (h wit6 wq 0 0 img0)) (by decide +kernel)).2.2.2.1 (((D0.homeOf 0 7).getD (0, true)).1)))))))) (by decide +kernel)),
   ran (both (both (both ((both (both (h wit7 wr 0 0 img0)) (by decide +kernel)).2.2.2.2.1 7))) (by decide +kernel)),
   ran (both (both ((both (both (h wit8 wr 0 0 img0)) (by decide +kernel)).2.2.2.2.2)) (by decide +kernel))⟩

end Streams

/-! ### Stages -/

namespace Stages

def ci : CollIssue := ⟨0, 4, 9, 2, 0, 3, 1, 1, 2, [8, 9], 0, [[1#8], [2#8]], [], [], 0, []⟩
/-- COLL_DATA: flags b33 = 1 + 2*phase; desc 34; tile 36 4; group 40; cindex 41; S 44 -/
def cd (cindex ep : Nat := 9) (phase tile S : Nat := 2) : FrPkt := fzt 0x40 9 ep [(33, 1, 1 + 2 * phase), (34, 2, 0), (36, 4, tile), (40, 1, 6), (41, 1, cindex), (44, 4, S)] tileF
def gD (g : CollGroup) := rD [] [] fun d => { d with lnk := { d.lnk with groups := [(6, g)] } }
def actG : CollGroup := ⟨some ci, none, 1, []⟩
def wit1 : State := st (gD actG)
def wit2 : State := st (gD actG)
def wit3 : State := st (gD ⟨none, some ci, 3, []⟩)
def ca := fz 0x41 9 9 [(40, 1, 6), (41, 1, 2)]
def wit4 : State := st (gD actG)
def wt : RemoteWait := ⟨.counter 0 1 7, 0, 9, 5⟩
def wD (un : Option Nat) := rD [] [] fun d => { d with lnk := { d.lnk with waits := [wt], peers := [(9, { Peer.zero with unreachAt := un })] } }
def wit5 : State := st (wD none)
def wit6 : State := st (wD (some 5))
def hoffR : List (Nat × Word) := [(Reg.LNK_STAGE 0, wv [(Fld.LNK_STAGE_PREV_VALID, 1), (Fld.LNK_STAGE_PREV, 9), (Fld.LNK_STAGE_NEXT_VALID, 1), (Fld.LNK_STAGE_NEXT, 10)]), (Reg.LNK_HOFF 0, wv [(Fld.LNK_HOFF_BASE, 0x8000800000), (Fld.LNK_HOFF_HSIZE, 2)])]
def hD (h : Handoff) := rD hoffR (memAt (0x8000800000 + 2*4608) tileF) (fun d => { d with lnk := { d.lnk with handoff := [(0, h)] } }) false
def h0 : Handoff := ⟨[], [], none, none, true, 0, 4, 2⟩
def wit7 : State := st (hD h0)
def wit8 : State := st (hD h0)
def wit9 : State := st (hD h0)
def wit11 : State := st (hD { h0 with consume := some 2 })
def wit12 : State := st (hD { h0 with copying := some 2 })

theorem test_CollectivesAndRemoteWaits (h : Obligations.CollectivesAndRemoteWaits) :
    Ran (.collData (cd 3)) wit1 ∧
    Ran (.collData (cd 2 9 1 1 2)) wit2 ∧
    Ran (.collData (cd 1)) wit3 ∧
    Ran (.collAbort ca) wit4 ∧
    Ran (.remoteWaitTimeout 0) wit5 ∧
    Ran (.remoteWaitTimeout 0) wit6 :=
  ⟨ran ((both (both (both ((h wit1 (cd 3) 0).1))) (by decide +kernel)).1 (by decide +kernel)),
   ran (both (both (both (both (both (both (both (both (both ((both (both (both ((h wit2 (cd 2 9 1 1 2) 0).1))) (by decide +kernel)).2.1 ci 1))))))))) (by decide +kernel)),
   ran (both (both (both ((both (both (both ((h wit3 (cd 1) 0).1))) (by decide +kernel)).2.2 ci))) (by decide +kernel)),
   ran (both (both (both (both (both (both (both ((h wit4 ca 0).2.1 ci))))))) (by decide +kernel)),
   ran ((both (both (both (both (both (both (both ((h wit5 ca 0).2.2 0 wt 0 0x0F01 (7 * 2 ^ 32 + 9)))))))) (by decide +kernel)).1 (by decide +kernel)),
   ran ((both (both (both (both (both (both (both ((h wit6 ca 0).2.2 0 wt 0 0x0F01 (7 * 2 ^ 32 + 9)))))))) (by decide +kernel)).2 9 (by decide +kernel))⟩

theorem test_StagesHandOff (h : Obligations.StagesHandOff) :
    Ran (.handoffTile (fzt 0x50 9 9 [(34, 4, 1), (40, 8, 3)] tileF)) wit7 ∧
    Ran (.handoffTile (fzt 0x50 9 9 [(34, 4, 2), (40, 8, 3)] tileF)) wit8 ∧
    Ran (.handoffCommit (fz 0x51 9 9 [(40, 8, 3)])) wit9 ∧
    Ran (.handoffAck (fz 0x52 10 9 [(40, 8, 3)])) wit11 ∧
    Ran (.handoffCopyEnd 0) wit12 :=
  ⟨ran ((both (((h wit7 (fzt 0x50 9 9 [(34, 4, 1), (40, 8, 3)] tileF) 0 0).1 (by decide +kernel)).1) (by decide +kernel)).1 (by decide +kernel)),
   ran ((both (((h wit8 (fzt 0x50 9 9 [(34, 4, 2), (40, 8, 3)] tileF) 0 0).1 (by decide +kernel)).1) (by decide +kernel)).2 (by decide +kernel)),
   ran (both (((h wit9 (fz 0x51 9 9 [(40, 8, 3)]) 0 0).1 (by decide +kernel)).2.1) (by decide +kernel)),
   ran (both (both (((h wit11 (fz 0x52 10 9 [(40, 8, 3)]) 0 0).1 (by decide +kernel)).2.2)) (by decide +kernel)),
   ran (both (both (both ((h wit12 (fz 0x52 10 9 [(40, 8, 3)]) 0 0).2 0 2))) (by decide +kernel))⟩

end Stages

/-! ### Experts -/

namespace Experts

def A0 := 0x8000500000
def img0 : Img := { theImg with place := [0x8000500000] }
def src0 : XptSource := ⟨0, [⟨0, 1, 5, false, [], []⟩], [], [], false, false⟩
/-- choice row 0: exps word k, ws 8.., 16: slot|gen, 17 token, 18 srcRow, 19 skip | layer<<16 -/
def choice (h0 : Hdr) : List Byte := mkTile { h0 with rows := 0, epoch := 9 } [] (w4 ([(0, 0), (8, 0x3F800000), (16, 1 + 7 * 65536), (17, 3), (18, 6), (19, 0)] ++ (List.range 7).map fun k => (k + 1, 0xFFFFFFFF)))
def xD (src : List XptSource) (act : Store Byte := []) := rD [] (act ++ layerM A0 1 0) fun d => { d with xpt := { Expert.zero with src := [(0, src)] } }
def dat : List Byte := rowOf actT 6
def wit1 : State := st (xD [src0] (memAt 0x8000100000 actT))
def wit2 : State := st (xD [])
def se : SentEntry := ⟨1, 3, 0, 0, 0, 6, false, false⟩
def src1 : XptSource := { src0 with sent := [se], ended := true }
def ret (k ep : Nat) (pl : List Byte) := fz k 9 ep [(34, 2, 0), (36, 2, 1), (38, 2, 3), (40, 1, 0), (41, 1, 0), (42, 2, (xD [src1]).slotGenIn 0 0 1), (44, 2, 6)] pl
def wit3 : State := st (xD [src1])
def wit4 : State := st (xD [src1])
def wit5 : State := st (xD [src1])
def src2 : XptSource := { src1 with sent := [{ se with resolved := true }] }
def wit6 : State := st (xD [src2])
def hm : XptHome := ⟨0, [], [], [], [], false, [], []⟩
def hD (h : XptHome) (prog : Nat := 0) := rD [] (layerM A0 0 1) fun d => { d with xpt := { Expert.zero with home := [(0, [h])], progress := [(0, prog)] } }
def en (kind rank : Nat) := fz kind 9 9 [(34, 2, 0), (36, 2, 1), (38, 2, 3), (40, 1, rank), (41, 1, 0), (42, 2, 7), (44, 2, 6)] dat
def wit7 : State := st (hD hm)
def hm2 : XptHome := { hm with ended := [0, 2] }
def wit8 : State := st (hD hm2)
def wit9 : State := st (hD hm)
def he : HomeEntry := ⟨1, 3, 0, 0, 7, 6, 1, dat⟩
def hm3 : XptHome := { hm with ended := [0, 2, 1], admitted := [he] }
def wit10 : State := st (hD hm3)
def hm4 : XptHome := { hm3 with notified := true }
def wit11 : State := st (hD hm4)
def wit12 : State := st (hD hm)
def wit13 : State := st (hD hm3)

theorem served : (wit1.dev.layerRec 0 0).edge = 0 ∧ (wit1.dev.layerRec 0 0).queue = 2 ∧ wit1.dev.expTable 0 = some (A0, 1) ∧
    rowCheck 0 (wit1.dev.layerRec 0 0) src0.rows.getLast? (choiceRow (choice hF) 0).1 = none ∧
    (∀ y ∈ (choiceRow (choice hF) 0).1.ranks, wit1.dev.homePos 0 ((wit1.dev.layerRec 0 0).experts.getD y.2 ⟨0, 0, 0, 0, 0, 0⟩) ≠ wit1.dev.pos) ∧
    (wit1.dev.layerRec 0 0).hTiles = 1 ∧ wit1.dev.actAddr 0 (wit1.dev.layerRec 0 0) ((choiceRow (choice hF) 0).1.srcRow / 64) 0 = 0x8000100000 ∧
    ((memAt imgA imgR).all fun q => q.1 < 0x8000100000 || 0x8000100000 + 4416 ≤ q.1) = true ∧
    ((layerM A0 1 0).all fun q => q.1 < 0x8000100000 || 0x8000100000 + 4416 ≤ q.1) = true := by decide +kernel

theorem test_ExpertsAreServed (h : Obligations.ExpertsAreServed) :
    Ran (.choiceTile 0 0 2 (choice hF)) wit1 ∧
    Ran (.choiceTile 0 0 2 (badTile { hF with epoch := 9 } [] [])) wit2 ∧
    Ran (.xptReturn { port := 0, pkt := (ret 0x31 9 (dat ++ dat ++ zeros 48)) }) wit3 ∧
    Ran (.xptDrop { port := 0, pkt := (ret 0x32 9 []) }) wit4 ∧
    Ran (((0x32, Instr.xptDrop ⟨0, ret 0x32 8 []⟩) : Nat × Instr).snd) wit5 ∧
    Ran (.combineNotify 0 0) wit6 ∧
    Ran (.xptEntry { port := 0, pkt := (en 0x30 0) }) wit7 ∧
    Ran (.xptEntry { port := 0, pkt := (en 0x30 0) }) wit8 ∧
    Ran (.xptEnd { port := 0, pkt := (fz 0x33 9 9 [(34, 2, 0)]) }) wit9 ∧
    Ran (.expertAdmitNotify 0 0) wit10 ∧
    Ran (.expertOutputTile 0 0 4 (mkTile { hF with epoch := 9, seq := 1, eos := false } [] [])) wit11 ∧
    Ran (.expertOutputTile 0 0 4 (mkTile { hF with epoch := 9, seq := 1, eos := false } [] [])) wit13 ∧
    Ran (.expertWaitTimeout 0 0) wit12 ∧
    Ran (.xptClr 0) wit7 :=
  ⟨ran (both (both (both (both (both (both (both ((both (both ((h.1 wit1 0 0 0).1 0 0 2 (choice hF))) (by decide +kernel)).1 src0 A0 1 dat (tileCrcOk_mkTile _ _ _))))))) (by decide +kernel) served.1 served.2.1 served.2.2.1) (by decide +kernel) served.2.2.2.1 (by decide +kernel) (both (entryData_one 0x8000100000 actT dat (memAt imgA imgR) (layerM A0 1 0) served.2.2.2.2.2.1 served.2.2.2.2.2.2.1 rfl (length_mkTile _ _ _) served.2.2.2.2.2.2.2.1 served.2.2.2.2.2.2.2.2 (tileCrcOk_mkTile _ _ _)) (by decide +kernel)) served.2.2.2.2.1),
   ran (both (both (both ((both (both ((h.1 wit2 0 0 0).1 0 0 2 (badTile { hF with epoch := 9 } [] []))) (by decide +kernel)).2 (by rw [tileCrcOk_bad]; rfl)))) (by decide +kernel)),
   ran ((both (both (both ((both (both ((h.1 wit3 0 0 0).2.1 (ret 0x31 9 (dat ++ dat ++ zeros 48)) 0)) (by decide +kernel)).1 src1))) (by decide +kernel)).1 (by decide +kernel)),
   ran ((both (both (both ((both (both ((h.1 wit4 0 0 0).2.1 (ret 0x32 9 []) 0)) (by decide +kernel)).1 src1))) (by decide +kernel)).2 (by decide +kernel)),
   ran (both ((both (both ((h.1 wit5 0 0 0).2.1 (ret 0x32 8 []) 0)) (by decide +kernel)).2 (by decide +kernel) (0x32, Instr.xptDrop ⟨0, ret 0x32 8 []⟩)) (by decide +kernel)),
   ran (both (both (both (both (both (both (both (both ((h.1 wit6 0 0 0).2.2 0 0 src2 img0)))))))) (by decide +kernel)),
   ran (((both (both (both (both (both ((h.2 wit7 0 0 0 hm).1 (en 0x30 0) 0))))) (by decide +kernel)).1 (by decide +kernel)).1 (by decide +kernel)),
   ran (both (both (both (both (((both (both (both (both (both ((h.2 wit8 0 0 0 hm2).1 (en 0x30 0) 0))))) (by decide +kernel)).1 (by decide +kernel)).2)))) (by decide +kernel)),
   ran (both ((both (both (both (both (both ((h.2 wit9 0 0 0 hm).1 (fz 0x33 9 9 [(34, 2, 0)]) 0))))) (by decide +kernel)).2) (by decide +kernel)),
   ran (both (both (both (both (both (both (both (both ((h.2 wit10 0 0 0 hm3).2.1 0 0 img0)))))))) (by decide +kernel)),
   ran (both (both (both (both (both (both (both ((both (both (both (both (both ((h.2 wit11 0 0 0 hm4).2.2.1 0 0 4 (mkTile { hF with epoch := 9, seq := 1, eos := false } [] []) 0))))) (by decide +kernel) (tileCrcOk_mkTile _ _ _) (by decide +kernel)).1))))))) (by decide +kernel)),
   ran (both (both (both ((both (both (both (both (both ((h.2 wit13 0 0 0 hm3).2.2.1 0 0 4 (mkTile { hF with epoch := 9, seq := 1, eos := false } [] []) 0))))) (by decide +kernel) (tileCrcOk_mkTile _ _ _) (by decide +kernel)).2))) (by decide +kernel)),
   ran (both (both (both (both (both (both (both (both ((h.2 wit12 0 0 0 hm).2.2.2.1 0 0)))))))) (by decide +kernel)),
   ran (both ((h.2 wit7 0 0 0 hm).2.2.2.2) (by decide +kernel))⟩

end Experts

/-! ### RingPorts -/

namespace RingPorts

def rh (node sess echo : Nat) := rfr 1 24 0xFF 0 [(36, 8, 777), (44, 8, echo)] (helB (nodeW node) sess 0)
def xx := rh 24 5 90000
def wit1 : State := st (rgD 1 3 rp0)
def wit2 : State := st { (rgD 1 3 rp0) with ps := ms }
def wit3 : State := st (rgD 2 3 rp0)
def wit5 : State := st (rgD 3 3 { rp0 with lost := some (24, 5) })
def wit6 : State := st (rgD 3 3 rp0)
def wit7 : State := st (rgD 3 3 { rp0 with misses := [40*ms - us, 40*ms - 2 * us] })
def wit8 : State := st (rgD 4 3 { rp0 with expelLeft := 2, expelCode := 1, lost := some (9, 5) } id [(Reg.LNK_BROOD_STAT, wv [(Fld.LNK_BROOD_STAT_FORMED, 1)]), (Reg.GLB_LEVEL, wv [(Fld.GLB_LEVEL_READY, 1), (Fld.GLB_LEVEL_BROOD_MEMBERS, 7)]) ])
def dev2 (f : Ring → Ring) (m : List (Nat × Word)) (rdy : Bool := true) := rgD 3 3 rp0 f (m ++ if rdy then [] else [(Reg.GLB_LEVEL, 0)])
def wit9 : State := st (dev2 id [] false)
def wit10 : State := st (dev2 id [])
def wit11 : State := st (dev2 id [])
def wit12 : State := st (dev2 (fun r => { r with leaveAt := some 5 }) [(Reg.LNK_RING_CTL, 0)])
def wit13 : State := st (dev2 id [(Reg.LNK_RING_STAT, wv [(Fld.LNK_RING_STAT_SWITCH, 1)])])
def wit14 : State := st (dev2 (fun r => { r with drive := false }) [(Reg.LNK_RING_STAT, wv [(Fld.LNK_RING_STAT_SWITCH, 1)])])
def wit15 : State := st (dev2 id [(Reg.GLB_LEVEL, wv [(Fld.GLB_LEVEL_READY, 1), (Fld.GLB_LEVEL_RING_IN, 1)])])
def wit16 : State := st (dev2 id [])

theorem test_RingPortsAndDevices (h : Obligations.RingPortsAndDevices) :
    Ran (.ringPortTrained 0) wit2 ∧
    Ran (.ringTrainTimeout 0) wit1 ∧
    Ran (.ringHelloTimeout 0) wit3 ∧
    Ran (.rhello 0 xx) wit3 ∧
    Ran (.rhello 0 xx) wit5 ∧
    Ran (.rhello 0 (rh 24 6 0)) wit6 ∧
    Ran (.rleave 0 (rfr 3 24 255 0 [] [])) wit7 ∧
    Ran (.lightReturn 0) wit8 ∧
    Ran (.ringRetrain 0 0) wit8 ∧
    Ran (.hopMiss 0 4) wit6 ∧
    Ran (.hopMiss 0 4) wit7 ∧
    Ran (.hopSilence 0) wit5 ∧
    Ran (.expelRepeat 0) wit8 ∧
    Ran (.hopLossTimeout 0) wit5 ∧
    Ran (.ringInsert 0) wit9 ∧
    Ran (.ringInsert 0) wit12 ∧
    Ran (.ringRemove 0) wit9 ∧
    Ran (.ringInsert 1) wit10 ∧
    Ran (.ringRemove 1) wit10 ∧
    Ran (.driveRemoval) wit12 ∧
    Ran (.switchInserted) wit13 ∧
    Ran (.switchBypassed) wit14 ∧
    Ran (.bypassNLow) wit9 ∧
    Ran (.bypassNHigh) wit9 ∧
    Ran (.expel 0 (rfr 4 24 255 0 [(36, 1, 1)] [])) wit11 ∧
    Ran (.rkeep 0 (rfr 2 24 255 0 [] [])) wit12 ∧
    Ran (.rkeepTimer 0) wit9 ∧
    Ran (.rhelloTimer 0) wit9 ∧
    Ran (.loopTimer) wit15 ∧
    Ran (.loopFrame 0 (rfr 5 8 255 0 [] [])) wit15 ∧
    Ran (.loopFrame 0 (rfr 5 24 255 0 [] [])) wit16 :=
  ⟨ran (both ((h.1 wit2 0 xx 0).1) (by decide +kernel)),
   ran (both ((h.1 wit1 0 xx 0).2.1) (by decide +kernel)),
   ran (both ((h.1 wit3 0 xx 0).2.2.1) (by decide +kernel)),
   ran (both ((h.1 wit3 0 xx 0).2.2.2.1) (by decide +kernel)),
   ran (both (both ((h.1 wit5 0 xx 0).2.2.2.2.1)) (by decide +kernel)),
   ran (both (both ((h.1 wit6 0 (rh 24 6 0) 0).2.2.2.2.2.1)) (by decide +kernel)),
   ran (both ((h.1 wit7 0 (rfr 3 24 255 0 [] []) 0).2.2.2.2.2.2.1) (by decide +kernel)),
   ran ((h.1 wit8 0 (rfr 3 24 255 0 [] []) 0).2.2.2.2.2.2.2.1 (by decide +kernel)),
   ran (both (both ((h.1 wit8 0 (rfr 3 24 255 0 [] []) 0).2.2.2.2.2.2.2.2.1)) (by decide +kernel)),
   ran ((both (both (both ((h.1 wit6 0 (rh 24 6 0) 0).2.2.2.2.2.2.2.2.2.1 4 1000))) (by decide +kernel)).1 (by decide +kernel)),
   ran ((both (both (both ((h.1 wit7 0 (rfr 3 24 255 0 [] []) 0).2.2.2.2.2.2.2.2.2.1 4 1000))) (by decide +kernel)).2 (by decide +kernel)),
   ran (both ((h.1 wit5 0 xx 0).2.2.2.2.2.2.2.2.2.2.1) (by decide +kernel)),
   ran (both (both ((h.1 wit8 0 (rfr 3 24 255 0 [] []) 0).2.2.2.2.2.2.2.2.2.2.2.1)) (by decide +kernel)),
   ran (both (both ((h.1 wit5 0 xx 0).2.2.2.2.2.2.2.2.2.2.2.2 24 5)) (by decide +kernel)),
   ran (both (both (((h.2 wit9 0 xx 0).1 (by decide +kernel)).1)) (by decide +kernel)),
   ran (both (both (((h.2 wit12 0 (rfr 2 24 255 0 [] []) 0).1 (by decide +kernel)).2.1)) (by decide +kernel)),
   ran (both (((h.2 wit9 0 xx 0).1 (by decide +kernel)).2.2.1) (by decide +kernel)),
   ran ((((h.2 wit10 0 xx 1).1 (by decide +kernel)).2.2.2 (by decide +kernel)).1),
   ran ((((h.2 wit10 0 xx 1).1 (by decide +kernel)).2.2.2 (by decide +kernel)).2),
   ran (both ((h.2 wit12 0 (rfr 2 24 255 0 [] []) 0).2.1 5) (by decide +kernel)),
   ran (both ((h.2 wit13 0 (rfr 2 24 255 0 [] []) 0).2.2.1) (by decide +kernel)),
   ran (both ((h.2 wit14 0 (rfr 2 24 255 0 [] []) 0).2.2.2.1) (by decide +kernel)),
   ran ((h.2 wit9 0 xx 0).2.2.2.2.1),
   ran ((h.2 wit9 0 xx 0).2.2.2.2.2.1),
   ran (both ((h.2 wit11 0 (rfr 4 24 255 0 [(36, 1, 1)] []) 0).2.2.2.2.2.2.1) (by decide +kernel)),
   ran (both ((h.2 wit12 0 (rfr 2 24 255 0 [] []) 0).2.2.2.2.2.2.2.1) (by decide +kernel)),
   ran (both ((h.2 wit9 0 xx 0).2.2.2.2.2.2.2.2.1) (by decide +kernel)),
   ran (both ((h.2 wit9 0 xx 0).2.2.2.2.2.2.2.2.2.1) (by decide +kernel)),
   ran (both (both ((h.2 wit15 0 (rfr 5 8 255 0 [] []) 0).2.2.2.2.2.2.2.2.2.2.1)) (by decide +kernel)),
   ran (both (both (both ((h.2 wit15 0 (rfr 5 8 255 0 [] []) 0).2.2.2.2.2.2.2.2.2.2.2.1))) (by decide +kernel)),
   ran (both (both (both ((h.2 wit16 0 (rfr 5 24 255 0 [] []) 0).2.2.2.2.2.2.2.2.2.2.2.2))) (by decide +kernel))⟩

end RingPorts

/-! ### RingMsgs -/

namespace RingMsgs

def RF (n : Nat) : Nat × Word := (Reg.LNK_RB_CFG 1, wv [(Fld.LNK_RB_CFG_PART, 0), (Fld.LNK_RB_CFG_STREAM, 12), (Fld.LNK_RB_CFG_RATE, 4)])
def dom5 : Nat × Word := (Reg.LNK_DOMAIN 0, 5)
def mg (f : Ring → Ring) (m : List (Nat × Word)) (mem : Store Byte := []) (jobs : List Job := []) : Dev := let d := rgD 3 3 rp0 f ([RF 0, dom5, (Reg.MEM_CFG, wv [(Fld.MEM_CFG_T1_GRANULES, 2)]), (Reg.GLB_LEVEL, wv [(Fld.GLB_LEVEL_READY, 1), (Fld.GLB_LEVEL_RING_IN, 1)])] ++ m); { d with mem := mem, ldr := { d.ldr with jobs := jobs } }
def bad (x : RingFrame) : RingFrame := { x with hcrc := x.hcrc + 1 }
def cm := rfr 0x10 24 8 5 [] [1#8,2#8]
def wit1 : State := st (mg id [])
def wit2 : State := st (mg id [])
def cb := rfr 0x10 24 0xFF 5 [] [1#8,2#8]
def wit4 : State := st (mg id [])
def ms1 : CtrlMsg := { mseq := 5, dst := 24, payload := [1#8], sends := 2, at_ := 100 }
def ckk := rfr 0x11 24 8 5 [] []
def cfw := rfr 0x11 24 9 5 [] []
def wit5 : State := st (mg (fun r => { r with ctrl := [ms1, { ms1 with mseq := 6 }] }) [])
def wit6 : State := st (mg (fun r => { r with ctrl := [{ ms1 with sends := 8 }] }) [])
def srcA := 0x8000300000
def rngM : Store Byte := memAt srcA (toLe 8 0x8000400000 ++ toLe 8 5000 ++ zeros 16 ++ toLe 8 0x8000500000 ++ toLe 8 64 ++ zeros 96)
def rbs (n : Nat) : Nat × Word := (Reg.LNK_RB_STAT 1, wv [(Fld.LNK_RB_STAT_STATE, n)])
def bsrc : Nat × Word := (Reg.LNK_RB_SRC 1, BitVec.ofNat 64 srcA)
def wit7 : State := st (mg id [rbs 1, bsrc] rngM)
def wit8 : State := st (mg id [rbs 0, bsrc] rngM)
def wit9 : State := st (mg id [rbs 0, bsrc, (Reg.LNK_DOMAIN 0, 0)] rngM)
def wit10 : State := st (mg id [rbs 0, (Reg.LNK_RB_SRC 1, 5)] rngM)
def bcs (done : List Nat) (reps : List (Nat × Nat × Nat)) : Ring → Ring := fun r => { r with bc := [(1, ⟨[(0x8000400000, 5000), (0, 0), (0x8000500000, 64), (0,0),(0,0),(0,0),(0,0),(0,0),(0,0)], done, 2, 3, reps, 0, 0⟩)] }
def wit11 : State := st (mg (bcs [4096, 0, 0, 0, 0, 0, 0,0,0] [(0, 100, 50)]) [rbs 1, bsrc] rngM)
def wit12 : State := st (mg (bcs [4096, 0, 0, 0, 0, 0, 0,0,0] []) [rbs 1, bsrc] rngM)
def nk := rfr 0x22 24 8 0 [(36, 1, 0), (40, 8, 100), (48, 8, 60)] []
def wit14 : State := st (mg (bcs [5000, 0, 64, 0, 0, 0, 0,0,0] []) [rbs 2, bsrc] rngM)
def jrec : List Byte := putLe (putLe (putLe (putLe (toLe 1 1 ++ zeros 63) 1 1 3) 4 2 12) 8 8 (2^63 + 1000)) 40 8 100
def jb : Job := ⟨0, 17, jrec, [], 0, 1, [(0, 100)], 5, some 24, 5⟩
def bd (k : Nat) : RingFrame := rfr k 24 0xFF 9 [] (if k = 0x20 then [1#8, 2#8, 3#8] else []) fun x => { x with shard := 8, offset := 1002 }
def ldRegs : List (Nat × Word) := [(Reg.MEM_LD_BASE 0, wv [(Fld.MEM_LD_BASE_BASE, t1Base + 0x200000), (Fld.MEM_LD_BASE_LOG2N, 4)]), (Reg.MEM_LD_TAIL 0, 18), (Reg.MEM_LD_HEAD 0, 17)]
def wit15 : State := st (mg id [] [] [jb])
def wit16 : State := st (mg id ldRegs [] [jb])
def wit17 : State := st { mg id ldRegs [] [jb] with ps := 200 * ms }
def jb2 : Job := { jb with holes := [(0, 50)] }
def wit18 : State := st { mg id ldRegs [] [jb2] with ps := 20 * ms }
def jrec3 : List Byte := putLe (putLe jrec 24 8 (t1Base + 0x600000)) 40 8 1000
def jb3 : Job := { jb with record := jrec3, holes := [(512, 488)], src := [(7, 9)], lastAt := 5 }
def wit19 : State := st { mg id ldRegs [] [jb3] with ps := 200 * ms }

theorem test_MessagesAndBroadcastsOfTheRing (h : Obligations.MessagesAndBroadcastsOfTheRing) :
    Ran (((0x10, Instr.ctrlMsg 0 (bad cm)) : Nat × Instr).snd) wit1 ∧
    Ran (.ctrlMsg 0 cm) wit2 ∧
    Ran (.ctrlMsg 0 cb) wit4 ∧
    Ran (.ctrlAck 0 ckk) wit5 ∧
    Ran (((0x11, Instr.ctrlAck 0 cfw) : Nat × Instr).snd) wit6 ∧
    Ran (.ctrlMsgResend 5) wit6 ∧
    Ran (.ctrlMsgResend 5) wit5 ∧
    Ran (.bcStart 0 1) wit7 ∧
    Ran (.bcStart 0 1) wit9 ∧
    Ran (.bcStart 0 1) wit10 ∧
    Ran (.bcStart 0 1) wit8 ∧
    Ran (.bcClose 0 1) wit7 ∧
    Ran (.bcFrameSend 1) wit11 ∧
    Ran (.bcFrameSend 1) wit12 ∧
    Ran (.bcEndRepeat 1) wit14 ∧
    Ran (.bcNak 0 nk) wit14 ∧
    Ran (.bcData 0 (bd 0x20)) wit15 ∧
    Ran (.bcEnd 0 (bd 0x21)) wit16 ∧
    Ran (.bcNakTimer 0) wit18 ∧
    Ran (.broadcastJobTimeout 0) wit17 ∧
    Ran (.broadcastJobTimeout 0) wit19 :=
  ⟨ran (both (both ((h wit1 0 (bad cm) 1 1 0).1 (0x10, Instr.ctrlMsg 0 (bad cm)))) (by decide +kernel)),
   ran (both ((h wit2 0 cm 1 1 0).2.1) (by decide +kernel)),
   ran (both ((h wit4 0 cb 1 1 0).2.2.1) (by decide +kernel)),
   ran ((h wit5 0 ckk 1 1 0).2.2.2.1 (by decide +kernel)),
   ran (both (both (both ((h wit6 0 cfw 1 1 0).2.2.2.2.1 (0x11, Instr.ctrlAck 0 cfw)))) (by decide +kernel)),
   ran ((both ((h wit6 0 cfw 1 1 0).2.2.2.2.2.1 5 ({ ms1 with sends := 8 })) (by decide +kernel)).1 (by decide +kernel)),
   ran (both ((both ((h wit5 0 ckk 1 1 0).2.2.2.2.2.1 5 ms1) (by decide +kernel)).2) (by decide +kernel)),
   ran (both ((both ((h wit7 0 cfw 0 1 0).2.2.2.2.2.2.1) (by decide +kernel)).1) (by decide +kernel)),
   ran (both (both (both ((both ((h wit9 0 cfw 0 1 0).2.2.2.2.2.2.1) (by decide +kernel)).2.1))) (by decide +kernel)),
   ran (both (both (both (both (both ((both ((h wit10 0 cfw 0 1 0).2.2.2.2.2.2.1) (by decide +kernel)).2.2.1))))) (by decide +kernel)),
   ran (both (both (both (both ((both ((h wit8 0 cfw 0 1 0).2.2.2.2.2.2.1) (by decide +kernel)).2.2.2.1)))) (by decide +kernel)),
   ran ((both ((h wit7 0 cfw 0 1 0).2.2.2.2.2.2.1) (by decide +kernel)).2.2.2.2),
   ran (both (both (both ((h wit11 0 cfw 1 1 0).2.2.2.2.2.2.2.1 0 100 50 []))) (by decide +kernel)),
   ran (both (both (both (both ((h wit12 0 cfw 1 1 0).2.2.2.2.2.2.2.2.1 2)))) (by decide +kernel)),
   ran (both (both (both (both ((h wit14 0 nk 1 1 0).2.2.2.2.2.2.2.2.2.1 0)))) (by decide +kernel)),
   ran (both (both (both (both (both ((h wit14 0 nk 1 1 0).2.2.2.2.2.2.2.2.2.2.1))))) (by decide +kernel)),
   ran (both (both ((h wit15 0 (bd 0x20) 1 1 0).2.2.2.2.2.2.2.2.2.2.2.1 jb)) (by decide +kernel)),
   ran (both (both (both (both ((h wit16 0 (bd 0x21) 1 1 0).2.2.2.2.2.2.2.2.2.2.2.2.1 jb (0, 100) [])))) (by decide +kernel)),
   ran (both (both (both (both (both (both (both ((h wit18 0 (bd 0x21) 1 1 0).2.2.2.2.2.2.2.2.2.2.2.2.2.1 jb2 (0, 50) 24 []))))))) (by decide +kernel)),
   ran (((h wit17 0 (bd 0x21) 1 1 0).2.2.2.2.2.2.2.2.2.2.2.2.2.2 jb (by decide +kernel)).1 (by decide +kernel)),
   ran (both (both (((h wit19 0 (bd 0x21) 1 1 0).2.2.2.2.2.2.2.2.2.2.2.2.2.2 jb3 (by decide +kernel)).2)) (by decide +kernel))⟩

end RingMsgs

/-! ### QueuePairs -/

namespace QueuePairs

def hst (n : Nat) : Nat × Word := (Reg.LNK_HP_STAT 1, wv [(Fld.LNK_HP_STAT_STATE, n)])
def hD (n : Nat) (m : List (Nat × Word)) (h : HostSt := HostSt.zero) : Dev := { onDev ([hst n] ++ m) with ps := 40000 * ms, hp := [(1, h)], boot := { (onDev []).boot with eff := [(2, 0x123456780000)] } }
def vc (v : Nat) : Nat × Word := (Reg.LNK_VIEW_CFG (17 * 1 + v), wv [(Fld.LNK_VIEW_CFG_ENABLE, 1)])
def fr (v : Nat) (len : Nat := 1000) (ce : Option QpIdx := none) (sec : Bool := false) : EthFrame := { dst := BitVec.ofNat 48 ((hD 3 []).viewMac 1 v), len := BitVec.ofNat 16 len, tags := 0, prio := 3, secured := sec, valid := true, ceQp := ce }
def wit1 : State := st (hD 3 [])
def wit2 : State := st (hD 3 [vc 1])
def wit4 : State := st (hD 3 [vc 1])
def wit5 : State := st (hD 0 [vc 1])
def wit6 : State := st (hD 0 [vc 1, (Reg.LNK_QP 2 0, wv [(Fld.LNK_QP0_STATE, 3), (Fld.LNK_QP0_PORT, 1)]), (Reg.LNK_QP 2 6, wv [(Fld.LNK_QP6_RATE, 100)])])
def secD := hD 3 [vc 0, (Reg.LNK_HP_CFG 1, wv [(Fld.LNK_HP_CFG_MACSEC_OP, 1)])]
def wit7 : State := st secD
def roleR : Nat × Word := (Reg.LNK_HP_STAT 1, wv [(Fld.LNK_HP_STAT_ROLES, 7)])
def wit8 : State := st (hD 0 [roleR])
def qpr (n : Nat) : Nat × Word := (Reg.LNK_QP 2 0, wv [(Fld.LNK_QP0_STATE, n), (Fld.LNK_QP0_PORT, 1)])
def rq (t : Nat) (op : Nat := 0) (sent : Bool := true) (use : ReadUse := .none) (len : Nat := 8) : QpReq := ⟨op, 0x1000, 9, [], len, use, 5, 0, t, sent⟩
def qD (n : Nat) (l : List QpReq) (m : List (Nat × Word) := []) : Dev := { hD 3 ([qpr n, roleR, (Reg.LNK_QP 2 2, wv [(Fld.LNK_QP2_RETRY, 3), (Fld.LNK_QP2_RNR_RETRY, 3), (Fld.LNK_QP2_TIMEOUT, 3)])] ++ m) with qps := [(2, { QpSt.zero with reqs := l })] }
def wit9 : State := st (qD 0 [])
def wit10 : State := st (qD 1 [])
def wit11 : State := st (qD 2 [])
def wit12 : State := st (qD 2 [])
def wit13 : State := st (qD 3 [rq 1, rq 1, rq 0 1 false])
def wit14 : State := st (qD 3 [rq 3, rq 1, rq 0 1 false])

theorem test_HostPortsAndQueuePairs (h : Obligations.HostPortsAndQueuePairs) :
    Ran (.ethernetFrame 1 (fr 0)) wit1 ∧
    Ran (.ethernetFrame 1 (fr 0)) wit7 ∧
    Ran (.ethernetFrame 1 (fr 1)) wit2 ∧
    Ran (.ethernetFrame 1 (fr 1 1000 (some 2))) wit4 ∧
    Ran (.ethernetFrame 1 (fr 1 1000 (some 2))) wit5 ∧
    Ran (.pauseFrame 1 8 3) wit1 ∧
    Ran (.cnp 2) wit6 ∧
    Ran (.rateIncreaseTimer 2) wit6 ∧
    Ran (.lldpTimer 1) wit1 ∧
    Ran (.lldpdu 1 77 5) wit1 ∧
    Ran (.hostPortUp 1) wit8 ∧
    Ran (.hostPortUp 1) wit1 ∧
    Ran (.hostPortDown 1) wit1 ∧
    Ran (.qpToInit 1 2) wit9 ∧
    Ran (.qpToRtr 1 2) wit10 ∧
    Ran (.qpToRts 1 2) wit11 ∧
    Ran (.qpToReset 1 2) wit9 ∧
    Ran (.qpToError 1 2) wit9 ∧
    Ran (.qpToInit 1 2) wit10 ∧
    Ran (.qpToRtr 1 2) wit9 ∧
    Ran (.qpToRts 1 2) wit9 ∧
    Ran (.qpToReset 2 2) wit12 ∧
    Ran (.qpToError 2 2) wit12 ∧
    Ran (.rdmaAck 2 5) wit13 ∧
    Ran (.rdmaNak 2 NakKind.sequence) wit13 ∧
    Ran (.rdmaNak 2 NakKind.sequence) wit14 ∧
    Ran (.rdmaNak 2 NakKind.rnr) wit13 ∧
    Ran (.rdmaNak 2 NakKind.rnr) wit14 ∧
    Ran (.rdmaNak 2 NakKind.access) wit13 ∧
    Ran (.rdmaNak 2 NakKind.invalid) wit13 ∧
    Ran (.rdmaNak 2 NakKind.operation) wit13 ∧
    Ran (.rdmaRetryTimeout 2) wit13 ∧
    Ran (.rdmaRetryTimeout 2) wit14 :=
  ⟨ran (both ((h.1 wit1 1 (fr 0) 2).1) (by decide +kernel)),
   ran (both (both (both (both (both (both ((h.1 wit7 1 (fr 0) 2).2.1 0)))))) (by decide +kernel)),
   ran (both ((h.1 wit2 1 (fr 1) 2).2.2.1 1) (by decide +kernel)),
   ran (both ((h.1 wit4 1 (fr 1 1000 (some 2)) 2).2.2.2.1 1) (by decide +kernel)),
   ran ((h.1 wit5 1 (fr 1 1000 (some 2)) 2).2.2.2.2.1 (by decide +kernel)),
   ran ((h.1 wit1 1 (fr 0) 2).2.2.2.2.2.1 8 3 (by decide +kernel)),
   ran ((h.1 wit6 1 (fr 1 1000 (some 2)) 2).2.2.2.2.2.2.1 (by decide +kernel)),
   ran (both ((h.1 wit6 1 (fr 1 1000 (some 2)) 2).2.2.2.2.2.2.2.1) (by decide +kernel)),
   ran (both ((h.1 wit1 1 (fr 0) 2).2.2.2.2.2.2.2.2.1) (by decide +kernel)),
   ran ((h.1 wit1 1 (fr 0) 2).2.2.2.2.2.2.2.2.2.1 77 5 (by decide +kernel)),
   ran (both (both ((h.1 wit8 1 (fr 0) 2).2.2.2.2.2.2.2.2.2.2.1)) (by decide +kernel)),
   ran ((h.1 wit1 1 (fr 0) 2).2.2.2.2.2.2.2.2.2.2.2.1 (by decide +kernel)),
   ran ((h.1 wit1 1 (fr 0) 2).2.2.2.2.2.2.2.2.2.2.2.2 (by decide +kernel)),
   ran (both (both (((h.2 wit9 1 2).1 (by decide +kernel)).1)) (by decide +kernel)),
   ran (both (((h.2 wit10 1 2).1 (by decide +kernel)).2.1) (by decide +kernel)),
   ran (both (((h.2 wit11 1 2).1 (by decide +kernel)).2.2.1) (by decide +kernel)),
   ran (((h.2 wit9 1 2).1 (by decide +kernel)).2.2.2.1 (by decide +kernel)),
   ran (((h.2 wit9 1 2).1 (by decide +kernel)).2.2.2.2.1 (by decide +kernel)),
   ran (((h.2 wit10 1 2).1 (by decide +kernel)).2.2.2.2.2.1 (by decide +kernel)),
   ran (((h.2 wit9 1 2).1 (by decide +kernel)).2.2.2.2.2.2.1 (by decide +kernel)),
   ran (((h.2 wit9 1 2).1 (by decide +kernel)).2.2.2.2.2.2.2.1 (by decide +kernel)),
   ran ((((h.2 wit12 2 2).1 (by decide +kernel)).2.2.2.2.2.2.2.2 (by decide +kernel)).1),
   ran ((((h.2 wit12 2 2).1 (by decide +kernel)).2.2.2.2.2.2.2.2 (by decide +kernel)).2),
   ran (((h.2 wit13 1 2).2 (by decide +kernel)).1 5),
   ran (((h.2 wit13 1 2).2 (by decide +kernel)).2.1 (by decide +kernel)),
   ran (((h.2 wit14 1 2).2 (by decide +kernel)).2.2.1 (by decide +kernel)),
   ran (((h.2 wit13 1 2).2 (by decide +kernel)).2.2.2.1 (by decide +kernel)),
   ran (((h.2 wit14 1 2).2 (by decide +kernel)).2.2.2.2.1 (by decide +kernel)),
   ran (((h.2 wit13 1 2).2 (by decide +kernel)).2.2.2.2.2.1),
   ran (((h.2 wit13 1 2).2 (by decide +kernel)).2.2.2.2.2.2.1),
   ran (((h.2 wit13 1 2).2 (by decide +kernel)).2.2.2.2.2.2.2.1),
   ran ((both (((h.2 wit13 1 2).2 (by decide +kernel)).2.2.2.2.2.2.2.2 (rq 1)) (by decide +kernel)).1 (by decide +kernel)),
   ran ((both (((h.2 wit14 1 2).2 (by decide +kernel)).2.2.2.2.2.2.2.2 (rq 3)) (by decide +kernel)).2 (by decide +kernel))⟩

end QueuePairs

/-! ### Accesses -/

namespace Accesses

def roleR : Nat × Word := (Reg.LNK_HP_STAT 1, wv [(Fld.LNK_HP_STAT_STATE, 3), (Fld.LNK_HP_STAT_ROLES, 7)])
def qpr (n : Nat) (mg : Nat := 0) : Nat × Word := (Reg.LNK_QP 2 0, wv [(Fld.LNK_QP0_STATE, n), (Fld.LNK_QP0_PORT, 1), (Fld.LNK_QP0_MGMT, mg)])
def rq (t : Nat) (op : Nat := 0) (sent : Bool := true) (use : ReadUse := .none) (len : Nat := 8) : QpReq := ⟨op, 0x1000, 9, [], len, use, 5, 0, t, sent⟩
def qD (n : Nat) (l : List QpReq) (m : List (Nat × Word) := []) : Dev := { onDev ([qpr n, roleR] ++ m) with ps := 40 * ms, qps := [(2, { QpSt.zero with reqs := l })] }
def key : Nat × Word := (Reg.LNK_VIEW_KEY 1, wv [(t1Key, 55), (csKey, 66)])
def hA := qD 3 [] [key, (Reg.MOLT_HSTAT 0, wv [(Fld.MOLT_HSTAT_STATE, 2)])]
def A0 : Word := 0x8000100000
def hI : Dev := { hA with mem := memAt imgA img4, img := { ImgPart.zero with imgs := [(0, some theImg)] } }
def dt : List Byte := [1#8,2#8,3#8,0#8,5#8]
def C0 : Word := BitVec.ofNat 64 (csBase + Reg.GLB_NODE)
def com : Nat × Word := (Reg.STEP_PHASE 0, wv [(Fld.STEP_PHASE_PHASE, 3)])
def wit1 : State := st hA
def wit2 : State := st hI
def wit3 : State := st hA
def wit4 : State := st hA
def wit5 : State := st (qD 3 [] [key, com])
def r8 (u : ReadUse) := rq 5 1 true u
def wit7 : State := st (qD 3 [rq 3, r8 .none] [key])
def wit8 : State := st (qD 3 [rq 3, r8 (.prompt 5)] [key])
def wit9 : State := st (qD 3 [rq 3, r8 (.ringHead 5)] [key])
def wit10 : State := st hA
def wit11 : State := st hA
def sealedD := qD 3 [] [key, (Reg.PART_STAT 0, wv [(Fld.PART_STAT_STATE, 3)])]
def ro : RegRow × List Nat := (⟨"", 0, [], 0, .ro, 0, 0⟩, [])
def wit12 : State := st sealedD
def wit13 : State := st hA
def wit14 : State := st hA
def wit15 : State := st hA
def wit16 : State := st { qD 3 [] [key, com] with srv := { Serving.zero with held := List.replicate 16 ⟨2, 0, 0, 8⟩ } }

theorem test_HostAccesses_long (h : Obligations.HostAccesses) : Ran (.rdmaWrite 2 A0 55 (List.replicate (maxMessage + 1) 0#8)) wit1 :=
  ran ((h wit1 2 A0 55).1 _ (by decide +kernel) (by rw [List.length_replicate]; exact Nat.lt_succ_self _))

theorem test_HostAccesses (h : Obligations.HostAccesses) :
    Ran (.rdmaRead 2 A0 55 0x80000001) wit15 ∧
    Ran (.rdmaWrite 2 A0 55 dt) wit1 ∧
    Ran (.rdmaWrite 2 (BitVec.ofNat 64 (imgA + 4094)) 55 dt) wit2 ∧
    Ran (.rdmaWrite 2 A0 56 dt) wit3 ∧
    Ran (.rdmaRead 2 A0 55 17) wit1 ∧
    Ran (.rdmaRead 2 C0 66 8) wit4 ∧
    Ran (.rdmaRead 2 C0 66 16) wit5 ∧
    Ran (.rdmaRead 2 C0 66 16) wit16 ∧
    Ran (.rdmaRead 2 A0 56 17) wit3 ∧
    Ran ((Instr.rdmaWrite 2 A0 55 [])) wit1 ∧
    Ran (.sendMsg 2 dt) wit1 ∧
    Ran (.rdmaReadResponse 2 (zeros 7 ++ [1#8])) wit7 ∧
    Ran (.rdmaReadResponse 2 (zeros 7 ++ [1#8])) wit8 ∧
    Ran (.rdmaReadResponse 2 (zeros 7 ++ [1#8])) wit9 ∧
    Ran (.registerWrite 0 (BitVec.ofNat 28 Reg.BOOT_STAT) 0xFFFFFFFFFFFFFFFF) wit10 ∧
    Ran (.registerWrite 0 (BitVec.ofNat 28 (Reg.PART_SHARE 0)) 5) wit12 ∧
    Ran (.registerWrite 0 5 0xFFFFFFFFFFFFFFFF) wit11 ∧
    Ran (.registerWrite 1 (BitVec.ofNat 28 (Reg.STEP_BLK 0)) 5) wit13 ∧
    Ran (.registerWrite 0 (BitVec.ofNat 28 (Reg.TIME_CFG)) 5) wit14 :=
  ⟨ran (both ((h wit15 2 A0 55).2.1 0x80000001) (by decide +kernel)),
   ran (both ((both (both ((h wit1 2 A0 55).2.2.1 dt)) (by decide +kernel)).1) (by decide +kernel)),
   ran (both (both ((both (both ((h wit2 2 (BitVec.ofNat 64 (imgA + 4094)) 55).2.2.1 dt)) (by decide +kernel)).2.1)) (by decide +kernel)),
   ran ((both (both ((h wit3 2 A0 56).2.2.1 dt)) (by decide +kernel)).2.2 (by decide +kernel)),
   ran (both ((both (both ((h wit1 2 A0 55).2.2.2.1 17)) (by decide +kernel)).1) (by decide +kernel)),
   ran (both (both (both ((both (both ((h wit4 2 C0 66).2.2.2.1 8)) (by decide +kernel)).2.1))) (by decide +kernel)),
   ran ((both (both ((both (both ((h wit5 2 C0 66).2.2.2.1 16)) (by decide +kernel)).2.2.1)) (by decide +kernel)).1 (by decide +kernel)),
   ran ((both (both ((both (both ((h wit16 2 C0 66).2.2.2.1 16)) (by decide +kernel)).2.2.1)) (by decide +kernel)).2 (by decide +kernel)),
   ran ((both (both ((h wit3 2 A0 56).2.2.2.1 17)) (by decide +kernel)).2.2.2 (by decide +kernel)),
   ran ((h wit1 2 A0 55).2.2.2.2.1 (by decide +kernel) (Instr.rdmaWrite 2 A0 55 []) (by decide +kernel)),
   ran ((h wit1 2 A0 55).2.2.2.2.2.1 dt (by decide +kernel)),
   ran ((both (both (both ((h wit7 2 A0 56).2.2.2.2.2.2.1 (zeros 7 ++ [1#8]) (r8 .none)))) (by decide +kernel)).1 (by decide +kernel)),
   ran ((both (both (both ((h wit8 2 A0 56).2.2.2.2.2.2.1 (zeros 7 ++ [1#8]) (r8 (.prompt 5))))) (by decide +kernel)).2.1 5 (by decide +kernel)),
   ran (both ((both (both (both ((h wit9 2 A0 56).2.2.2.2.2.2.1 (zeros 7 ++ [1#8]) (r8 (.ringHead 5))))) (by decide +kernel)).2.2 5) (by decide +kernel)),
   ran (both (((h wit10 2 A0 56).2.2.2.2.2.2.2 0 (BitVec.ofNat 28 Reg.BOOT_STAT) 0xFFFFFFFFFFFFFFFF).1) (by decide +kernel)),
   ran (both (both (both (both (both (both (((h wit12 2 A0 56).2.2.2.2.2.2.2 0 (BitVec.ofNat 28 (Reg.PART_SHARE 0)) 5).2.1 (((regAt (Reg.PART_SHARE 0)).getD ro).1) (((regAt (Reg.PART_SHARE 0)).getD ro).2) 0)))))) (by decide +kernel)),
   ran (both (((h wit11 2 A0 56).2.2.2.2.2.2.2 0 5 0xFFFFFFFFFFFFFFFF).2.2.1) (by decide +kernel)),
   ran (both (both (both (((h wit13 2 A0 56).2.2.2.2.2.2.2 1 (BitVec.ofNat 28 (Reg.STEP_BLK 0)) 5).2.2.2.1 0) (by decide +kernel) (Reg.STEP_BLK 0, 0xFFFFFFFFFFFF))) (by decide +kernel)),
   ran (both (both (((h wit14 2 A0 56).2.2.2.2.2.2.2 0 (BitVec.ofNat 28 (Reg.TIME_CFG)) 5).2.2.2.2 (by decide +kernel) (Reg.TIME_CFG, 0xFFFFFFFF))) (by decide +kernel))⟩

end Accesses

/-! ### Clocks -/

namespace Clocks

def cs0 : List (BitVec 48) := []
def idc := fun (c : ClkSt) => c
def pll (k on lock : Nat) : Nat × Word := (Reg.CLK_PLL_STAT k, wv [(Fld.CLK_PLL_STAT_ON, on), (Fld.CLK_PLL_STAT_LOCK, lock), (Fld.CLK_PLL_STAT_TARGET_MHZ, 2000), (Fld.CLK_PLL_STAT_CUR_MHZ, 2000)])
def fcw (src ref k : Nat) : Word := wv [(Fld.CLK_FC_CMD_SRC, src), (Fld.CLK_FC_CMD_REF, ref), (Fld.CLK_FC_CMD_K, k)]
def wit1 : State := st (clkD idc [])
def wit2 : State := st (clkD (fun c => { c with lost := true }) [] fun d => { d with boot := { d.boot with held := true } })
def wit3 : State := st (clkD idc [pll 3 1 0, (Reg.CLK_MON_CTL, wv [(Fld.CLK_MON_CTL_ENABLE, 1)])])
def hg (k : Nat) := fun (c : ClkSt) => { c with muxReq := [(k, some 5)], fc := some false, monHolds := true }
def wit5 : State := st (clkD (hg 3) [pll 3 1 1])
def wit6 : State := st (clkD (hg 3) [pll 3 1 1, (Reg.GLB_LEVEL, 0)])
def exR : List (Nat × Word) := [(Reg.SCHED_STAT 0, wv [(Fld.SCHED_STAT_CUR_VALID, 1)]), (Reg.STEP_STAT 0, wv [(Fld.STEP_STAT_STATE, 1)]), (Reg.STEP_PHASE 0, wv [(Fld.STEP_PHASE_PHASE, 1)]), (Reg.SCHED_CTX 0, wv [(Fld.SCHED_CTX_ENABLE, 1)])]
def wit7 : State := st (clkD (hg 0) ([pll 0 1 1] ++ exR))
def wit8 : State := st (clkD (fun c => { hg 20 c with monHolds := false }) ([pll 20 1 1, (Reg.CLK_MON_CTL, wv [(Fld.CLK_MON_CTL_ENABLE, 1)])] ++ exR))
def sl (m : List (Nat × Word)) (f : ClkSt → ClkSt) : Dev := clkD f ([(Reg.CLK_SLEEP 0, wv [(Fld.CLK_SLEEP_RET_US, 5), (Fld.CLK_SLEEP_OFF_MS, 5)])] ++ m)
def wit10 : State := st (sl [] fun c => { c with idleSince := [(0, some 5)] })
def wit11 : State := st (sl [(Reg.PART_STAT 0, 0)] fun c => { c with idleSince := [(0, some 5)] })
def cps (k n : Nat) : Nat × Word := (Reg.CLK_COMB_PS k, wv [(Fld.CLK_COMB_PS_STATE, n), (Fld.CLK_COMB_PS_MOVING, 1)])
def wit12 : State := st (sl [(Reg.CLK_COMB_PS 0, wv [(Fld.CLK_COMB_PS_STATE, 1)])] fun c => { c with retSince := [(0, some 5)] })
def wit13 : State := st (sl [cps 0 2] fun c => { c with entering := [(0, some 1)] })
def wit14 : State := st (sl [cps 0 2] fun c => { c with entering := [(0, some 0)] })
def wit15 : State := st (sl [cps 0 2] fun c => { c with entering := [(0, some 1)], wakeNext := [0] })
def wit17 : State := st (sl [cps 0 1] fun c => { c with waking := [(0, some 1)] })
def wit18 : State := st (sl [cps 5 0, pll 5 1 1] fun c => { c with waking := [(5, some 0)] })
def wit19 : State := st (sl [cps 5 0] fun c => { c with waking := [(5, some 0)] })
def mc : Nat × Word := (Reg.CLK_MON_CTL, wv [(Fld.CLK_MON_CTL_ENABLE, 1)])
def wit20 : State := st (clkD (hg 3) [pll 3 1 1, mc])
def wit21 : State := st (clkD (hg 0) ([pll 0 1 1, mc] ++ exR))
def wit22 : State := st (clkD (fun c => { hg 20 c with monHolds := true }) ([mc, pll 3 1 1, (Reg.CLK_MUX_STAT 3, wv [(Fld.CLK_MUX_STAT_SEL, 1)])] ++ exR))

theorem test_ClocksAndCombStates (h : Obligations.ClocksAndCombStates) :
    Ran (.clkinLoss) wit1 ∧
    Ran (.clkinReturn) wit2 ∧
    Ran (.pllLock 3) wit3 ∧
    Ran (.muxHang 3) wit6 ∧
    Ran (.muxHang 3) wit20 ∧
    Ran (.muxHang 0) wit21 ∧
    Ran (.muxHang 20) wit8 ∧
    Ran (.domainReset 0 3) wit1 ∧
    Ran (.domainReset 0 0) wit7 ∧
    Ran (.domainReset 0 20) wit8 ∧
    Ran (.domainReset 1 3) wit2 ∧
    Ran (.fcMeasure 1 (fcw 3 60 10)) wit5 ∧
    Ran (.fcMeasure 0 (fcw 3 60 10)) wit8 ∧
    Ran (.fcMeasure 1 (fcw 3 60 10)) wit3 ∧
    Ran (.fcMeasure 0 (fcw 3 0 10)) wit1 ∧
    Ran (.fcDone 77) wit5 ∧
    Ran (.monitorPoll) wit1 ∧
    Ran (.monitorPollEnd cs0) wit5 ∧
    Ran (.monitorPollEnd ((List.range 36).map fun _ => 5)) wit22 ∧
    Ran (.combRetEntry 0) wit10 ∧
    Ran (.combRetEntry 0) wit11 ∧
    Ran (.combOffEntry 0) wit11 ∧
    Ran (.combOffEntry 0) wit12 ∧
    Ran (.combTransitionDone 0) wit13 ∧
    Ran (.combTransitionDone 0) wit14 ∧
    Ran (.combTransitionDone 0) wit15 ∧
    Ran (.combWakeDone 0) wit17 ∧
    Ran (.combWakeDone 5) wit18 ∧
    Ran (.combWakeDone 5) wit19 :=
  ⟨ran (both (both ((h.1 wit1 3 0).1)) (by decide +kernel)),
   ran ((h.1 wit2 3 1).2.1 (by decide +kernel)),
   ran (both ((h.1 wit3 3 1).2.2.1) (by decide +kernel)),
   ran ((both (both ((h.1 wit6 3 1).2.2.2.1 5)) (by decide +kernel)).1 (by decide +kernel)),
   ran (both (both (both ((both (both ((h.1 wit20 3 1).2.2.2.1 5)) (by decide +kernel)).2.1))) (by decide +kernel)),
   ran (both (both (both (both (both (both (both ((both (both ((h.1 wit21 0 0).2.2.2.1 5)) (by decide +kernel)).2.2.1 0 0))))))) (by decide +kernel)),
   ran (both (both ((both (both ((h.1 wit8 20 0).2.2.2.1 5)) (by decide +kernel)).2.2.2)) (by decide +kernel)),
   ran (both ((both ((h.1 wit1 3 0).2.2.2.2.1) (by decide +kernel)).1) (by decide +kernel)),
   ran (both (both (both (both (both ((both ((h.1 wit7 0 0).2.2.2.2.1) (by decide +kernel)).2.1 0 0))))) (by decide +kernel)),
   ran (both ((both ((h.1 wit8 20 0).2.2.2.2.1) (by decide +kernel)).2.2) (by decide +kernel)),
   ran ((h.1 wit2 3 1).2.2.2.2.2.1 (by decide +kernel)),
   ran (((h.1 wit5 3 1).2.2.2.2.2.2.1 (fcw 3 60 10) (by decide +kernel)).1 (by decide +kernel)),
   ran (both (((h.1 wit8 20 0).2.2.2.2.2.2.1 (fcw 3 60 10) (by decide +kernel)).2.1) (by decide +kernel)),
   ran (both (both (((h.1 wit3 3 1).2.2.2.2.2.2.1 (fcw 3 60 10) (by decide +kernel)).2.2.1)) (by decide +kernel)),
   ran (both (both (((h.1 wit1 3 0).2.2.2.2.2.2.1 (fcw 3 0 10) (by decide +kernel)).2.2.2)) (by decide +kernel)),
   ran ((h.1 wit5 3 1).2.2.2.2.2.2.2.1 77 (by decide +kernel)),
   ran (both (both (both (both ((h.1 wit1 3 0).2.2.2.2.2.2.2.2.1)))) (by decide +kernel)),
   ran (((h.1 wit5 3 1).2.2.2.2.2.2.2.2.2 cs0 (by decide +kernel)).1 (by decide +kernel)),
   ran (both (both (both (both (both (((h.1 wit22 3 0).2.2.2.2.2.2.2.2.2 ((List.range 36).map fun _ => 5) (by decide +kernel)).2))))) (by decide +kernel)),
   ran (both (both (both (both (both (both (both ((h.2 wit10 0 0).1 5))))))) (by decide +kernel)),
   ran (((h.2 wit11 0 0).2.1 (by decide +kernel)).1),
   ran (((h.2 wit11 0 0).2.1 (by decide +kernel)).2),
   ran (both (both (both (both (both (both (both ((h.2 wit12 0 0).2.2.1 5))))))) (by decide +kernel)),
   ran (both ((h.2 wit13 0 0).2.2.2.1) (by decide +kernel)),
   ran (both ((h.2 wit14 0 0).2.2.2.2.1) (by decide +kernel)),
   ran (both (both (both ((h.2 wit15 0 0).2.2.2.2.2.1 1))) (by decide +kernel)),
   ran ((both ((h.2 wit17 0 0).2.2.2.2.2.2.1 1) (by decide +kernel)).1),
   ran ((both ((h.2 wit18 0 5).2.2.2.2.2.2.1 0) (by decide +kernel)).2 (by decide +kernel)),
   ran (both ((h.2 wit19 0 5).2.2.2.2.2.2.2) (by decide +kernel))⟩

end Clocks

/-! ### TimeSync -/

namespace TimeSync

def ringin : Nat × Word := (Reg.GLB_LEVEL, wv [(Fld.GLB_LEVEL_READY, 1), (Fld.GLB_LEVEL_RING_IN, 1), (Fld.GLB_LEVEL_BROOD_MEMBERS, 7)])
def tD (f : TimeSt → TimeSt) (m : List (Nat × Word)) (g : Dev → Dev := id) : Dev := let d := rgD 3 3 rp0 id ([ringin, (Reg.LNK_BROOD_STAT, wv [(Fld.LNK_BROOD_STAT_FORMED, 1)]), pst 2 3 [(Fld.LNK_BL_STAT_USED, 1), (Fld.LNK_BL_STAT_PEER_POS, 1)]] ++ m); g { d with tim := f TimeSt.zero, lnk := { d.lnk with session := 77, ports := [(2, prt)] } }
def idt := fun (t : TimeSt) => t
/-- Firefly payload: op scope seq 8: t1 16: t2 24: t3 … -/
def ffp (op scope seq t1 t2 t3 : Nat) : List Byte := putLe (putLe (putLe (putLe (putLe (putLe (zeros 64) 0 1 op) 1 1 scope) 2 2 seq) 8 8 t1) 16 8 t2) 24 8 t3
def fx := rfr 0x30 24 8 0 [] (ffp 1 1 7 5000 0 0)
def fy (seq t1 : Nat) := frp 0x61 9 8 0 0 0 0 0 (ffp 2 0 seq t1 100500 100700)
def y0 := fy 7 90000
def wit1 : State := st (tD idt [])
def wit2 : State := st (tD idt [] fun d => { d with lnk := { d.lnk with lead := some 1 } })
def rr : FfSent := ⟨2, 7, 90000, 0⟩
def rD (acc : Bool) (m : List (Nat × Word)) := tD (fun t => { t with sent := [rr], accepted := acc }) m fun d => { d with lnk := { d.lnk with lead := some 1 } }
def wit4 : State := st (rD true [])
def swa : List (Nat × Word) := [(Reg.GLB_NODE, wv [(Fld.GLB_NODE_VALID, 1), (Fld.GLB_NODE_NODE_ID, 8), (Fld.GLB_NODE_ROLE, 3)]), (Reg.TIME_STAT, wv [(Fld.TIME_STAT_COLONY_MASTER, 1)])]
def wit7 : State := st (tD idt swa fun d => { d with boot := { d.boot with eff := [(9, wv [(Fld.PSR_FIREFLY_VALID, 1), (Fld.PSR_FIREFLY_MASTER, 9)])] } })
def t2 : Nat × Word := (Reg.TIME_STAT, wv [(Fld.TIME_STAT_STATE, 2)])
def wit8 : State := st (tD idt [t2])
def wit9 : State := st (tD (fun t => { t with colonyAt := 39 * ms }) [t2])
def wit10 : State := st (tD (fun t => { t with colonyAt := 39 * ms }) [t2, (Reg.GLB_NODE, 0), (Reg.LNK_HP_STAT 1, wv [(Fld.LNK_HP_STAT_STATE, 3), (Fld.LNK_HP_STAT_ROLES, 7)])])

theorem test_TimeIsExchanged (h : Obligations.TimeIsExchanged) :
    Ran (.fireflySendTimer 1) wit1 ∧
    Ran (.fireflySendTimer 0) wit2 ∧
    Ran (.fireflySendTimer 2) wit7 ∧
    Ran (.fireflyRequest (FireflyMsg.ring 0 fx)) wit1 ∧
    Ran ((Instr.fireflyRequest (.frarax { y0 with hcrc := 0 }))) wit2 ∧
    Ran (.fireflyReply (FireflyMsg.frarax y0)) wit1 ∧
    Ran (.fireflyReply (FireflyMsg.frarax y0)) wit4 ∧
    Ran (.parentTimeout) wit8 ∧
    Ran (.parentTimeout) wit9 ∧
    Ran (.resync 0) wit1 ∧
    Ran (.resync 0) wit10 ∧
    Ran (.ptpMessage 1 123456) wit10 :=
  ⟨ran (both (both ((h wit1 0 fx y0 0 (by decide +kernel)).1 0)) (by decide +kernel)),
   ran (both (both (both ((h wit2 0 fx ({ y0 with hcrc := 0 }) 0 (by decide +kernel)).2.1 1))) (by decide +kernel)),
   ran (both (both (both (both ((h wit7 0 fx y0 1 (by decide +kernel)).2.2.1 9)))) (by decide +kernel)),
   ran (both ((h wit1 0 fx y0 0 (by decide +kernel)).2.2.2.1) (by decide +kernel)),
   ran ((h wit2 0 fx ({ y0 with hcrc := 0 }) 0 (by decide +kernel)).2.2.2.2.1 (by decide +kernel) (Instr.fireflyRequest (.frarax { y0 with hcrc := 0 })) (by decide +kernel)),
   ran (both ((h wit1 0 fx y0 0 (by decide +kernel)).2.2.2.2.2.1) (by decide +kernel)),
   ran (both (both ((h wit4 0 fx y0 1 (by decide +kernel)).2.2.2.2.2.2.1 rr)) (by decide +kernel)),
   ran ((both (both ((h wit8 0 fx y0 0 (by decide +kernel)).2.2.2.2.2.2.2.1)) (by decide +kernel)).1 (by decide +kernel)),
   ran ((both (both ((h wit9 0 fx y0 0 (by decide +kernel)).2.2.2.2.2.2.2.1)) (by decide +kernel)).2 (by decide +kernel)),
   ran ((both ((h wit1 0 fx y0 0 (by decide +kernel)).2.2.2.2.2.2.2.2.1) (by decide +kernel)).1 (by decide +kernel)),
   ran ((both ((h wit10 0 fx y0 0 (by decide +kernel)).2.2.2.2.2.2.2.2.1) (by decide +kernel)).2 (by decide +kernel)),
   ran (both ((h wit10 0 fx y0 0 (by decide +kernel)).2.2.2.2.2.2.2.2.2 1 123456) (by decide +kernel))⟩

end TimeSync

/-! ### Launches -/

namespace Launches

def N : SlotIdx := 3
def actw (a sc : Nat) (inst : Nat := 0) (ps : Nat := 0) (cmd : Nat := 0) (h : Nat := 0) : Word := wv [(Fld.TIME_LAUNCH_ACT_ACTION, a), (Fld.TIME_LAUNCH_ACT_SCOPE, sc), (Fld.TIME_LAUNCH_ACT_PART, 0), (Fld.TIME_LAUNCH_ACT_CTX, 0), (Fld.TIME_LAUNCH_ACT_INSTAR, inst), (Fld.TIME_LAUNCH_ACT_HANDLE, h), (Fld.TIME_LAUNCH_ACT_COMBS, 1), (Fld.TIME_LAUNCH_ACT_PSTATE, ps)]
def lD (a sc stt t now : Nat) (f : LaunchSt → LaunchSt) (m : List (Nat × Word) := []) (g : Dev → Dev := id) (inst : Nat := 0) (ps : Nat := 0) (kept : List Verdict := []) : Dev :=
  g { svDev ([(Reg.TIME_LAUNCH_ACT N, actw a sc inst ps), (Reg.TIME_LAUNCH_STAT N, wv [(Fld.TIME_LAUNCH_STAT_STATE, stt)]), (Reg.TIME_LAUNCH_T N, BitVec.ofNat 64 t), (Reg.TIME_LAUNCH_ID N, 55), (Reg.TIME_SYSTIME, BitVec.ofNat 64 now)] ++ m) [] Serving.zero with
    ps := 40 * ms, tim := { TimeSt.zero with launch := [(N, f LaunchSt.zero)], kept := kept }, lnk := { Links.zero with rx := rxOf 9 }, fab := { Fabric.zero with combMap := [(0, 1)], seqs := [(2, { SeqSt.zero with on := true, wait := .launch 7 3 })] } }
def vd (rdy : Bool) : Verdict := ⟨55, rdy, 9, 0x1125, 9, 10^9, 0⟩
def vp (v : Verdict) := frp 0x60 9 8 5 0 0 0 0 (verdictBytes v)
def wit1 : State := st (lD 3 0 0 5000 100 id)
def wit2 : State := st (lD 3 0 2 5000 100 id)
def wit3 : State := st (lD 3 0 0 5000 10000 id)
def wit4 : State := st (lD 3 0 0 5000 100 id)
def wit5 : State := st (lD 3 1 0 5000 100 id [] id 0 0 [vd false])
def nn := fun (l : LaunchSt) => { l with nodes := [8, 9] }
def wit6 : State := st (lD 3 1 2 500000 100 nn)
def wit7 : State := st (lD 3 1 2 500000 400000 nn)
def wit8 : State := st (lD 3 1 2 500000 400000 nn [] fun d => { d with lnk := { d.lnk with lead := some 0 } })
def slp : Nat × Word := (Reg.CLK_COMB_PS 0, wv [(Fld.CLK_COMB_PS_STATE, 1)])
def wit9 : State := st (lD 1 0 2 5000 100 id [slp])
def moR (stt : Nat) (sv : Nat) : List (Nat × Word) := [(Reg.MOLT_STAT 0, wv [(Fld.MOLT_STAT_ACTIVE_VALID, 1), (Fld.MOLT_STAT_SHADOW_INSTAR, 1), (Fld.MOLT_STAT_SHADOW_VALID, sv), (Fld.MOLT_STAT_STATE, stt), (Fld.MOLT_STAT_GEN, 255)])]
def moImg (d : Dev) : Dev := { d with mem := memAt imgA (imgBytes 2 1 1 [instarSec 0 [], instarSec 1 [rawRec 1 0 1 0 0 setupPl]]), img := { d.img with imgs := [(0, some theImg)], molts := [(0, { Molt.zero with held := some 3 })] } }
def wit10 : State := st (lD 1 0 2 5000 100 id (moR 0 0) moImg 1)
def wit11 : State := st (lD 1 0 2 5000 5100 id (moR 0 1) moImg 1)
def slD (m : List (Nat × Word) := []) : Dev := lD 1 0 2 5000 100 id ([(Reg.PWR_CAP, wv [(Fld.PWR_CAP_CAP, 500)])] ++ m) fun d => { d with bist := { d.bist with slice := some ⟨0, 1⟩ } }
def wit13 : State := st slD

theorem test_LaunchesAreArmedAndFire (h : Obligations.LaunchesAreArmedAndFire) :
    Ran (.launchArm 2 N (actw 3 0)) wit1 ∧
    Ran (.launchCancel 2 N (actw 3 0)) wit1 ∧
    Ran (.launchArm 1 N (actw 3 0)) wit2 ∧
    Ran (.launchArm 1 N (actw 3 0)) wit3 ∧
    Ran (.launchArm 1 N (actw 3 1)) wit5 ∧
    Ran (.launchArm 1 N (actw 3 0)) wit4 ∧
    Ran (.launchCancel 1 N (actw 3 0)) wit2 ∧
    Ran (.launchCancel 1 N (actw 3 0)) wit3 ∧
    Ran (.launchCancel 1 N (actw 3 1)) wit6 ∧
    Ran (.launchCancel 1 N (actw 3 1)) wit7 ∧
    Ran (.launchRefuse (vp (vd true))) wit6 ∧
    Ran (.launchRefuse (vp (vd false))) wit7 ∧
    Ran (.launchRefuse (vp (vd true))) wit1 ∧
    Ran (.verdictExpiry) wit1 ∧
    Ran (.launchPreload N) wit13 ∧
    Ran (.launchPreload N) wit9 ∧
    Ran (.launchPreload N) wit10 ∧
    Ran (.launchGuard N) wit11 ∧
    Ran (.launchGuard N) wit7 ∧
    Ran (.launchGuard N) wit8 :=
  ⟨ran (((both ((h.1 wit1 2 N (actw 3 0)).1) (by decide +kernel)).1 (by decide +kernel)).1),
   ran (((both ((h.1 wit1 2 N (actw 3 0)).1) (by decide +kernel)).1 (by decide +kernel)).2),
   ran (both ((both ((h.1 wit2 1 N (actw 3 0)).1) (by decide +kernel)).2.1) (by decide +kernel)),
   ran (both (both (both ((both ((h.1 wit3 1 N (actw 3 0)).1) (by decide +kernel)).2.2.1 cConfig 0x1121 3))) (by decide +kernel)),
   ran (both (both (both ((both ((h.1 wit5 1 N (actw 3 1)).1) (by decide +kernel)).2.2.2 (vd false)))) (by decide +kernel)),
   ran (both (both (both (both (both ((h.1 wit4 1 N (actw 3 0)).2.1))))) (by decide +kernel)),
   ran (both (both (both (both ((h.1 wit2 1 N (actw 3 0)).2.2.1)))) (by decide +kernel)),
   ran (both (both ((h.1 wit3 1 N (actw 3 0)).2.2.2.1)) (by decide +kernel)),
   ran (both (both (both (both ((h.1 wit6 1 N (actw 3 1)).2.2.2.2.1)))) (by decide +kernel)),
   ran (both (both (both (both (both ((h.1 wit7 1 N (actw 3 1)).2.2.2.2.2.1))))) (by decide +kernel)),
   ran (both (((h.1 wit6 1 N (actw 3 1)).2.2.2.2.2.2.1 (vp (vd true)) (by decide +kernel)).1 3) (by decide +kernel)),
   ran (both (both (((h.1 wit7 1 N (actw 3 1)).2.2.2.2.2.2.1 (vp (vd false)) (by decide +kernel)).2.1 3)) (by decide +kernel)),
   ran (((h.1 wit1 2 N (actw 3 0)).2.2.2.2.2.2.1 (vp (vd true)) (by decide +kernel)).2.2 (by decide +kernel)),
   ran ((h.1 wit1 2 N (actw 3 0)).2.2.2.2.2.2.2.1),
   ran ((both (both ((h.1 wit13 1 N (actw 3 1)).2.2.2.2.2.2.2.2.1)) (by decide +kernel)).1 (by decide +kernel)),
   ran (both (both (both (both ((both (both ((h.1 wit9 1 N (actw 3 1)).2.2.2.2.2.2.2.2.1)) (by decide +kernel)).2.1 0)))) (by decide +kernel)),
   ran (both (both (both (both (both (both ((both (both ((h.1 wit10 1 N (actw 3 1)).2.2.2.2.2.2.2.2.1)) (by decide +kernel)).2.2 theImg)))))) (by decide +kernel)),
   ran (both ((both (both ((h.1 wit11 1 N (actw 3 1)).2.2.2.2.2.2.2.2.2)) (by decide +kernel)).1) (by decide +kernel)),
   ran (both ((both (both ((h.1 wit7 1 N (actw 3 1)).2.2.2.2.2.2.2.2.2)) (by decide +kernel)).2.1) (by decide +kernel)),
   ran ((both (both ((h.1 wit8 1 N (actw 3 1)).2.2.2.2.2.2.2.2.2)) (by decide +kernel)).2.2 cConfig 0x1123 (3 + 2 * 65536) (by decide +kernel))⟩

end Launches

/-! ### Fires -/

namespace Fires

def N : SlotIdx := 3
def actw (a sc : Nat) (inst : Nat := 0) (ps : Nat := 0) (cmd : Nat := 0) (h : Nat := 0) : Word := wv [(Fld.TIME_LAUNCH_ACT_ACTION, a), (Fld.TIME_LAUNCH_ACT_SCOPE, sc), (Fld.TIME_LAUNCH_ACT_PART, 0), (Fld.TIME_LAUNCH_ACT_CTX, 0), (Fld.TIME_LAUNCH_ACT_INSTAR, inst), (Fld.TIME_LAUNCH_ACT_HANDLE, h), (Fld.TIME_LAUNCH_ACT_COMBS, 1), (Fld.TIME_LAUNCH_ACT_PSTATE, ps)]
def lD (a sc stt t now : Nat) (f : LaunchSt → LaunchSt) (m : List (Nat × Word) := []) (g : Dev → Dev := id) (inst : Nat := 0) (ps : Nat := 0) (kept : List Verdict := []) : Dev :=
  g { svDev ([(Reg.TIME_LAUNCH_ACT N, actw a sc inst ps), (Reg.TIME_LAUNCH_STAT N, wv [(Fld.TIME_LAUNCH_STAT_STATE, stt)]), (Reg.TIME_LAUNCH_T N, BitVec.ofNat 64 t), (Reg.TIME_LAUNCH_ID N, 55), (Reg.TIME_SYSTIME, BitVec.ofNat 64 now)] ++ m) [] Serving.zero with
    ps := 40 * ms, tim := { TimeSt.zero with launch := [(N, f LaunchSt.zero)], kept := kept }, lnk := { Links.zero with rx := rxOf 9 }, fab := { Fabric.zero with combMap := [(0, 1)], seqs := [(2, { SeqSt.zero with on := true, wait := .launch 7 3 })] } }
def slp : Nat × Word := (Reg.CLK_COMB_PS 0, wv [(Fld.CLK_COMB_PS_STATE, 1)])
def moR (stt : Nat) (sv : Nat) : List (Nat × Word) := [(Reg.MOLT_STAT 0, wv [(Fld.MOLT_STAT_ACTIVE_VALID, 1), (Fld.MOLT_STAT_SHADOW_INSTAR, 1), (Fld.MOLT_STAT_SHADOW_VALID, sv), (Fld.MOLT_STAT_STATE, stt), (Fld.MOLT_STAT_GEN, 255)])]
def moImg (d : Dev) : Dev := { d with mem := memAt imgA (imgBytes 2 1 1 [instarSec 0 [], instarSec 1 [rawRec 1 0 1 0 0 setupPl]]), img := { d.img with imgs := [(0, some theImg)], molts := [(0, { Molt.zero with held := some 3 })] } }
def gd := fun (l : LaunchSt) => { l with guarded := true }
def shC : Cell := { Cell.zero with shadow := [setup0], gen := 3 }
def moC (d : Dev) : Dev := let d := moImg d; { d with fab := { d.fab with cells := [(0, shC)] } }
def wit1 : State := st (lD 1 0 lsHeld 5000 5100 gd (moR 4 1) moC 1)
def wit2 : State := st (lD 5 0 lsHeld 5000 5100 gd (moR 4 1) moC 1)
def run (n : Nat) : Nat × Word := (Reg.STEP_STAT 0, wv [(Fld.STEP_STAT_STATE, n)])
def wit3 : State := st (lD laStart 0 lsReady 5000 5100 gd [run 0])
def cur : Nat × Word := (Reg.SCHED_STAT 0, wv [(Fld.SCHED_STAT_CUR_VALID, 1), (Fld.SCHED_STAT_CUR, 1)])
def wit5 : State := st (lD laStart 0 lsReady 5000 5100 gd [run 1, cur, (Reg.STEP_PHASE 1, wv [(Fld.STEP_PHASE_PHASE, 1)])])
def gg : Geo := ((lD laStart 0 lsReady 5000 5100 gd [run 1]).geo 0 0).getD ⟨0,0,0,0,0,0,0,0,0,0⟩
def sv0 : Serving := { Serving.zero with prompts := [(2, [1,2,3,4,5])] }
def stD (a : Nat) := lD a 0 lsReady 5000 5100 gd [run 1] fun d => { d with srv := { sv0 with att := [(0, { Attempt.zero with epoch := 9 })] }, mem := d.mem ++ memAt (reqWork 2) (goodRq ++ rqStat 2 0), sch := { Sched.zero with resident := [(0, 1)] } }
def wit6 : State := st (stD laStart)
def wit8 : State := st (lD laPower 0 lsReady 5000 5100 gd [slp] id 0 2)
def wit9 : State := st (lD laPower 0 lsReady 5000 5100 gd [] id 0 1)
def wit10 : State := st (lD laPower 0 lsReady 5000 5100 gd [slp] (fun d => { d with bist := { d.bist with slice := some ⟨0, 1⟩ } }) 0 2)

theorem test_LaunchesAreArmedAndFire (h : Obligations.LaunchesAreArmedAndFire) :
    Ran (.launchMolt N) wit1 ∧
    Ran (.launchModelSwitch N) wit2 ∧
    Ran (((laStart, Instr.launchStepStart N) : Nat × Instr).snd) wit3 ∧
    Ran (((laStart, Instr.launchStepStart N) : Nat × Instr).snd) wit5 ∧
    Ran (((laStart, Instr.launchStepStart N) : Nat × Instr).snd) wit6 ∧
    Ran (.launchPowerState N) wit8 ∧
    Ran (.launchPowerState N) wit9 ∧
    Ran (.launchPowerState N) wit10 ∧
    Ran (((laMolt, lsHeld, Instr.launchMolt N) : Nat × Nat × Instr).snd.snd) wit2 :=
  ⟨ran ((h.2 wit1 N).1 theImg (by decide +kernel) ⟨by decide +kernel, nodup_of_rises (a := 0) (by decide +kernel), by decide +kernel⟩ (by decide +kernel)),
   ran ((h.2 wit2 N).2.1 theImg (by decide +kernel) ⟨by decide +kernel, nodup_of_rises (a := 0) (by decide +kernel), by decide +kernel⟩ (by decide +kernel)),
   ran (both ((both ((h.2 wit3 N).2.2.1 (laStart, Instr.launchStepStart N)) (by decide +kernel)).1) (by decide +kernel)),
   ran (both (both ((both ((h.2 wit5 N).2.2.1 (laStart, Instr.launchStepStart N)) (by decide +kernel)).2.1)) (by decide +kernel)),
   ran (both (both (both (both (both (both (both (both (both (both (both ((both ((h.2 wit6 N).2.2.1 (laStart, Instr.launchStepStart N)) (by decide +kernel)).2.2 gg svImg))))))))))) (by decide +kernel)),
   ran (both (both ((both (both ((h.2 wit8 N).2.2.2.1 (by decide +kernel) 0)) (by decide +kernel)).1)) (by decide +kernel)),
   ran (both (both ((both (both ((h.2 wit9 N).2.2.2.1 (by decide +kernel) 0)) (by decide +kernel)).2)) (by decide +kernel)),
   ran (both (both ((h.2 wit10 N).2.2.2.2.1)) (by decide +kernel)),
   ran (both ((h.2 wit2 N).2.2.2.2.2 (laMolt, lsHeld, Instr.launchMolt N)) (by decide +kernel))⟩

end Fires

/-! ### Governor -/

namespace Governor

def smp (n : Nat) : PwrSample := ⟨List.replicate 16 (.ofNat 32 n), List.replicate 16 (.ofNat 32 n), List.replicate 32 (.ofNat 32 n), .ofNat 32 n, 0, 0, 5, 5, 5, [1,2,3], [], []⟩
def pD (f : PwrSt → PwrSt) (m : List (Nat × Word)) (g : Dev → Dev := id) : Dev := g { onDev m with ps := 100 * second, pwr := f PwrSt.zero }
def idp := fun (w : PwrSt) => w
def exR : List (Nat × Word) := [(Reg.SCHED_STAT 0, wv [(Fld.SCHED_STAT_CUR_VALID, 1)]), (Reg.STEP_STAT 0, wv [(Fld.STEP_STAT_STATE, 1)]), (Reg.STEP_PHASE 0, wv [(Fld.STEP_PHASE_PHASE, 1)]), (Reg.SCHED_CTX 0, wv [(Fld.SCHED_CTX_ENABLE, 1)])]
def mws : List (BitVec 32) := List.replicate 8 1000
def wit1 : State := st (pD idp [])
def wit3 : State := st (pD (fun w => { w with sumRail := [(3, 40000)], ticks := 4, droop := [(0, 5)] }) [(Reg.CLK_PLL_STAT 0, wv [(Fld.CLK_PLL_STAT_CUR_MHZ, 1000)])])
def wit4 : State := st (pD (fun w => { w with droop := [(0, 100 * second)] }) [(Reg.BOOT_STAT, 0)])
def wit5 : State := st (pD (fun w => { w with overAt := some 5, ceil := [(2 * 17, ⟨0, none, 0⟩)] }) exR)
def wit6 : State := st (pD (fun w => { w with underAt := some 5 }) [(Reg.PWR_STAT, wv [(Fld.PWR_STAT_EMERG, 1)])])
def wit7 : State := st (pD idp [])
def wit8 : State := st (pD (fun w => { w with extStretch := [0], beatAt := 100 * second }) [(Reg.PWR_STAT, wv [(Fld.PWR_STAT_EXT_IN, 1), (Fld.PWR_STAT_SUPERVISED, 1)]), (Reg.CLK_PLL_STAT 0, wv [(Fld.CLK_PLL_STAT_CUR_MHZ, 1000)])])
def wit9 : State := st (pD (fun w => { w with extStretch := [0], ceil := [(4 * 17, ⟨0, none, 0⟩)], announced := [4], lastLimit := [(4, some 5)] }) [(Reg.PWR_STAT, wv [(Fld.PWR_STAT_SUPERVISED, 1)]), (Reg.CLK_PLL_STAT 0, wv [(Fld.CLK_PLL_STAT_CUR_MHZ, 1000)]), (Reg.PART_STAT 0, wv [(Fld.PART_STAT_STATE, 3)])])
def wit10 : State := st (pD (fun w => { w with ceil := [(3 * 17, ⟨0, none, 0⟩)] }) [(Reg.STEP_EVT_CFG 0, wv [(Fld.STEP_EVT_CFG_LOG2N, 5)])])
def wit11 : State := st (pD (fun w => { w with announced := [4], lastLimit := [(4, some (100 * second))] }) [])
def wit12 : State := st (pD (fun w => { w with droop := [(0, 100 * second)] }) [])

theorem test_ThrottleAndAlarms (h : Obligations.ThrottleAndAlarms) :
    Ran (.throtInFall) wit7 ∧
    Ran (.throtInRise) wit8 ∧
    Ran (.throtInRise) wit7 ∧
    Ran (.extStretchEnd 0) wit8 ∧
    Ran (.extStretchEnd 0) wit9 ∧
    Ran (.pwrHbBeat 0) wit7 ∧
    Ran (.pwrHbBeat 1) wit8 ∧
    Ran (.safeCapTimeout) wit9 ∧
    Ran (.safeCapTimeout) wit8 ∧
    Ran (.tempPoll [5, 1500] [5]) wit8 ∧
    Ran (.tempPoll [5, 1900] [5]) wit7 ∧
    Ran (.reasonAnnounce 2) wit12 ∧
    Ran (.reasonAnnounce 3) wit10 ∧
    Ran (.reasonAnnounce 4) wit11 ∧
    Ran (.fixedModeWrite 1 0 20) wit9 ∧
    Ran (.fixedModeWrite 0 0 0xFFFFFFFFFFFFFFFF) wit7 ∧
    Ran (.fixedModeWrite 1 0 20) wit8 :=
  ⟨ran ((h wit7 0 0 0 0xFFFFFFFFFFFFFFFF).1),
   ran ((h wit8 0 1 0 20).2.1 (by decide +kernel)),
   ran ((h wit7 0 0 0 0xFFFFFFFFFFFFFFFF).2.2.1 (by decide +kernel)),
   ran (((h wit8 0 1 0 20).2.2.2.1 (by decide +kernel)).1 (by decide +kernel)),
   ran (((h wit9 0 1 0 20).2.2.2.1 (by decide +kernel)).2 (by decide +kernel)),
   ran (both (both ((h wit7 0 0 0 0xFFFFFFFFFFFFFFFF).2.2.2.2.1)) (by decide +kernel)),
   ran ((h wit8 0 1 0 20).2.2.2.2.2.1 (by decide +kernel)),
   ran ((both ((h wit9 0 1 0 20).2.2.2.2.2.2.1) (by decide +kernel)).1 (by decide +kernel)),
   ran ((both ((h wit8 0 1 0 20).2.2.2.2.2.2.1) (by decide +kernel)).2 (by decide +kernel)),
   ran (both ((both ((h wit8 0 1 0 20).2.2.2.2.2.2.2.1 [5, 1500] [5]) (by decide +kernel)).1) (by decide +kernel)),
   ran (both ((both ((h wit7 0 0 0 0xFFFFFFFFFFFFFFFF).2.2.2.2.2.2.2.1 [5, 1900] [5]) (by decide +kernel)).2) (by decide +kernel)),
   ran (both (both ((both (both ((h wit12 0 0 0 20).2.2.2.2.2.2.2.2.1 2)) (by decide +kernel)).1)) (by decide +kernel)),
   ran (both (both ((both (both ((h wit10 0 0 0 200).2.2.2.2.2.2.2.2.1 3)) (by decide +kernel)).2.1)) (by decide +kernel)),
   ran ((both (both ((both (both ((h wit11 0 0 0 20).2.2.2.2.2.2.2.2.1 4)) (by decide +kernel)).2.2 (100 * second))) (by decide +kernel)).2 (by decide +kernel)),
   ran (both (((h wit9 0 1 0 20).2.2.2.2.2.2.2.2.2 (by decide +kernel)).1) (by decide +kernel)),
   ran (both (((h wit7 0 0 0 0xFFFFFFFFFFFFFFFF).2.2.2.2.2.2.2.2.2 (by decide +kernel)).2.1) (by decide +kernel)),
   ran (both (((h wit8 0 1 0 20).2.2.2.2.2.2.2.2.2 (by decide +kernel)).2.2) (by decide +kernel))⟩

theorem test_PowerIsGoverned (h : Obligations.PowerIsGoverned) :
    Ran (.governorTick (smp 100000)) wit1 ∧
    Ran (.calibration mws 9000) wit1 ∧
    Ran (.governorTick (smp 100)) wit4 ∧
    Ran (.calibration mws 9000) wit4 ∧
    Ran (.droopDetect 0) wit1 ∧
    Ran (.droopDetect 3) wit5 ∧
    Ran (.droopRecover 0) wit3 ∧
    Ran (.droopRecover 0) wit4 ∧
    Ran (.currentLimit 3) wit1 ∧
    Ran (.emergencyAbort) wit5 ∧
    Ran (.emergencyAbort) wit1 ∧
    Ran (.emergencyHoldEnd) wit6 :=
  ⟨ran ((h wit1 (smp 100000) 0 0 3).1 (by decide +kernel)),
   ran ((h wit1 (smp 100000) 0 0 3).2.1 mws 9000 (by decide +kernel)),
   ran (((h wit4 (smp 100) 0 0 3).2.2.1 (by decide +kernel)).1),
   ran (((h wit4 (smp 100) 0 0 3).2.2.1 (by decide +kernel)).2 mws 9000),
   ran (both ((h wit1 (smp 100000) 0 0 3).2.2.2.1) (by decide +kernel)),
   ran ((h wit5 (smp 100) 0 3 3).2.2.2.2.1 (by decide +kernel)),
   ran (((h wit3 (smp 100) 0 0 3).2.2.2.2.2.1 (0, 5) (by decide +kernel)).1 (by decide +kernel)),
   ran (((h wit4 (smp 100) 0 0 3).2.2.2.2.2.1 (0, 100 * second) (by decide +kernel)).2 (by decide +kernel)),
   ran ((both (both ((h wit1 (smp 100000) 0 0 3).2.2.2.2.2.2.1)) (by decide +kernel)).1),
   ran (both (both ((both (both ((h wit5 (smp 100) 0 3 3).2.2.2.2.2.2.1)) (by decide +kernel)).2 5)) (by decide +kernel)),
   ran ((h wit1 (smp 100000) 0 0 3).2.2.2.2.2.2.2.1 (by decide +kernel)),
   ran ((both ((h wit6 (smp 100) 0 3 3).2.2.2.2.2.2.2.2 5) (by decide +kernel)).1 (by decide +kernel))⟩

end Governor

/-! ### Alarms -/

namespace Alarms

def smp (n : Nat) : PwrSample := ⟨List.replicate 16 (.ofNat 32 n), List.replicate 16 (.ofNat 32 n), List.replicate 32 (.ofNat 32 n), .ofNat 32 n, 0, 0, 5, 5, 5, [1,2,3], [], []⟩
def pD (f : PwrSt → PwrSt) (m : List (Nat × Word)) (g : Dev → Dev := id) : Dev := g { onDev m with ps := 100 * second, pwr := f PwrSt.zero }
def wit1 : State := st (pD (fun w => { w with announced := [4], lastLimit := [(4, some 5)] }) [])
def wit2 : State := st (pD (fun w => { w with underAt := some (100 * second) }) [(Reg.PWR_STAT, wv [(Fld.PWR_STAT_EMERG, 1)])])

theorem test_ThrottleAndAlarms (h : Obligations.ThrottleAndAlarms) :
    Ran (.reasonAnnounce 4) wit1 :=
  ran ((both (both ((both (both ((h wit1 0 0 0 20).2.2.2.2.2.2.2.2.1 4)) (by decide +kernel)).2.2 5)) (by decide +kernel)).1 (by decide +kernel))

theorem test_PowerIsGoverned (h : Obligations.PowerIsGoverned) :
    Ran (.emergencyHoldEnd) wit2 :=
  ran ((both ((h wit2 (smp 100) 0 3 3).2.2.2.2.2.2.2.2 (100 * second)) (by decide +kernel)).2 (by decide +kernel))

end Alarms

/-! ### Boots -/

namespace Boots

def rD (g : Dev → Dev) (m : List (Nat × Word)) : Dev := g { onDev m with ps := 100 * second }
def s1 := rD id []
def wit1 : State := st s1
def wit2 : State := st (rD (fun d => { d with boot := { d.boot with pgAon := false } }) [])
def op1 : PsrOp := ⟨true, false, [(40, 5)]⟩
def wit3 : State := st (rD (fun d => { d with psr := { d.psr with ops := [op1], words := [(41, 3)] } }) [])
def wit4 : State := st (rD (fun d => { d with boot := { d.boot with mainFell := true, pgMain := false } }) [])
def wit5 : State := st (rD (fun d => { d with boot := { d.boot with pgMain := false } }) [(Reg.BOOT_STAT, wv [(Fld.BOOT_STAT_STAGE, 6), (Fld.BOOT_STAT_WAIT_MAIN, 1)])])
def wit6 : State := st (rD (fun d => { d with boot := { d.boot with backoffAt := some 5 } }) [pst 3 3])
def wit7 : State := st (rD (fun d => { d with boot := { d.boot with backoffAt := some (101 * second) } }) [])
def bst (n : Nat) (more : List (Fld × Nat) := []) : Nat × Word := (Reg.BOOT_STAT, wv ([(Fld.BOOT_STAT_STAGE, n)] ++ more))
def bD (n : Nat) (m : List (Nat × Word)) (g : Dev → Dev := id) : Dev := rD g ([bst n, (Reg.GLB_LEVEL, 0)] ++ m)
def so : StageOut := ⟨0, true, [], [], [some .gib128, none, some .gib64, none, none, none, none, none], []⟩
def wit8 : State := st (bD 1 [])
def wit9 : State := st (bD 1 [])
def wit10 : State := st (bD 2 [])
def wit12 : State := st (bD 3 [] fun d => { d with psr := { d.psr with words := [(0, wv [(Fld.PSR_NODE_VALID, 1), (Fld.PSR_NODE_NODE_ID, 77), (Fld.PSR_NODE_ROLE, 2)])] } })
def wit13 : State := st (bD 3 [])
def wit14 : State := st (bD 3 [])
def netE : Store Word := [(5, wv [(Fld.PSR_BOOT_POLICY_NETBOOT, 1)])]
def roleR : Nat × Word := (Reg.LNK_HP_STAT 1, wv [(Fld.LNK_HP_STAT_STATE, 3), (Fld.LNK_HP_STAT_ROLES, 7)])
def wit16 : State := st (bD 4 [roleR] fun d => { d with boot := { d.boot with eff := netE } })
def wit17 : State := st (bD 6 [])
def wit18 : State := st (bD 7 [])
def wit20 : State := st (bD 8 [])
def wit21 : State := st (bD 9 [(Reg.GLB_NODE, wv [(Fld.GLB_NODE_VALID, 1), (Fld.GLB_NODE_NODE_ID, 8), (Fld.GLB_NODE_ROLE, 2)])])

theorem test_ResetsAndPower (h : Obligations.ResetsAndPower) :
    Ran (.powerOn) wit2 ∧
    Ran (.powerOn) wit1 ∧
    Ran (.porstNLow) wit1 ∧
    Ran (.porstN) wit1 ∧
    Ran (.pgAonFall) wit1 ∧
    Ran (.pgMainFall) wit1 ∧
    Ran (.pgMainFall) wit4 ∧
    Ran (.pgMainFall) wit2 ∧
    Ran (.pgMainRise) wit2 ∧
    Ran (.railUndervoltage 3) wit1 ∧
    Ran (.pgMainRise) wit4 ∧
    Ran (.pgMainRise) wit5 ∧
    Ran (.mgmtWatchdog) wit1 ∧
    Ran (.backoffEnd) wit6 ∧
    Ran (.backoffEnd) wit7 ∧
    Ran (.reset 0) wit1 ∧
    Ran (.reset 1) wit3 ∧
    Ran (.retryNow 1) wit3 ∧
    Ran (.retryNow 0) wit6 ∧
    Ran (.retryNow 0) wit1 :=
  ⟨ran (both ((h wit2 0 3).1) (by decide +kernel)),
   ran ((h wit1 0 3).2.1 (by decide +kernel)),
   ran (((h wit1 0 3).2.2.1 (by decide +kernel)).1),
   ran (((h wit1 0 3).2.2.1 (by decide +kernel)).2),
   ran ((h wit1 0 3).2.2.2.1 (by decide +kernel)),
   ran ((h wit1 0 3).2.2.2.2.1 (by decide +kernel)),
   ran ((h wit4 0 3).2.2.2.2.2.1 (by decide +kernel)),
   ran (((h wit2 0 3).2.2.2.2.2.2.1 (by decide +kernel)).1),
   ran (((h wit2 0 3).2.2.2.2.2.2.1 (by decide +kernel)).2),
   ran (both ((h wit1 0 3).2.2.2.2.2.2.2.1) (by decide +kernel)),
   ran (both (both ((h wit4 0 3).2.2.2.2.2.2.2.2.1)) (by decide +kernel)),
   ran (both (both ((h wit5 0 3).2.2.2.2.2.2.2.2.2.1)) (by decide +kernel)),
   ran (both (both (both (both (both ((h wit1 0 3).2.2.2.2.2.2.2.2.2.2.1))))) (by decide +kernel)),
   ran (both (((h wit6 0 3).2.2.2.2.2.2.2.2.2.2.2.1 5 (by decide +kernel)).1) (by decide +kernel)),
   ran (((h wit7 0 3).2.2.2.2.2.2.2.2.2.2.2.1 (101 * second) (by decide +kernel)).2 (by decide +kernel)),
   ran ((h wit1 0 3).2.2.2.2.2.2.2.2.2.2.2.2.1 (by decide +kernel)),
   ran (((h wit3 1 3).2.2.2.2.2.2.2.2.2.2.2.2.2.1 (by decide +kernel)).1),
   ran (((h wit3 1 3).2.2.2.2.2.2.2.2.2.2.2.2.2.1 (by decide +kernel)).2),
   ran (both (both ((h wit6 0 3).2.2.2.2.2.2.2.2.2.2.2.2.2.2.1)) (by decide +kernel)),
   ran (both (both ((h wit1 0 3).2.2.2.2.2.2.2.2.2.2.2.2.2.2.2)) (by decide +kernel))⟩

theorem test_BootProceeds (h : Obligations.BootProceeds) :
    Ran (.bootStageEnd ({ so with code := 3 })) wit9 ∧
    Ran (.bootStageEnd so) wit8 ∧
    Ran (.bootStageEnd so) wit10 ∧
    Ran (.bootStageEnd so) wit12 ∧
    Ran (.bootStageEnd ({ so with bad := [40] })) wit13 ∧
    Ran (.bootStageEnd ({ so with bad := [7, 8] })) wit14 ∧
    Ran (.bootStageEnd so) wit16 ∧
    Ran (.bootStageEnd so) wit17 ∧
    Ran (.bootStageEnd so) wit18 ∧
    Ran (.bootStageEnd so) wit20 ∧
    Ran (.bootStageEnd so) wit21 ∧
    Ran (.continueBoot 0) wit17 :=
  ⟨ran (both ((h wit9 ({ so with code := 3 }) 0).1) (by decide +kernel)),
   ran ((both ((h wit8 so 0).2.2.2.1) (by decide +kernel)).1 (by decide +kernel)),
   ran (both ((both ((h wit10 so 0).2.2.2.1) (by decide +kernel)).2.1) (by decide +kernel)),
   ran ((both ((both ((h wit12 so 0).2.2.2.1) (by decide +kernel)).2.2.1) (by decide +kernel)).1 (by decide +kernel)),
   ran (both (both (both ((both ((both ((h wit13 ({ so with bad := [40] }) 0).2.2.2.1) (by decide +kernel)).2.2.1) (by decide +kernel)).2.1 40))) (by decide +kernel)),
   ran (both ((both ((both ((h wit14 ({ so with bad := [7, 8] }) 0).2.2.2.1) (by decide +kernel)).2.2.1) (by decide +kernel)).2.2) (by decide +kernel)),
   ran (both (both ((both (((both ((h wit16 so 0).2.2.2.1) (by decide +kernel)).2.2.2.1 (by decide +kernel)).2.2) (by decide +kernel)).2 1 [])) (by decide +kernel)),
   ran ((both ((h wit17 so 0).2.2.2.1) (by decide +kernel)).2.2.2.2.1 (by decide +kernel)),
   ran (both ((both ((h wit18 so 0).2.2.2.1) (by decide +kernel)).2.2.2.2.2.1) (by decide +kernel)),
   ran ((both ((h wit20 so 0).2.2.2.1) (by decide +kernel)).2.2.2.2.2.2.2.1 (by decide +kernel)),
   ran (both ((both ((h wit21 so 0).2.2.2.1) (by decide +kernel)).2.2.2.2.2.2.2.2) (by decide +kernel)),
   ran (both (both ((h wit17 so 0).2.2.2.2.2.1)) (by decide +kernel))⟩

end Boots

/-! ### Netboots -/

namespace Netboots

def rD (g : Dev → Dev) (m : List (Nat × Word)) : Dev := g { onDev m with ps := 100 * second }
def bst (n : Nat) (more : List (Fld × Nat) := []) : Nat × Word := (Reg.BOOT_STAT, wv ([(Fld.BOOT_STAT_STAGE, n)] ++ more))
def bD (n : Nat) (m : List (Nat × Word)) (g : Dev → Dev := id) : Dev := rD g ([bst n, (Reg.GLB_LEVEL, 0)] ++ m)
def so : StageOut := ⟨0, true, [], [], [some .gib128, none, some .gib64, none, none, none, none, none], []⟩
def roleR : Nat × Word := (Reg.LNK_HP_STAT 1, wv [(Fld.LNK_HP_STAT_STATE, 3), (Fld.LNK_HP_STAT_ROLES, 7)])
def wit2 : State := st (bD 4 [roleR] fun d => { d with boot := { d.boot with eff := [(5, 0)] } })
def nb (f : BootSt → BootSt) := bD 5 [roleR] fun d => { d with boot := f { d.boot with net := some 1, stageAt := 1 } }
def wit4 : State := st (nb id)
def roleR2 : Nat × Word := (Reg.LNK_HP_STAT 2, wv [(Fld.LNK_HP_STAT_STATE, 3), (Fld.LNK_HP_STAT_ROLES, 7)])
def wit5 : State := st (bD 5 [roleR, roleR2] fun d => { d with boot := { d.boot with net := some 1, stageAt := 1 } })
def wit6 : State := st (nb fun b => { b with netUrl := true })
def wit7 : State := st (nb fun b => { b with netUrl := true })
def fwR (sv : Nat) : List (Nat × Word) := [(Reg.BOOT_FW_SRC, 0x8000100000), (Reg.BOOT_FW_LEN, 300), (Reg.BOOT_FW, wv [(Fld.BOOT_FW_SVN, sv)])]
def wit8 : State := st (rD id (fwR 5))
def wit9 : State := st (rD (fun d => { d with mem := memAt 0x8000100000 [1#8,2#8], boot := { d.boot with fwWrite := some ⟨1, 0x8000100000, 300⟩ } }) (fwR 0))
def wit10 : State := st (rD id ((Reg.BOOT_STAT, wv [(Fld.BOOT_STAT_STAGE, 8), (Fld.BOOT_STAT_SOURCE, 3)]) :: fwR 0))

theorem test_BootProceeds (h : Obligations.BootProceeds) :
    Ran (.bootStageTimeout) wit2 ∧
    Ran (.bootStageEnd so) wit8 ∧
    Ran (.bootStageTimeout) wit8 ∧
    Ran (.bootStageEnd so) wit2 ∧
    Ran (.dhcpv6Reply 1 ([116#8, 102#8, 116#8, 112#8, 58#8, 47#8, 47#8] ++ [])) wit4 ∧
    Ran (.tftpData 1 none (BitVec.ofNat 16 ((wit6 : State).dev.boot.netBlock + 1)) (zeros 512)) wit6 ∧
    Ran (.tftpData 1 (some 1000) 0 []) wit6 ∧
    Ran (.tftpData 1 (some 100) 0 []) wit7 ∧
    Ran (.netbootPortTimeout 1) wit5 ∧
    Ran (.netbootPortTimeout 1) wit4 ∧
    Ran (.continueBoot 0) wit2 ∧
    Ran (.fwWrite 0 true) wit2 ∧
    Ran (.arbRaise 0) wit10 ∧
    Ran (.fwWriteEnd) wit9 ∧
    Ran (.arbRaise 0) wit8 ∧
    Ran (.arbRaise 0) wit2 :=
  ⟨ran (both (both ((h wit2 so 0).2.1)) (by decide +kernel)),
   ran (((h wit8 so 0).2.2.1 (by decide +kernel)).1),
   ran (((h wit8 so 0).2.2.1 (by decide +kernel)).2),
   ran ((both (((both ((h wit2 so 0).2.2.2.1) (by decide +kernel)).2.2.2.1 (by decide +kernel)).2.2) (by decide +kernel)).1 (by decide +kernel)),
   ran (((h wit4 so 0).2.2.2.2.1 1 (by decide +kernel)).1 [] (by decide +kernel)),
   ran (both (both (both (((h wit6 so 0).2.2.2.2.1 1 (by decide +kernel)).2.1 (zeros 512)))) (by decide +kernel)),
   ran (both ((both (both (((h wit6 so 0).2.2.2.2.1 1 (by decide +kernel)).2.2.2.1 1000)) (by decide +kernel)).1) (by decide +kernel)),
   ran ((both (both (((h wit7 so 0).2.2.2.2.1 1 (by decide +kernel)).2.2.2.1 100)) (by decide +kernel)).2 (by decide +kernel)),
   ran (both (both (((h wit5 so 0).2.2.2.2.1 1 (by decide +kernel)).2.2.2.2.1 2 [])) (by decide +kernel)),
   ran (both (both (((h wit4 so 0).2.2.2.2.1 1 (by decide +kernel)).2.2.2.2.2)) (by decide +kernel)),
   ran ((both ((h wit2 so 0).2.2.2.2.2.2.1) (by decide +kernel)).1 (by decide +kernel)),
   ran ((both ((h wit2 so 0).2.2.2.2.2.2.1) (by decide +kernel)).2.1 true (by decide +kernel)),
   ran ((both ((h wit10 so 0).2.2.2.2.2.2.1) (by decide +kernel)).2.2 (by decide +kernel)),
   ran (both ((h wit9 so 0).2.2.2.2.2.2.2.2.1 ⟨1, 0x8000100000, 300⟩) (by decide +kernel)),
   ran ((both ((h wit8 so 0).2.2.2.2.2.2.2.2.2) (by decide +kernel)).1 (by decide +kernel)),
   ran ((both ((h wit2 so 0).2.2.2.2.2.2.2.2.2) (by decide +kernel)).2 (by decide +kernel))⟩

end Netboots

/-! ### Firmware -/

namespace Firmware

def rD (g : Dev → Dev) (m : List (Nat × Word)) : Dev := g { onDev m with ps := 100 * second }
def so : StageOut := ⟨0, true, [], [], [some .gib128, none, some .gib64, none, none, none, none, none], []⟩
def fw2 : List (Nat × Word) := [(Reg.BOOT_FW_SRC, 0x8800100000), (Reg.BOOT_FW_LEN, 300), (Reg.BOOT_FW, wv [(Fld.BOOT_FW_SVN, 5)])]
def wit1 : State := st (rD id fw2)

theorem test_BootProceeds (h : Obligations.BootProceeds) :
    Ran (.fwWrite 0 true) wit1 :=
  ran (both (both (both (both (both (both (both ((h wit1 so 0).2.2.2.2.2.2.2.1 true))))))) (by decide +kernel))

end Firmware

/-! ### Words -/

namespace Words

def rD (g : Dev → Dev) (m : List (Nat × Word)) : Dev := g { onDev m with ps := 100 * second }
def opN (n : Nat) : PsrOp := ⟨true, false, [(n, 5)]⟩
def pD (ops : List PsrOp) (wear : Store Nat) (m : List (Nat × Word) := []) (told : List Nat := []) : Dev := rD (fun d => { d with psr := { d.psr with ops := ops, wear := wear, told := told } }) m
def wit1 : State := st (pD [] [])
def wit2 : State := st (pD (List.replicate 17 (opN 4)) [])
def wit3 : State := st (pD [opN 4] [(4, 99999)])
def wit4 : State := st (pD [opN 4] [(4, 100000)])
def wit5 : State := st (pD [⟨true, true, [(4, 5), (10, 6)]⟩] [])

theorem test_PersistentWords (h : Obligations.PersistentWords) :
    Ran (.psrWrite 0 4 5) wit1 ∧
    Ran (.psrWrite 0 4 5) wit2 ∧
    Ran (.psrWrite 1 4 5) wit3 ∧
    Ran (.psrOpComplete) wit2 ∧
    Ran (.psrOpComplete) wit4 ∧
    Ran (.psrOpComplete) wit5 ∧
    Ran (.psrOpComplete) wit1 ∧
    Ran (.psrGroupCommit 0 2) wit1 :=
  ⟨ran (both (both ((h wit1 0 4 5 2).1)) (by decide +kernel)),
   ran (both (both ((h wit2 0 4 5 2).2.2.1)) (by decide +kernel)),
   ran ((h wit3 1 4 5 2).2.2.2.1 (by decide +kernel)),
   ran ((both ((h wit2 0 4 5 2).2.2.2.2.1 true (List.replicate 16 (opN 4))) (by decide +kernel)).1 (by decide +kernel)),
   ran ((both ((h wit4 1 4 5 2).2.2.2.2.1 true []) (by decide +kernel)).2 (by decide +kernel)),
   ran (both (both ((h wit5 1 4 5 2).2.2.2.2.2.1 true [(4, 5), (10, 6)] [])) (by decide +kernel)),
   ran ((h wit1 0 4 5 2).2.2.2.2.2.2.1 (by decide +kernel)),
   ran (both (both ((h wit1 0 4 5 2).2.2.2.2.2.2.2.2.2 0)) (by decide +kernel))⟩

end Words

/-! ### Groups -/

namespace Groups

def rD (g : Dev → Dev) (m : List (Nat × Word)) : Dev := g { onDev m with ps := 100 * second }
def pD (ops : List PsrOp) (wear : Store Nat) (m : List (Nat × Word) := []) (told : List Nat := []) : Dev := rD (fun d => { d with psr := { d.psr with ops := ops, wear := wear, told := told } }) m
def gr (l : List (Nat × Nat)) : List (Nat × Word) := l.zipIdx.flatMap fun q => [(Reg.PSR_GRP_IDX q.2, BitVec.ofNat 64 q.1.1), (Reg.PSR_GRP_VAL q.2, BitVec.ofNat 64 q.1.2)]
def wit1 : State := st (pD [] [])
def wit2 : State := st (pD [] [] (gr [(4,5),(10,6)]))
def wit3 : State := st (pD [] [(4, 100000)] (gr [(4,5),(10,6)]))

theorem test_PersistentWords (h : Obligations.PersistentWords) :
    Ran (.psrWrite 0 1 0) wit1 ∧
    Ran (.psrGroupCommit 0 2) wit2 ∧
    Ran (.psrGroupCommit 0 2) wit3 :=
  ⟨ran (both (both ((h wit1 0 1 0 2).2.1)) (by decide +kernel)),
   ran (both (both (both (both (both ((h wit2 0 4 5 2).2.2.2.2.2.2.2.1))))) (by decide +kernel)),
   ran (both (both (both ((h wit3 0 4 5 2).2.2.2.2.2.2.2.2.1))) (by decide +kernel))⟩

end Groups

/-! ### Slices -/

namespace Slices

def bfail : BistFail := ⟨3, 2, none⟩
def capR (c : Nat) : Nat × Word := (Reg.PWR_CAP, wv [(Fld.PWR_CAP_CAP, c)])
def bD (f : BistSt → BistSt) (m : List (Nat × Word)) (g : Dev → Dev := id) : Dev := g { onDev ([(Reg.BIST_CTL, wv [(Fld.BIST_CTL_ENABLE, 1)]), (Reg.CLK_COMB_PS 1, wv [(Fld.CLK_COMB_PS_STATE, 3)])] ++ m) with ps := 100 * second, bist := f BistSt.zero }
def dueR (nx : Nat) (dfr := 0) : Nat × Word := (Reg.BIST_STAT, wv [(Fld.BIST_STAT_DUE, 1), (Fld.BIST_STAT_NEXT, nx), (Fld.BIST_STAT_DEFERRED, dfr)])
def idb := fun (b : BistSt) => b
def wit1 : State := st (bD idb [])
def wit2 : State := st (bD (fun b => { b with nextAt := 101 * second }) [])
def wit3 : State := st (bD idb [dueR 1, capR 500])
def wit4 : State := st (bD idb [dueR 1, capR 0])
def wit5 : State := st (bD idb [dueR 0, capR 500])
def wit6 : State := st (bD (fun b => { b with fellAt := 95 * second }) [dueR 0, capR 0])
def wit7 : State := st (bD (fun b => { b with fellAt := 5 * second }) [dueR 0, capR 0])
def wit8 : State := st (bD idb [dueR 0, capR 500, (Reg.SCHED_STAT 0, wv [(Fld.SCHED_STAT_CUR_VALID, 1)]), (Reg.STEP_STAT 0, wv [(Fld.STEP_STAT_STATE, 1)]), (Reg.STEP_PHASE 0, wv [(Fld.STEP_PHASE_PHASE, 1)])])
def wit9 : State := st (bD (fun b => { b with slice := some ⟨1, 2⟩ }) [])
def wit10 : State := st (bD (fun b => { b with slice := some ⟨1, 2⟩ }) [(Reg.BIST_STAT, wv [(Fld.BIST_STAT_POLICY, 2)]), pst 3 3])

theorem test_SelfTestSlices (h : Obligations.SelfTestSlices) :
    Ran (.sliceDue) wit1 ∧
    Ran (.sliceDue) wit2 ∧
    Ran (.sliceStart) wit3 ∧
    Ran (.sliceStart) wit4 ∧
    Ran (.sliceStart) wit5 ∧
    Ran (.sliceStart) wit6 ∧
    Ran (.sliceStart) wit7 ∧
    Ran (.sliceStart) wit8 ∧
    Ran (.sliceStart) wit1 ∧
    Ran (.sliceSkip) wit1 ∧
    Ran (.sliceSkip) wit4 ∧
    Ran (.sliceEnd none) wit9 ∧
    Ran (.sliceEnd (some bfail)) wit9 ∧
    Ran (.sliceEnd (some bfail)) wit10 ∧
    Ran (.sliceEnd none) wit1 :=
  ⟨ran ((both (both (both ((h wit1 bfail).1))) (by decide +kernel)).1 (by decide +kernel)),
   ran ((both (both (both ((h wit2 bfail).1))) (by decide +kernel)).2 (by decide +kernel)),
   ran (both (both (both ((h wit3 bfail).2.1))) (by decide +kernel)),
   ran (both (both ((h wit4 bfail).2.2.1)) (by decide +kernel)),
   ran (both ((both (both (both (both (both ((h wit5 bfail).2.2.2.1 0))))) (by decide +kernel)).1) (by decide +kernel)),
   ran (both ((both (both (both (both (both ((h wit6 bfail).2.2.2.1 0))))) (by decide +kernel)).2.1) (by decide +kernel)),
   ran (both (both ((both (both (both (both (both ((h wit7 bfail).2.2.2.1 0))))) (by decide +kernel)).2.2)) (by decide +kernel)),
   ran (both ((h wit8 bfail).2.2.2.2.1 0) (by decide +kernel)),
   ran (((h wit1 bfail).2.2.2.2.2.1 (by decide +kernel)).1),
   ran (((h wit1 bfail).2.2.2.2.2.1 (by decide +kernel)).2),
   ran (both (both (both (both ((h wit4 bfail).2.2.2.2.2.2.1)))) (by decide +kernel)),
   ran (both ((both ((h wit9 bfail).2.2.2.2.2.2.2.1 ⟨1, 2⟩) (by decide +kernel)).1) (by decide +kernel)),
   ran (both (both ((both ((h wit9 bfail).2.2.2.2.2.2.2.1 ⟨1, 2⟩) (by decide +kernel)).2.1)) (by decide +kernel)),
   ran ((both ((h wit10 bfail).2.2.2.2.2.2.2.1 ⟨1, 2⟩) (by decide +kernel)).2.2 (by decide +kernel)),
   ran ((h wit1 bfail).2.2.2.2.2.2.2.2 (by decide +kernel))⟩

end Slices

/-! ### Trusts -/

namespace Trusts

def secR : List (Nat × Word) := [(Reg.SEC_STAT, wv [(Fld.SEC_STAT_ID_VALID, 1)]), (Reg.SEC_NONCE 1 0, 7), (Reg.SEC_KEYBUF 1 0, 9), (Reg.SEC_KEYBUF 0 0, 9)]
def sD (m : List (Nat × Word)) (g : Dev → Dev := id) : Dev := g { onDev m with ps := 100 * second }
def qs (v : Nat) : Dev → Dev := fun d => { d with sec := { d.sec with quotes := [(v, some (zeros 64))] } }
def wit1 : State := st (sD secR)
def wit2 : State := st (sD secR)
def wit3 : State := st (sD [])
def wit4 : State := st (sD secR (qs 1))
def r1 : FaultRec := ⟨0x2000000000000012 + 0x30000000, 7, 8, 9⟩
def wit7 : State := st (sD secR fun d => { d with fltq := [r1, r1] })
def sc (op p j n : Nat) : SecCmd := ⟨op, p, j, List.replicate n 7⟩
def cD (v : Nat) (z : SecCmd) : Dev := sD secR fun d => { d with sec := { d.sec with cmds := [(v, some z)] } }
def wit9 : State := st (cD 0 (sc soKeyAdd 0 2 64))

theorem test_TrustAndFaultLog (h : Obligations.TrustAndFaultLog) :
    Ran (.quote 1) wit1 ∧
    Ran (.quote 0) wit3 ∧
    Ran (.quote 1) wit4 ∧
    Ran (.quoteDone 1) wit4 ∧
    Ran (.quoteDone 1) wit1 ∧
    Ran (.keyAdd 1 0 2) wit1 ∧
    Ran (.keyClear 1 0 2) wit1 ∧
    Ran (.keyAdd 0 3 2) wit3 ∧
    Ran (.keyClear 0 3 2) wit3 ∧
    Ran (.macsecCak 1) wit1 ∧
    (∃ t, step wit9 = .next t) ∧
    Ran (.macsecCak 1) wit4 ∧
    Ran (.dbgLock 0) wit2 ∧
    Ran (.dbgLock 1) wit1 ∧
    Ran (.faultRecordWrite) wit7 ∧
    Ran (.faultRecordWrite) wit1 :=
  ⟨ran (both (both ((h wit1 1 0 2).1)) (by decide +kernel)),
   ran (both (both (both ((h wit3 0 3 2).2.1))) (by decide +kernel)),
   ran (both (both ((h wit4 1 0 2).2.2.1)) (by decide +kernel)),
   ran ((h wit4 1 0 2).2.2.2.1 (zeros 64) (by decide +kernel)),
   ran ((h wit1 1 0 2).2.2.2.2.1 (by decide +kernel)),
   ran ((both (both ((h wit1 1 0 2).2.2.2.2.2.1)) (by decide +kernel)).1 (by decide +kernel)),
   ran ((both (both ((h wit1 1 0 2).2.2.2.2.2.1)) (by decide +kernel)).2),
   ran ((both ((h wit3 0 3 2).2.2.2.2.2.2.1) (by decide +kernel)).1 (by decide +kernel)),
   ran ((both ((h wit3 0 3 2).2.2.2.2.2.2.1) (by decide +kernel)).2 (by decide +kernel)),
   ran (both (both ((h wit1 1 0 2).2.2.2.2.2.2.2.1)) (by decide +kernel)),
   stepped (both (both (both (both (both (both (both (both ((h wit9 0 0 2).2.2.2.2.2.2.2.2.1 (sc soKeyAdd 0 2 64))))))))) (by decide +kernel)),
   ran (both (both ((h wit4 1 0 2).2.2.2.2.2.2.2.2.2.1)) (by decide +kernel)),
   ran (both ((h wit2 0 0 2).2.2.2.2.2.2.2.2.2.2.1) (by decide +kernel)),
   ran ((h wit1 1 0 2).2.2.2.2.2.2.2.2.2.2.2.1 (by decide +kernel)),
   ran ((h wit7 5 0 2).2.2.2.2.2.2.2.2.2.2.2.2.1 r1 [r1] (by decide +kernel)),
   ran ((h wit1 1 0 2).2.2.2.2.2.2.2.2.2.2.2.2.2 (by decide +kernel))⟩

end Trusts

/-! ### Stores -/

namespace Stores

def t2R : Nat × Word := (Reg.MEM_CFG, wv [(Fld.MEM_CFG_T2_GRANULES, 2)])
def recM (kind sf df src dst len rows cols op : Nat) : List Byte := toLe 1 op ++ toLe 1 kind ++ toLe 1 sf ++ toLe 1 df ++ zeros 4 ++ toLe 8 src ++ zeros 8 ++ toLe 8 dst ++ (if op = 2 then toLe 4 rows ++ toLe 4 cols else zeros 8) ++ toLe 8 len
def entM (stt part n : Nat) (recs : List Byte) : List Byte := toLe 1 stt ++ toLe 1 part ++ toLe 2 n ++ zeros 252 ++ recs
def D2 := t2Base + 0x400000
def msD (ent : List Byte) (more : List (Nat × Word)) (sizes : Store Nat) (mem : Store Byte) : Dev := { onDev ([t2R, (Reg.PART_T2 0, 1), (Reg.MOLT_HSTAT 0, wv [(Fld.MOLT_HSTAT_STATE, 2)])] ++ more) with mem := memAt imgA (imgBytes 1 1 1 [⟨9, 0, putLe (toLe 2 1 ++ zeros 62 ++ toLe 1 2 ++ toLe 1 0 ++ zeros 6 ++ toLe 8 4608) 0 2 1⟩]) ++ memAt (t2Base + 4096 * 3) ent ++ mem, img := { ImgPart.zero with imgs := [(0, some { theImg with place := [D2] })] }, ldr := { Loader.zero with sizes := sizes } }
def pS := [(Reg.MEM_PATROL_CTL, wv [(Fld.MEM_PATROL_CTL_ENABLE, 1)])]
def hB : Hdr := ⟨0, 0x02, 0, 0, 63, 31, false, false, false, 10, 0, 0, 0, 0, 0, 0, 0⟩
def tile2 := mkTile hB [] [1#8, 2#8]
def theI : Img := { theImg with place := [D2] }
def st0 := msD [] [] [] []
def stLoading := msD (entM 1 0 1 []) [] [] []
def stRef := msD (entM 2 0 1 (recM 0 1 2 0 D2 0 32 32 2)) [] [(192, 1)] []
def hnd : Handle := ⟨.demoted, 0, 1, 5, 0, 0, 1, 1, 0, [], [(0, D2)]⟩
def pH (mem : Store Byte) : Dev := { onDev pS with mem := mem, srv := { Serving.zero with handles := [(0, hnd)] } }
def wit1 : State := st st0
def wit2 : State := st stLoading
def wit3 : State := st stRef
def wit4 : State := st (pH (memAt D2 tile2))
def wit5 : State := st (pH [])
def pK : Dev := { pH (memAt D2 tile2) with ldr := { (pH []).ldr with patrolAt := ⟨1, 0, 0, 7⟩ } }
def wit6 : State := st { pK with mem := memAt (D2 + 4608 * 7) tile2 }

theorem test_ModelStoreCommands (h : Obligations.ModelStoreCommands) :
    Ran (.msCreate 1 0 3) wit1 ∧
    Ran (.msCreate 1 0 3) wit2 ∧
    Ran (.msSeal 1 0 3 0) wit2 ∧
    Ran (.msDelete 1 0 3) wit2 ∧
    Ran (.msDelete 1 0 3) wit3 :=
  ⟨ran (both (both ((both (h wit1 1 0 3 0) (by decide +kernel)).1)) (by decide +kernel)),
   ran ((both (h wit2 1 0 3 0) (by decide +kernel)).2.1 (by decide +kernel)),
   ran (both (both (both ((both (h wit2 1 0 3 0) (by decide +kernel)).2.2.1 theI))) (by decide +kernel)),
   ran (both (both ((both (h wit2 1 0 3 0) (by decide +kernel)).2.2.2.1)) (by decide +kernel)),
   ran ((both (h wit3 1 0 3 0) (by decide +kernel)).2.2.2.2 (by decide +kernel))⟩

theorem test_PatrolAndRepair (h : Obligations.PatrolAndRepair) :
    Ran (.patrolSlotCheck) wit4 ∧
    Ran (.patrolSlotCheck) wit6 ∧
    Ran (.patrolSlotCheck) wit5 :=
  ⟨ran ((both (both ((h wit4).1 ⟨⟨1, 0, 0, 0⟩, D2, 0, none⟩)) (by decide +kernel)).1 (by decide +kernel) (slotOk_mem tile2 (by simp only [wit4, st, pH]) (length_mkTile _ _ _) (tileCrcOk_mkTile _ _ _) (by decide +kernel))),
   ran ((both (both ((h wit6).1 ⟨⟨1, 0, 0, 7⟩, D2 + 4608 * 7, 0, none⟩)) (by decide +kernel)).2.1 (by decide +kernel) (slotOk_mem tile2 (by simp only [wit6, st]) (length_mkTile _ _ _) (tileCrcOk_mkTile _ _ _) (by decide +kernel))),
   ran (both ((both (both ((h wit5).1 ⟨⟨1, 0, 0, 0⟩, D2, 0, none⟩)) (by decide +kernel)).2.2 (slotOk_bad (by decide +kernel))) (by decide +kernel))⟩

end Stores

/-! ### Programs -/

namespace Programs

def wit1 : State := opState 0x60 (ov 0 1 63 63 2)
def wit2 : State := opState 0 (ov 63 63 63 63 0)
def wit3 : State := opState 2 (ov 63 63 63 63 5)
def wit4 : State := opState 3 (ov 63 1 63 63 5)
def wS (v : Bool) : State := opDev [] 0x0B (ov 63 33 63 63 0) { tcRun with sums := [(1, ⟨7, v, false⟩)] } id id
def wit5 : State := wS true
def wit6 : State := wS false
def wit7 : State := opState 1 (ov 63 63 63 63 0)
def chR (a b len j l idx fl : Nat) : CfgRec := rec 7 0 (toLe 2 5 ++ toLe 2 a ++ toLe 2 b ++ toLe 1 0 ++ toLe 1 0 ++ toLe 4 len ++ toLe 2 j ++ toLe 1 l ++ toLe 1 idx ++ toLe 1 fl)
def chS (r : CfgRec) : State := opDev [r] 8 (ov 63 63 63 63 2) tcRun (fun x => { x with acc := [(5, 7)] }) fun d => (withImg [] d)
def ra := chR 1 1 33 0 1 2 0
def rb := chR 1 3 33 0 1 2 0
def wit8 : State := chS ra
def wit9 : State := chS rb

theorem test_ConvertRegisters (h : Obligations.ConvertRegisters) :
    Ran (.convert 0 0 (ov 0 1 63 63 2)) wit1 :=
  ran (both (both (both (h wit1 0 0 (ov 0 1 63 63 2) 0 1))) (by decide +kernel))

theorem test_ControlFlowOfACell (h : Obligations.ControlFlowOfACell) :
    Ran (.nop 0 0 (ov 63 63 63 63 0)) wit2 ∧
    Ran (.jump 0 0 (ov 63 63 63 63 5)) wit3 ∧
    Ran (.bnz 0 0 (ov 63 1 63 63 5)) wit4 ∧
    Ran (.waitsum 0 0 (ov 63 33 63 63 0)) wit5 ∧
    Ran (.waitsum 0 0 (ov 63 33 63 63 0)) wit6 ∧
    Ran (.endProgram 0 0 (ov 63 63 63 63 0)) wit7 :=
  ⟨ran ((h.1 wit2 0 0 (ov 63 63 63 63 0)).1 (by decide +kernel)),
   ran ((h.1 wit3 0 0 (ov 63 63 63 63 5)).2.1 (by decide +kernel)),
   ran ((h.1 wit4 0 0 (ov 63 1 63 63 5)).2.2.1 (by decide +kernel) (nobuf (by decide +kernel))),
   ran ((both ((h.1 wit5 0 0 (ov 63 33 63 63 0)).2.2.2 1) (by decide +kernel)).1 (by decide +kernel)),
   ran ((both ((h.1 wit6 0 0 (ov 63 33 63 63 0)).2.2.2 1) (by decide +kernel)).2 (by decide +kernel)),
   ran (both (both (h.2 wit7 0 0 (ov 63 63 63 63 0))) (by decide +kernel))⟩

theorem test_ChainsAccumulate (h : Obligations.ChainsAccumulate) :
    Ran (.chain 0 0 (ov 63 63 63 63 2)) wit8 ∧
    Ran (.chain 0 0 (ov 63 63 63 63 2)) wit9 :=
  ⟨ran (both (both (both (both (both (both (both (both ((both (both (both (both (both (h.1 wit8 0 0 (ov 63 63 63 63 2) ra theImg (parseDesc (dLoad.take 96)) (parseDesc (dLoad.take 96)) 0))))) (by decide +kernel) (desc_of (by decide +kernel)) (desc_of (by decide +kernel))).1 0 setup0)))))))) (by decide +kernel)),
   ran (both (both ((both (both (both (both (both (h.1 wit9 0 0 (ov 63 63 63 63 2) rb theImg (parseDesc (dLoad.take 96)) (parseDesc (dI32.take 96)) 0))))) (by decide +kernel) (desc_of (by decide +kernel)) (desc_of (by decide +kernel))).2)) (by decide +kernel))⟩

end Programs

/-! ### BootTests -/

namespace BootTests

def rD (g : Dev → Dev) (m : List (Nat × Word)) : Dev := g { onDev m with ps := 100 * second }
def bst (n : Nat) (more : List (Fld × Nat) := []) : Nat × Word := (Reg.BOOT_STAT, wv ([(Fld.BOOT_STAT_STAGE, n)] ++ more))
def bD (n : Nat) (m : List (Nat × Word)) (g : Dev → Dev := id) : Dev := rD g ([bst n, (Reg.GLB_LEVEL, 0)] ++ m)
def so : StageOut := ⟨0, true, [], [], [some .gib128, none, some .gib64, none, none, none, none, none], []⟩
def col : Nat × Word := (Reg.GLB_NODE, wv [(Fld.GLB_NODE_VALID, 1), (Fld.GLB_NODE_NODE_ID, 8), (Fld.GLB_NODE_ROLE, 2)])
def wit2 : State := st (bD 7 [col])

theorem test_BootProceeds (h : Obligations.BootProceeds) :
    Ran (.bootStageEnd ({ so with bist := [⟨3, 2, none⟩] })) wit2 :=
  ran (both (both ((both ((h wit2 ({ so with bist := [⟨3, 2, none⟩] }) 0).2.2.2.1) (by decide +kernel)).2.2.2.2.2.2.1)) (by decide +kernel))

end BootTests

/-! ### The rows of Tables 3-8 and 3-9 -/

namespace Rows

def o1 : CellOps := ov 0 1 2 3 0
def oBuf : CellOps := ov 50 1 2 3 0
def oBank : CellOps := ov 0 48 63 63 5
def oSum : CellOps := ov 33 1 63 63 5
/-- A header alone stands in the buffer. -/
def bufState (opc : Nat) : State := opDev [] opc oBuf tcRun (fun x => { x with vregs := [(64, 0x40000000), (65, 0x3F800000)] }) fun d => { d with mem := memAt 4 (hdrTail hF) }

theorem test_FloatAndIntegerElements (h : Obligations.FloatAndIntegerElements) :
    (∀ row ∈ fpRows, Ran (row.cmd 0 0 o1) (opState row.opc o1)) ∧ ∀ row ∈ intRows, Ran (row.cmd 0 0 o1) (opState row.opc o1) :=
  ⟨fun row hr => ran (h.1 row hr (opState row.opc o1) 0 0 o1
      ((by decide +kernel : ∀ row ∈ fpRows, (opState row.opc o1).dev.issues 0 0 row.opc o1 = true) row hr)
      ((by decide +kernel : ∀ row ∈ fpRows, isReg (operand (opState row.opc o1).dev 0 0 o1 o1.d) = true) row hr) (nobuf rfl)),
   fun row hr => ran (h.2 row hr (opState row.opc o1) 0 0 o1
      ((by decide +kernel : ∀ row ∈ intRows, (opState row.opc o1).dev.issues 0 0 row.opc o1 = true) row hr)
      ((by decide +kernel : ∀ row ∈ intRows, isReg (operand (opState row.opc o1).dev 0 0 o1 o1.d) = true) row hr) (nobuf rfl))⟩

theorem test_ElementsIntoBuffer (h : Obligations.ElementsIntoBuffer) : ∀ row ∈ fpRows ++ intRows, Ran (row.cmd 0 0 oBuf) (bufState row.opc) :=
  fun row hr => ran (h row hr (bufState row.opc) 0 0 oBuf
    ((by decide +kernel : ∀ row ∈ fpRows ++ intRows, (bufState row.opc).dev.issues 0 0 row.opc oBuf = true) row hr)
    ((by decide +kernel : ∀ row ∈ fpRows ++ intRows, isReg (operand (bufState row.opc).dev 0 0 oBuf oBuf.d) = false) row hr) (nobuf rfl))

theorem test_BroadcastComputed (h : Obligations.BroadcastComputed) : ∀ row ∈ bcastRows, Ran (row.cmd 0 0 o1) (opState row.opc o1) :=
  fun row hr => ran (h row hr (opState row.opc o1) 0 0 o1
    ((by decide +kernel : ∀ row ∈ bcastRows, (opState row.opc o1).dev.issues 0 0 row.opc o1 = true) row hr)
    ((by decide +kernel : ∀ row ∈ bcastRows, isReg (operand (opState row.opc o1).dev 0 0 o1 o1.d) = true) row hr)
    (fun n hn => by
      have e := (by decide +kernel : ∀ row ∈ bcastRows, operand (opState row.opc o1).dev 0 0 o1 o1.d = .vreg 0) row hr
      exact nomatch e.symm.trans hn) (nobuf rfl))

theorem test_ReductionsComputed (h : Obligations.ReductionsComputed) :
    (∀ row ∈ reduceRows, Ran (row.cmd 0 0 oBank) (opState row.opc oBank)) ∧ ∀ row ∈ scalarRows, Ran (row.cmd 0 0 oSum) (opState row.opc oSum) :=
  ⟨fun row hr => ran (h.1 row hr (opState row.opc oBank) 0 0 oBank 0 0
      ((by decide +kernel : ∀ row ∈ reduceRows, (opState row.opc oBank).dev.issues 0 0 row.opc oBank = true) row hr)
      ((by decide +kernel : ∀ row ∈ reduceRows, operand (opState row.opc oBank).dev 0 0 oBank oBank.d = .vreg 0) row hr)
      ((by decide +kernel : ∀ row ∈ reduceRows, operand (opState row.opc oBank).dev 0 0 oBank oBank.a = .bank 0) row hr)),
   fun row hr => ran (h.2 row hr (opState row.opc oSum) 0 0 oSum 1 1
      ((by decide +kernel : ∀ row ∈ scalarRows, (opState row.opc oSum).dev.issues 0 0 row.opc oSum = true) row hr)
      ((by decide +kernel : ∀ row ∈ scalarRows, operand (opState row.opc oSum).dev 0 0 oSum oSum.d = .sreg 1) row hr)
      ((by decide +kernel : ∀ row ∈ scalarRows, operand (opState row.opc oSum).dev 0 0 oSum oSum.a = .vreg 1) row hr))⟩

end Rows

/-! ### The whole block -/

theorem test_EveryCommandCompletesAndTimePasses (h : Obligations.EveryCommandCompletesAndTimePasses) : ∃ e, step State.reset = .next { State.reset with dev := settle e } :=
  (h.2 State.reset rfl (by decide +kernel)).imp fun _ x => x.1

theorem test_LevelsFollowEveryStep (h : Obligations.LevelsFollowEveryStep) : ∃ t, step State.reset = .next t ∧ Levels t.dev := ⟨_, rfl, h State.reset _ rfl⟩

/-- The command at the front of the queue runs, and leaves the queue. -/
theorem test_step_front : ∃ e, step ⟨Dev.powerOn, [.powerOn, .porstN]⟩ = .next ⟨e, [.porstN]⟩ := ⟨_, rfl⟩

/-- The table gives no bits: a word spells no command, and no word changes the queue. -/
theorem test_decode_none : decodeTableWord 32 0x12345678 = none ∧ State.reset.withFetchWord 32 0x12345678 = State.reset := ⟨rfl, rfl⟩

/-! ### Commands that the well-formedness checks refuse -/

theorem test_wf_packet : Instr.wf (.write { mkPkt 4 0 0 130 5 0 [] with payload := [1#8] }) = false := by decide
theorem test_wf_flit : Instr.wf (.linkFlit 0 ⟨0, 1, 0, 0, 0, 0, 0, 0, 0, [1#8]⟩) = false := by decide
theorem test_wf_frarax : Instr.wf (.vote ⟨0, false, false, 0, 2, 0, 0, 0, 0, 0, 0, 0, 0, 0, zeros 64⟩) = false := by decide
theorem test_wf_frame : Instr.wf (.ctrlMsg 0 ⟨0, false, 0, false, 0, 1, 0, 0, 0, 0, 0, 0, 0, 0, 0, 0, 0, []⟩) = false := by decide
theorem test_wf_tile : Instr.wf (.choiceTile 0 0 0 [0#8]) = false := by decide
theorem test_wf_sample : Instr.wf (.governorTick ⟨[], [], [], 0, 0, 0, 0, 0, 0, [], [], []⟩) = false := by decide
theorem test_wf_firefly : Instr.wf (.fireflyRequest (.frarax ⟨0, false, false, 0, 1, 0, 0, 0, 0, 0, 0, 0, 0, 0, []⟩)) = false := by decide
theorem test_wf_calibration : Instr.wf (.calibration [0] 0) = false := by decide
theorem test_wf_temperatures : Instr.wf (.tempPoll [0] (List.replicate 32 0)) = false := by decide
theorem test_wf_monitor : Instr.wf (.monitorPollEnd []) = false := by decide

/-! ### Worked examples of the manual -/

/-- R102: the CRC of the ASCII string "123456789". -/
theorem test_crc : crc32c [0x31#8, 0x32#8, 0x33#8, 0x34#8, 0x35#8, 0x36#8, 0x37#8, 0x38#8, 0x39#8] = 0xE3069283 := by decide +kernel
/-- Chapter 01, locating a cell: cell 5,000 is in comb 8. -/
theorem test_cell : combOf 5000 = 8 ∧ cellX 5000 = 8 ∧ cellY 5000 = 39 := by decide
/-- Chapter 03, a BF16 grain where truncation decides the rounding: 1.0, and not 0x3F800001. -/
theorem test_grain : grain16 fmtBF16 [0x3F80, 0x3980, 0x2E00] [0x3F80, 0x3980, 0x2E00] = 0x3F800000 := by decide +kernel
/-- Chapter 18, the address of a QP word. -/
theorem test_qp_word : Reg.LNK_QP 300 2 = 0xE84B10 := by decide
/-- Chapter 17, finding the contact of one brood lane: L2_RXN[11] at AN16, L2_RXP[11] at AN14. -/
theorem test_contact : contactNet 33 16 = some (.brood 2 11 .rxn) ∧ contactNet 33 14 = some (.brood 2 11 .rxp) ∧ rowName 33 = ['A', 'N'] := by decide +kernel

end Sys2Proof.Tests
end

/-! ## What a command leaves of the registers -/

namespace Sys2Proof.Safety

open Sys2Proof.Machine

/-- A command whose arm ends with `done`. -/
theorem does_done {i : Instr} {s : State} {P : Dev → Prop} (e : Dev) (h : exec i s = done s e) (hp : P e) : Does i s P := ⟨e, h, hp⟩

/-- A command that a host write of a register gives, where the register can be reached (R17). -/
theorem does_hostDone {i : Instr} {s : State} {P : Dev → Prop} {off : Nat} {f : Dev → Dev} (h : exec i s = hostDone s off f)
    (up : s.dev.hostUp off = true) (hp : P (f s.dev)) : Does i s P := ⟨f s.dev, by rw [h, hostDone, if_pos up]; rfl, hp⟩

theorem RegsBut.of_regs {d e : Dev} (l : List Nat) (h : e.regs = d.regs) : RegsBut l d e := fun o _ => rd_congr h o

theorem RegsBut.trans {l : List Nat} {d e f : Dev} (h : RegsBut l d e) (k : RegsBut l e f) : RegsBut l d f := fun o ho => (k o ho).trans (h o ho)

theorem RegsBut.mono {l m : List Nat} {d e : Dev} (h : RegsBut l d e) (hs : l ⊆ m) : RegsBut m d e := fun o ho => h o fun x => ho (hs x)

theorem regsBut_wr (d : Dev) (off : Nat) (v : Word) : RegsBut [off] d (d.wr off v) :=
  fun o ho => rd_wr_ne d off o v fun h => ho (by simp [h])

theorem regsBut_wf (d : Dev) (off : Nat) (f : Fld) (n : Nat) : RegsBut [off] d (d.wf off f n) := regsBut_wr d off _

theorem regsBut_addf (d : Dev) (off : Nat) (f : Fld) (n : Nat) : RegsBut [off] d (d.addf off f n) := regsBut_wr d off _

theorem regsBut_bump (d : Dev) (off n : Nat) : RegsBut [off] d (d.bump off n) := regsBut_wr d off _

theorem onlyRegs_addf (d : Dev) (off : Nat) (f : Fld) (n : Nat) : OnlyRegs d (d.addf off f n) := rfl

/-- A field write changes that field and no other. -/
theorem fieldNow_wf (d : Dev) (off : Nat) (f : Fld) (n : Nat) (h : f.lo + f.w ≤ 64) : FieldNow d (d.wf off f n) off f n :=
  ⟨rf_wf_same d off f n h, fun g hg => rf_wf_ne d off off f g n h (Or.inr hg.2), regsBut_wf d off f n⟩

end Sys2Proof.Safety

/-! ## Fault records (R520 to R523) -/

namespace Sys2Proof.Machine

open Sys2Proof.Safety

theorem faultWord_lt (f : FaultInfo) : faultWord f < 2 ^ 64 := by
  have h1 : b2n f.cell.isSome ≤ 1 := by cases f.cell.isSome <;> decide
  have h2 : b2n f.part.isSome ≤ 1 := by cases f.part.isSome <;> decide
  unfold faultWord
  omega

/-- Class and cause stand in bits [7:0] and [23:8] of word 0, the partition in [31:28] (Table 18-5). -/
theorem faultWord_cls (f : FaultInfo) : faultWord f % 256 = f.cls % 256 := by unfold faultWord; omega

theorem faultWord_cause (f : FaultInfo) : faultWord f / 256 % 65536 = f.cause % 65536 := by unfold faultWord; omega

theorem faultWord_part (f : FaultInfo) : faultWord f / 2 ^ 28 % 16 = f.part.getD 0 % 16 := by unfold faultWord; omega

/-- The record that a unit's fault becomes. -/
def Dev.faultRec (d : Dev) (f : FaultInfo) : FaultRec :=
  ⟨BitVec.ofNat 64 (Machine.faultWord f), BitVec.ofNat 64 f.epoch, d.sysTime, BitVec.ofNat 64 f.detail⟩

theorem raise_of_room {d : Dev} (f : FaultInfo) (h : d.fltq.length < 64) : d.raise f = { d with fltq := d.fltq ++ [d.faultRec f] } := if_pos h

theorem raise_of_full {d : Dev} (f : FaultInfo) (h : ¬ d.fltq.length < 64) : d.raise f = d.addf Reg.FLT_STAT Fld.FLT_STAT_LOST 1 := by
  rw [Dev.raise, if_neg h]

/-- A fault changes the queue of records, or counts the record as lost. -/
theorem raise_frame (d : Dev) (f : FaultInfo) : d.raise f = { d with regs := (d.raise f).regs, fltq := (d.raise f).fltq } := by
  by_cases h : d.fltq.length < 64
  · rw [raise_of_room f h]
  · rw [raise_of_full f h, addf_fltq]; exact onlyRegs_addf d _ _ 1

@[simp] theorem raise_mem (d : Dev) (f : FaultInfo) : (d.raise f).mem = d.mem := by rw [raise_frame]
@[simp] theorem raise_fab (d : Dev) (f : FaultInfo) : (d.raise f).fab = d.fab := by rw [raise_frame]
@[simp] theorem raise_srv (d : Dev) (f : FaultInfo) : (d.raise f).srv = d.srv := by rw [raise_frame]
@[simp] theorem raise_hp (d : Dev) (f : FaultInfo) : (d.raise f).hp = d.hp := by rw [raise_frame]
@[simp] theorem raise_ps (d : Dev) (f : FaultInfo) : (d.raise f).ps = d.ps := by rw [raise_frame]
@[simp] theorem raise_out (d : Dev) (f : FaultInfo) : (d.raise f).out = d.out := by rw [raise_frame]

theorem regsBut_raise (d : Dev) (f : FaultInfo) : RegsBut [Reg.FLT_STAT] d (d.raise f) := by
  by_cases h : d.fltq.length < 64
  · rw [raise_of_room f h]; exact .of_regs _ rfl
  · rw [raise_of_full f h]; exact regsBut_addf d _ _ 1

theorem recordOf_faultRec (d : Dev) (f : FaultInfo) : recordOf (d.faultRec f) = (f.cls % 256, f.cause % 65536, f.detail % 2 ^ 64) := by
  simp only [recordOf, Dev.faultRec, BitVec.toNat_ofNat, Nat.mod_eq_of_lt (faultWord_lt f), faultWord_cls, faultWord_cause]

/-- While the queue has room a fault is recorded with its class, cause and detail. -/
theorem recorded_raise {d : Dev} (f : FaultInfo) (h : d.fltq.length < 64) : Recorded d (d.raise f) (f.cls % 256) (f.cause % 65536) f.detail := by
  rw [raise_of_room f h]
  refine ⟨by simp, by simp, ?_⟩
  simp only [List.getLast?_concat, Option.map_some, recordOf_faultRec]

theorem recorded_of_fltq {d e e' : Dev} {cls cause detail : Nat} (h : Recorded d e cls cause detail) (he : e'.fltq = e.fltq) :
    Recorded d e' cls cause detail := by
  unfold Recorded at h ⊢
  rw [he]
  exact h

end Sys2Proof.Machine

/-! ## The issue slot (R41) -/

namespace Sys2Proof.Machine

open Sys2Proof.Safety

theorem cell_setCell_ne (d : Dev) (c z : Nat) (x : Cell) (h : z ≠ c) : (d.setCell c x).cell z = d.cell z := sget_sput_ne _ _ _ _ _ h

@[simp] theorem tc_setTc_same (x : Cell) (t : Nat) (y : Tc) : (x.setTc t y).tc t = y := sget_sput_same _ _ _ _

theorem tc_setTc_ne (x : Cell) (t u : Nat) (y : Tc) (h : u ≠ t) : (x.setTc t y).tc u = x.tc u := sget_sput_ne _ _ _ _ _ h

/-- Task context t of cell c takes the issue slot. -/
def Dev.run (d : Dev) (c t : Nat) : Dev := d.setCell c (Cell.setTc { d.cell c with last := t } t { (d.cell c).tc t with st := .running })

/-- The issue slot stays as it is, or passes to a READY task context, the switch counted or not. -/
theorem pick_cases (d : Dev) (c : Nat) :
    d.pick c = d ∨ ∃ t, ((d.cell c).tc t).st = .ready ∧ (d.pick c = d.run c t ∨ d.pick c = (d.run c t).bump (Reg.DBG_TC_SWITCH c) 1) := by
  unfold Dev.pick
  dsimp only
  split
  · exact .inl rfl
  split
  next t ht =>
    refine .inr ⟨t, by simpa using List.find?_some ht, ?_⟩
    split
    · exact .inl rfl
    · unfold Dev.dbg
      split
      · exact .inl rfl
      · exact .inr rfl
  · exact .inl rfl

theorem run_tc (d : Dev) (c t u : Nat) :
    ((d.run c t).cell c).tc u = if u = t then { (d.cell c).tc t with st := .running } else (d.cell c).tc u := by
  rw [Dev.run, setCell_read]
  split
  next h => subst h; exact tc_setTc_same _ u _
  next h => exact tc_setTc_ne _ t u _ h

@[simp] theorem pick_mem (d : Dev) (c : Nat) : (d.pick c).mem = d.mem := by
  obtain h | ⟨t, -, h | h⟩ := pick_cases d c <;> rw [h] <;> rfl

theorem pick_cell_ne (d : Dev) (c z : Nat) (hz : z ≠ c) : (d.pick c).cell z = d.cell z := by
  obtain h | ⟨t, -, h | h⟩ := pick_cases d c
  · rw [h]
  · rw [h]; exact cell_setCell_ne _ _ _ _ hz
  · rw [h]; exact cell_setCell_ne _ _ _ _ hz

theorem regsBut_pick (d : Dev) (c : Nat) : RegsBut [Reg.DBG_TC_SWITCH c] d (d.pick c) := by
  obtain h | ⟨t, -, h | h⟩ := pick_cases d c <;> rw [h]
  · exact .of_regs _ rfl
  · exact .of_regs _ rfl
  · exact regsBut_bump (d.run c t) _ _

/-- A task context of the cell is as before, or was READY and now runs. -/
theorem pick_tc (d : Dev) (c u : Nat) :
    ((d.pick c).cell c).tc u = (d.cell c).tc u ∨
      ((d.cell c).tc u).st = .ready ∧ ((d.pick c).cell c).tc u = { (d.cell c).tc u with st := .running } := by
  obtain h | ⟨t, ht, h⟩ := pick_cases d c
  · rw [h]; exact .inl rfl
  · have hc : (d.pick c).cell c = (d.run c t).cell c := by
      obtain h | h := h
      · rw [h]
      · rw [h]; rfl
    rw [hc, run_tc]
    split
    next e => subst e; exact .inr ⟨ht, rfl⟩
    next => exact .inl rfl

end Sys2Proof.Machine

/-! ## Debug control (R64, R65, R10) -/

namespace Sys2Proof.Machine

open Sys2Proof.Safety

section
variable {α β : Type}

/-- Every value of a store changed in place; what an unlisted key reads as must not change. -/
theorem sget_map (dflt : Nat → α) (g : Nat → α → α) (m : Store α) (k : Nat) (hd : g k (dflt k) = dflt k) :
    sget dflt (m.map fun q => (q.1, g q.1 q.2)) k = g k (sget dflt m k) := by
  induction m with
  | nil => exact hd.symm
  | cons q m ih =>
    simp only [List.map_cons, sget, ih]
    split
    next h => rw [h]
    next => rfl

/-- A part of the values that the change keeps reads as before at every key. -/
theorem sget_map_part (P : α → β) (dflt : Nat → α) (g : Nat → α → α) (m : Store α) (k : Nat) (hg : ∀ i a, P (g i a) = P a) :
    P (sget dflt (m.map fun q => (q.1, g q.1 q.2)) k) = P (sget dflt m k) := by
  induction m with
  | nil => rfl
  | cons q m ih =>
    simp only [List.map_cons, sget]
    split
    · exact hg _ _
    · exact ih

end

/-- A cell whose task contexts take the bits of TC_HALT. -/
def haltCell (halt : Nat) (x : Cell) : Cell := { x with tcs := x.tcs.map fun (q : Nat × Tc) => (q.1, haltTc q.2 (bit halt q.1)) }

theorem haltCell_tc (halt : Nat) (x : Cell) (t : Nat) : (haltCell halt x).tc t = haltTc (x.tc t) (bit halt t) :=
  sget_map (fun _ => Tc.zero) (fun k q => haltTc q (bit halt k)) x.tcs t (by cases bit halt t <;> rfl)

theorem haltTc_pc (t : Tc) (b : Bool) : (haltTc t b).pc = t.pc := by
  unfold haltTc
  split <;> split <;> rfl

theorem haltTc_set {t : Tc} (h1 : t.st ≠ .unused) (h2 : t.st ≠ .done) : (haltTc t true).st = .halted := by simp [haltTc, h1, h2]

theorem haltTc_clear {t : Tc} (h : t.st = .halted) : (haltTc t false).st = .ready := by simp [haltTc, h]

/-- The restart of the watchdog changes no state and no program counter of a task context. -/
theorem restartWatch_tc (x : Cell) (now t : Nat) : (((restartWatch x now).tc t).st, ((restartWatch x now).tc t).pc) = ((x.tc t).st, (x.tc t).pc) := by
  unfold restartWatch
  dsimp only
  split
  · split <;> rfl
  · split
    · rfl
    · exact sget_map_part (fun y : Tc => (y.st, y.pc)) (fun _ => Tc.zero) (fun _ y => { y with since := y.since + (now - max _ y.since) }) x.tcs t
        fun _ _ => rfl

/-- TC_HALT written and its bits taken, before the issue slot passes on. -/
def Dev.tcHalted (d : Dev) (c halt : Nat) : Dev :=
  ((d.wf (Reg.DBG_CTL c) Fld.DBG_CTL_TC_HALT halt).modCell c (haltCell halt)).modCell c fun x => restartWatch x d.ps

theorem opTcHalt_of_may {d : Dev} {v c : Nat} (halt : Nat) (h : d.mayDbg v c = true) : opTcHalt v c halt d = (d.tcHalted c halt).pick c := if_pos h

theorem opFreeze_of_may {d : Dev} {v c : Nat} (f : Bool) (h : d.mayDbg v c = true) :
    opFreeze v c f d = d.wf (Reg.DBG_CTL c) Fld.DBG_CTL_FREEZE (b2n f) := if_pos h

theorem opDbgClr_of_may {d : Dev} {v c : Nat} (h : d.mayDbg v c = true) :
    opDbgClr v c d = (dbgCounters c).foldl (fun e o => e.wr o 0) d := if_pos h

theorem tcHalted_cell (d : Dev) (c halt : Nat) : (d.tcHalted c halt).cell c = restartWatch (haltCell halt (d.cell c)) d.ps := by
  rw [Dev.tcHalted, Dev.modCell, setCell_read, Dev.modCell, setCell_read]
  rfl

theorem tcHalted_cell_ne (d : Dev) (c halt z : Nat) (h : z ≠ c) : (d.tcHalted c halt).cell z = d.cell z :=
  (cell_setCell_ne _ c z _ h).trans (cell_setCell_ne _ c z _ h)

/-- Each task context has taken its bit. -/
theorem tcHalted_tc (d : Dev) (c halt t : Nat) :
    (((d.tcHalted c halt).cell c).tc t).st = (haltTc ((d.cell c).tc t) (bit halt t)).st ∧
      (((d.tcHalted c halt).cell c).tc t).pc = ((d.cell c).tc t).pc := by
  obtain ⟨hst, hpc⟩ := Prod.mk.inj (restartWatch_tc (haltCell halt (d.cell c)) d.ps t)
  rw [haltCell_tc] at hst hpc
  rw [tcHalted_cell]
  exact ⟨hst, hpc.trans (haltTc_pc _ _)⟩

theorem regsBut_tcHalted (d : Dev) (c halt : Nat) : RegsBut [Reg.DBG_CTL c] d (d.tcHalted c halt) :=
  regsBut_wf d (Reg.DBG_CTL c) Fld.DBG_CTL_TC_HALT halt

/-- After the issue slot has passed on: a halted context stays HALTED, the program counters stay. -/
theorem opTcHalt_tc {d : Dev} {v c : Nat} (halt t : Nat) (h : d.mayDbg v c = true) :
    (((opTcHalt v c halt d).cell c).tc t).pc = ((d.cell c).tc t).pc ∧
      ((((opTcHalt v c halt d).cell c).tc t).st = (haltTc ((d.cell c).tc t) (bit halt t)).st ∨
        (haltTc ((d.cell c).tc t) (bit halt t)).st = .ready ∧ (((opTcHalt v c halt d).cell c).tc t).st = .running) := by
  obtain ⟨hst, hpc⟩ := tcHalted_tc d c halt t
  rw [opTcHalt_of_may halt h, ← hst, ← hpc]
  obtain e | ⟨hr, e⟩ := pick_tc (d.tcHalted c halt) c t
  · rw [e]; exact ⟨rfl, .inl rfl⟩
  · rw [e]; exact ⟨rfl, .inr ⟨hr, rfl⟩⟩

section
variable (l : List Nat) (d : Dev)

/-- Registers cleared one after the other. -/
theorem foldl_wr_zero_rd (o : Nat) : (l.foldl (fun e o => e.wr o 0) d).rd o = if o ∈ l then 0 else d.rd o := by
  induction l generalizing d with
  | nil => rfl
  | cons a l ih =>
    rw [List.foldl_cons, ih]
    by_cases h : o = a
    · simp [h]
    · rw [rd_wr_ne d a o 0 h]; simp [h]

theorem foldl_wr_onlyRegs : OnlyRegs d (l.foldl (fun e o => e.wr o 0) d) := by
  induction l generalizing d with
  | nil => rfl
  | cons a l ih => exact ih (d.wr a 0)

end

/-- A view that finds the partition of the cell sealed may not. -/
theorem mayDbg_of_sealed {d : Dev} {v c p : Nat} (ho : d.ownerOf (combOf c) = some p) (hs : d.sealed p = true) : d.mayDbg v c = false := by
  simp [Dev.mayDbg, ho, hs]

/-- The write that the lock of R10 stops: nothing but the record of FLT_SECURITY 0x0E21. -/
theorem lockRec_of_room {d : Dev} (v p off : Nat) (h : d.fltq.length < 64) :
    d.lockRec v p off = { d with fltq := d.fltq ++ [d.faultRec { notice cSecurity 0x0E21 (off + v * 2 ^ 32) with part := some p }] } :=
  raise_of_room _ h

/-- What the record of a locked write says: its class, its cause and the partition. -/
theorem lockRec_record {d : Dev} (v p off : Nat) (h : d.fltq.length < 64) :
    d.lockRec v p off = { d with fltq := (d.lockRec v p off).fltq } ∧ (d.lockRec v p off).fltq.length = d.fltq.length + 1 ∧
      ((d.lockRec v p off).fltq.getLast?.map fun x => (x.w0.toNat % 256, x.w0.toNat / 256 % 65536, x.w0.toNat / 2 ^ 28 % 16)) =
        some (cSecurity, 0x0E21, p % 16) := by
  rw [lockRec_of_room v p off h]
  refine ⟨rfl, by simp, ?_⟩
  simp only [List.getLast?_concat, Option.map_some, Dev.faultRec, BitVec.toNat_ofNat, Nat.mod_eq_of_lt (faultWord_lt _), faultWord_cls, faultWord_cause,
    faultWord_part]
  rfl

/-- Every command of debug control that a sealed partition's lock stops leaves the record only. -/
theorem dbg_locked {d : Dev} {v c p : Nat} (ho : d.ownerOf (combOf c) = some p) (hs : d.sealed p = true) :
    (∀ halt, opTcHalt v c halt d = d.lockRec v p (Reg.DBG_CTL c)) ∧ (∀ f, opFreeze v c f d = d.lockRec v p (Reg.DBG_CTL c)) ∧
      opDbgClr v c d = d.lockRec v p (Reg.DBG_CTL c) := by
  have hm := mayDbg_of_sealed (v := v) ho hs
  have hl : d.dbgLocked v c = d.lockRec v p (Reg.DBG_CTL c) := by simp [Dev.dbgLocked, ho, hs]
  exact ⟨fun halt => by simp [opTcHalt, hm, hl], fun f => by simp [opFreeze, hm, hl], by simp [opDbgClr, hm, hl]⟩

end Sys2Proof.Machine

namespace Sys2Proof.Proofs

open Sys2Proof Sys2Proof.Machine Sys2Proof.Safety

section
variable (s : State) (v : View) (c : CellIdx)

theorem does_dbgTcHalt (halt : BitVec 4) (up : s.dev.hostUp (Reg.DBG_CTL c) = true) (may : s.dev.mayDbg v c = true) :
    Does (.dbgTcHalt v c halt) s fun e =>
      e.rf (Reg.DBG_CTL c) Fld.DBG_CTL_TC_HALT = halt.toNat ∧
      (∀ t : TcIdx, bit halt.toNat t = true → ((s.dev.cell c).tc t).st ≠ .unused → ((s.dev.cell c).tc t).st ≠ .done → ((e.cell c).tc t).st = .halted) ∧
      (∀ t : TcIdx, bit halt.toNat t = false → ((s.dev.cell c).tc t).st = .halted → ((e.cell c).tc t).st = .ready ∨ ((e.cell c).tc t).st = .running) ∧
      (∀ t : TcIdx, ((e.cell c).tc t).pc = ((s.dev.cell c).tc t).pc) ∧ (∀ z, z ≠ c.val → e.cell z = s.dev.cell z) ∧ e.mem = s.dev.mem ∧
      RegsBut [Reg.DBG_CTL c, Reg.DBG_TC_SWITCH c] s.dev e := by
  have htc := fun t => opTcHalt_tc (c := c) halt.toNat t may
  have heq := opTcHalt_of_may (c := c) halt.toNat may
  have hpick := regsBut_pick (s.dev.tcHalted c halt.toNat) c
  refine does_hostDone (f := opTcHalt v c halt.toNat) rfl up ⟨?field, ?halts, ?releases, fun t => (htc t).1, ?others, ?mem, ?regs⟩
  case field =>
    have hne : Reg.DBG_CTL c ≠ Reg.DBG_TC_SWITCH c := by simp only [Reg.DBG_CTL, Reg.DBG_TC_SWITCH]; omega
    rw [heq, Dev.rf, hpick _ (by simpa using hne)]
    exact (rf_wf_same s.dev (Reg.DBG_CTL c) Fld.DBG_CTL_TC_HALT halt.toNat (by decide)).trans (Nat.mod_eq_of_lt halt.isLt)
  case halts =>
    intro t hb hu hd
    obtain ⟨-, h | ⟨h, -⟩⟩ := htc t <;> rw [hb, haltTc_set hu hd] at h
    · exact h
    · cases h
  case releases =>
    intro t hb hh
    obtain ⟨-, h | ⟨-, h⟩⟩ := htc t
    · exact .inl (by rw [h, hb, haltTc_clear hh])
    · exact .inr h
  case others =>
    intro z hz
    rw [heq, pick_cell_ne _ _ _ hz, tcHalted_cell_ne _ _ _ _ hz]
  case mem => rw [heq, pick_mem]; rfl
  case regs =>
    rw [heq]
    exact ((regsBut_tcHalted s.dev c halt.toNat).mono (by simp)).trans (hpick.mono (by simp))

theorem does_dbgClr (up : s.dev.hostUp (Reg.DBG_CTL c) = true) (may : s.dev.mayDbg v c = true) :
    Does (.dbgClr v c) s fun e => (∀ o ∈ dbgCounters c, e.rd o = 0#64) ∧ RegsBut (dbgCounters c) s.dev e ∧ OnlyRegs s.dev e := by
  refine does_hostDone (f := opDbgClr v c) rfl up ?_
  rw [opDbgClr_of_may may]
  exact ⟨fun o ho => by rw [foldl_wr_zero_rd, if_pos ho]; rfl, fun o ho => by rw [foldl_wr_zero_rd, if_neg ho], foldl_wr_onlyRegs _ _⟩

end

/-- Settles O17: through a view that may, each command is a field write or a run of register writes; through one that may not, it is the record of R10. -/
theorem debugControl : Obligations.DebugControl := by
  refine ⟨fun s v c up may => ⟨fun halt => does_dbgTcHalt s v c halt up may, fun f => ?_, does_dbgClr s v c up may⟩,
    fun s v c p cmd hcmd up ho hs hroom => ?_⟩
  · refine does_hostDone (f := opFreeze v c f) rfl up ?_
    rw [opFreeze_of_may f may]
    exact ⟨fieldNow_wf _ _ _ _ (by decide), rfl⟩
  · obtain ⟨hhalt, hfreeze, hclr⟩ := dbg_locked (v := v) ho hs
    have hrec := lockRec_record v p (Reg.DBG_CTL c) hroom
    simp only [List.mem_cons, List.not_mem_nil, or_false] at hcmd
    obtain rfl | rfl | rfl | rfl | rfl := hcmd
    · exact does_hostDone (f := opTcHalt v c 0) rfl up (by rw [hhalt]; exact hrec)
    · exact does_hostDone (f := opTcHalt v c 15) rfl up (by rw [hhalt]; exact hrec)
    · exact does_hostDone (f := opFreeze v c true) rfl up (by rw [hfreeze]; exact hrec)
    · exact does_hostDone (f := opFreeze v c false) rfl up (by rw [hfreeze]; exact hrec)
    · exact does_hostDone (f := opDbgClr v c) rfl up (by rw [hclr]; exact hrec)

end Sys2Proof.Proofs

/-! ## What a queue pair sends (R381, R387) -/

namespace Sys2Proof.Machine

open Sys2Proof.Safety

/-- What decides whether and where queue pair q sends is as before, and nothing has gone out. -/
structure PortAsBefore (q : Nat) (d e : Dev) : Prop where
  word : e.rd (Reg.LNK_QP q 0) = d.rd (Reg.LNK_QP q 0)
  hp : e.hp = d.hp
  ps : e.ps = d.ps
  out : e.out = d.out

section
variable {q : Nat} {d e : Dev} (h : PortAsBefore q d e)
include h

theorem PortAsBefore.qpPort : e.qpPort q = d.qpPort q := by rw [Dev.qpPort, Dev.qpPort, Dev.rf, Dev.rf, h.word]

theorem PortAsBefore.qpPrio : e.qpPrio q = d.qpPrio q := by rw [Dev.qpPrio, Dev.qpPrio, Dev.rf, Dev.rf, h.word]

theorem PortAsBefore.hostPort (i : Nat) : e.hostPort i = d.hostPort i := by rw [Dev.hostPort, Dev.hostPort, h.hp]

theorem PortAsBefore.mayTransmit : e.mayTransmit q = d.mayTransmit q := by
  rw [Dev.mayTransmit, Dev.mayTransmit, h.qpPort, h.qpPrio, h.ps, h.hostPort]

end

/-- Output o of queue pair q has gone out, or waits at its port while its priority is paused (R387). -/
def Put (q : Nat) (o : Output) (d e : Dev) : Prop :=
  e.out = (if d.mayTransmit q then o :: d.out else d.out) ∧
    (d.mayTransmit q = false → (e.hostPort (d.qpPort q)).waiting = (d.hostPort (d.qpPort q)).waiting ++ [(d.qpPrio q, o)])

theorem Put.after {q : Nat} {o : Output} {d e f : Dev} (h : PortAsBefore q d e) (k : Put q o e f) : Put q o d f := by
  unfold Put at k ⊢
  rw [h.mayTransmit, h.qpPort, h.qpPrio, h.out, h.hostPort (d.qpPort q)] at k
  exact k

theorem hostOut_put (d : Dev) (q : Nat) (o : Output) : Put q o d (d.hostOut q o) := by
  cases h : d.mayTransmit q <;> simp [Put, Dev.hostOut, h, Dev.emit]

@[simp] theorem hostOut_regs (d : Dev) (q : Nat) (o : Output) : (d.hostOut q o).regs = d.regs := by unfold Dev.hostOut; split <;> rfl
@[simp] theorem hostOut_mem (d : Dev) (q : Nat) (o : Output) : (d.hostOut q o).mem = d.mem := by unfold Dev.hostOut; split <;> rfl
@[simp] theorem hostOut_fab (d : Dev) (q : Nat) (o : Output) : (d.hostOut q o).fab = d.fab := by unfold Dev.hostOut; split <;> rfl
@[simp] theorem hostOut_srv (d : Dev) (q : Nat) (o : Output) : (d.hostOut q o).srv = d.srv := by unfold Dev.hostOut; split <;> rfl
@[simp] theorem hostOut_fltq (d : Dev) (q : Nat) (o : Output) : (d.hostOut q o).fltq = d.fltq := by unfold Dev.hostOut; split <;> rfl

/-- The counters that move when queue pair q sends: its own and its port's. -/
def Dev.trafficOf (d : Dev) (q : Nat) : List Nat := [Reg.LNK_QP q 7, Reg.LNK_HP_TX (d.qpPort q)]

theorem PortAsBefore.trafficOf {q : Nat} {d e : Dev} (h : PortAsBefore q d e) : e.trafficOf q = d.trafficOf q := by
  rw [Dev.trafficOf, Dev.trafficOf, h.qpPort]

theorem qpPort_lt (d : Dev) (q : Nat) : d.qpPort q < 4 := Nat.mod_lt _ (by decide)

/-- The counters of a queue pair's traffic are apart from its first word. -/
theorem qpWord_not_traffic (d : Dev) (q : Nat) : Reg.LNK_QP q 0 ∉ d.trafficOf q := by
  have := qpPort_lt d q
  simp only [Dev.trafficOf, List.mem_cons, List.not_mem_nil, or_false, Reg.LNK_QP, Reg.LNK_HP_TX]
  omega

/-- The packets of an answer are counted before it goes to the port. -/
def Dev.counted (d : Dev) (q n : Nat) : Dev := (d.addf (Reg.LNK_QP q 7) Fld.LNK_QP7_PKTS n).bump (Reg.LNK_HP_TX (d.qpPort q)) n

theorem answer_eq (d : Dev) (q n : Nat) (o : Output) : d.answer q n o = (d.counted q n).hostOut q o := rfl

theorem regsBut_counted (d : Dev) (q n : Nat) : RegsBut (d.trafficOf q) d (d.counted q n) :=
  ((regsBut_addf d _ _ n).mono (by simp [Dev.trafficOf])).trans ((regsBut_bump _ _ n).mono (by simp [Dev.trafficOf]))

theorem portAsBefore_counted (d : Dev) (q n : Nat) : PortAsBefore q d (d.counted q n) :=
  ⟨regsBut_counted d q n _ (qpWord_not_traffic d q), rfl, rfl, rfl⟩

theorem answer_put (d : Dev) (q n : Nat) (o : Output) : Put q o d (d.answer q n o) := by
  rw [answer_eq]
  exact .after (portAsBefore_counted d q n) (hostOut_put _ q o)

theorem regsBut_answer (d : Dev) (q n : Nat) (o : Output) : RegsBut (d.trafficOf q) d (d.answer q n o) :=
  (regsBut_counted d q n).trans (.of_regs _ (hostOut_regs _ q o))

@[simp] theorem answer_mem (d : Dev) (q n : Nat) (o : Output) : (d.answer q n o).mem = d.mem := hostOut_mem ..
@[simp] theorem answer_fab (d : Dev) (q n : Nat) (o : Output) : (d.answer q n o).fab = d.fab := hostOut_fab ..
@[simp] theorem answer_srv (d : Dev) (q n : Nat) (o : Output) : (d.answer q n o).srv = d.srv := hostOut_srv ..
@[simp] theorem answer_fltq (d : Dev) (q n : Nat) (o : Output) : (d.answer q n o).fltq = d.fltq := hostOut_fltq ..

/-- A record does not touch a queue pair's port. -/
theorem portAsBefore_raise (d : Dev) (f : FaultInfo) {q : Nat} (hq : q < 4096) : PortAsBefore q d (d.raise f) := by
  refine ⟨regsBut_raise d f _ ?_, raise_hp d f, raise_ps d f, raise_out d f⟩
  simp only [List.mem_singleton, Reg.LNK_QP, Reg.FLT_STAT]
  omega

/-- A refused access (R383): the NAK for a remote access error, and one record with the queue pair and the address. -/
theorem refuseAccess_put (d : Dev) (v va : Nat) {q : Nat} (hq : q < 4096) : Put q (.rdmaNak q .access) d (d.refuseAccess v q va) :=
  .after (portAsBefore_raise d _ hq) (answer_put _ q 1 _)

theorem refuseAccess_recorded {d : Dev} (v q va : Nat) (h : d.fltq.length < 64) :
    Recorded d (d.refuseAccess v q va) cHostProto 0x1011 (q + va % 2 ^ 32 * 2 ^ 16) :=
  recorded_of_fltq (recorded_raise { notice cHostProto 0x1011 (q + va % 2 ^ 32 * 2 ^ 16) with part := viewPart v } h) (answer_fltq ..)

theorem regsBut_refuseAccess (d : Dev) (v va : Nat) {q : Nat} (hq : q < 4096) :
    RegsBut (Reg.FLT_STAT :: d.trafficOf q) d (d.refuseAccess v q va) := by
  have hp := portAsBefore_raise d { notice cHostProto 0x1011 (q + va % 2 ^ 32 * 2 ^ 16) with part := viewPart v } hq
  refine ((regsBut_raise d _).mono (by simp)).trans ((regsBut_answer _ q 1 _).mono ?_)
  rw [hp.trafficOf]
  exact List.subset_cons_self ..

@[simp] theorem refuseAccess_mem (d : Dev) (v q va : Nat) : (d.refuseAccess v q va).mem = d.mem := (answer_mem ..).trans (raise_mem ..)
@[simp] theorem refuseAccess_fab (d : Dev) (v q va : Nat) : (d.refuseAccess v q va).fab = d.fab := (answer_fab ..).trans (raise_fab ..)
@[simp] theorem refuseAccess_srv (d : Dev) (v q va : Nat) : (d.refuseAccess v q va).srv = d.srv := (answer_srv ..).trans (raise_srv ..)

/-! ## Activity (R312) -/

/-- Gathered activity changes the scheduler's counters only. -/
theorem charge_sch (d : Dev) (p i n : Nat) : ∃ σ, d.charge p i n = { d with sch := σ } := by
  unfold Dev.charge
  dsimp only
  split
  · exact ⟨d.sch, rfl⟩
  · exact ⟨_, rfl⟩

theorem chargeHost_sch (d : Dev) (q n : Nat) : ∃ σ, d.chargeHost q n = { d with sch := σ } := by
  unfold Dev.chargeHost
  split
  · exact charge_sch ..
  · exact ⟨d.sch, rfl⟩

theorem chargeView_sch (d : Dev) (v a n : Nat) : ∃ σ, d.chargeView v a n = { d with sch := σ } := by
  unfold Dev.chargeView Dev.chargeMem
  split
  · split
    · exact ⟨d.sch, rfl⟩
    · exact charge_sch ..
  · exact ⟨d.sch, rfl⟩

/-- The bytes of a host access are gathered for the queue pair and for the view. -/
theorem chargeAccess_sch (d : Dev) (q v a n : Nat) : ∃ σ, (d.chargeHost q n).chargeView v a n = { d with sch := σ } := by
  obtain ⟨σ, h⟩ := chargeHost_sch d q n
  rw [h]
  exact chargeView_sch { d with sch := σ } v a n

/-! ## Bytes that a host writes (R147, R385) -/

theorem byte_congr {d e : Dev} (h : e.mem = d.mem) (a : Nat) : e.byte a = d.byte a := by rw [Dev.byte, Dev.byte, h]

theorem bytes_of_byte (d : Dev) (a : Nat) (bs : List Byte) (h : ∀ i, i < bs.length → d.byte (a + i) = bs.getD i 0#8) : d.bytes a bs.length = bs := by
  induction bs generalizing a with
  | nil => rfl
  | cons b bs ih =>
    rw [List.length_cons, bytes_succ]
    congr 1
    · exact h 0 (by simp)
    · refine ih (a + 1) fun i hi => ?_
      rw [show a + 1 + i = a + (i + 1) by omega]
      exact h (i + 1) (by simpa using hi)

/-- Bytes written change memory only. -/
theorem setBytes_frame (d : Dev) (a : Nat) (bs : List Byte) : d.setBytes a bs = { d with mem := (d.setBytes a bs).mem } := by
  induction bs generalizing d a with
  | nil => rfl
  | cons b bs ih => exact ih (d.setByte a b) (a + 1)

/-- Numbered bytes written from an address on, but for the addresses that are kept. -/
def Dev.setBytesBut (d : Dev) (keep : Nat → Bool) (a : Nat) (l : List (Byte × Nat)) : Dev :=
  l.foldl (fun (e : Dev) x => if keep (a + x.2) then e else e.setByte (a + x.2) x.1) d

theorem setBytesBut_cons (d : Dev) (keep : Nat → Bool) (a k : Nat) (b : Byte) (l : List (Byte × Nat)) :
    d.setBytesBut keep a ((b, k) :: l) = (if keep (a + k) then d else d.setByte (a + k) b).setBytesBut keep a l := rfl

theorem setBytesBut_frame (d : Dev) (keep : Nat → Bool) (a : Nat) (l : List (Byte × Nat)) :
    d.setBytesBut keep a l = { d with mem := (d.setBytesBut keep a l).mem } := by
  induction l generalizing d with
  | nil => rfl
  | cons x l ih =>
    obtain ⟨b, k⟩ := x
    rw [setBytesBut_cons]
    split
    · exact ih d
    · exact ih (d.setByte (a + k) b)

theorem setBytesBut_byte (d : Dev) (keep : Nat → Bool) (a k y : Nat) (bs : List Byte) :
    (d.setBytesBut keep a (bs.zipIdx k)).byte y =
      if a + k ≤ y ∧ y < a + k + bs.length ∧ keep y = false then bs.getD (y - (a + k)) 0#8 else d.byte y := by
  induction bs generalizing d k with
  | nil => exact (if_neg (by simp; omega)).symm
  | cons b bs ih =>
    have hfst : (if keep (a + k) then d else d.setByte (a + k) b).byte y = if y = a + k ∧ keep y = false then b else d.byte y := by
      by_cases hy : y = a + k
      · subst hy
        cases hk : keep (a + k) <;> simp
      · simp only [hy, false_and, if_false]
        split
        · rfl
        · exact byte_setByte_ne d _ y b hy
    rw [List.zipIdx_cons, setBytesBut_cons, ih, hfst]
    by_cases hy : y = a + k
    · subst hy
      rw [if_neg (by omega)]
      simp
    · obtain h | h := Nat.lt_or_ge y (a + k)
      · simp [hy, show ¬ a + k ≤ y by omega, show ¬ a + (k + 1) ≤ y by omega]
      · obtain ⟨i, rfl⟩ : ∃ i, y = a + k + (i + 1) := ⟨y - (a + k) - 1, by omega⟩
        rw [show a + k + (i + 1) - (a + k) = i + 1 by omega, show a + k + (i + 1) - (a + (k + 1)) = i by omega]
        simp only [List.getD_cons_succ, List.length_cons, hy, false_and, if_false]
        exact ite_congr (propext ⟨fun ⟨_, _, hk⟩ => ⟨by omega, by omega, hk⟩, fun ⟨_, _, hk⟩ => ⟨by omega, by omega, hk⟩⟩) (fun _ => rfl)
          fun _ => rfl

/-- A byte of a registered image lies in a range that touches the image. -/
theorem imageHit_of_byte {d : Dev} {a n i : Nat} (hi : i < n) (h : d.imageHit (a + i) 1 = true) : d.imageHit a n = true := by
  unfold Dev.imageHit at h ⊢
  rw [List.any_eq_true] at h ⊢
  obtain ⟨x, hx, h⟩ := h
  refine ⟨x, hx, ?_⟩
  split at h
  · simp only [Bool.and_eq_true, decide_eq_true_eq] at h ⊢
    obtain ⟨⟨hvalid, hlo⟩, hhi⟩ := h
    exact ⟨⟨hvalid, by omega⟩, by omega⟩
  · exact h

theorem hostBytes_free {d : Dev} (v : Nat) {a : Nat} {bs : List Byte} (h : d.imageHit a bs.length = false) : d.hostBytes v a bs = d.setBytes a bs := by
  simp [Dev.hostBytes, h]

/-- A host write that touches a registered image: its bytes are kept, the others written, and the first of its bytes is recorded. -/
theorem hostBytes_hit {d : Dev} (v : Nat) {a : Nat} {bs : List Byte} (h : ∃ i, i < bs.length ∧ d.imageHit (a + i) 1 = true) :
    ∃ i, i < bs.length ∧ d.imageHit (a + i) 1 = true ∧
      d.hostBytes v a bs = (d.setBytesBut (fun y => d.imageHit y 1) a bs.zipIdx).refuse v (notice cRo 0x0941 (a + i)) := by
  obtain ⟨j, hj, hhit⟩ := h
  have hsome : ((List.range bs.length).find? fun i => d.imageHit (a + i) 1).isSome := by
    rw [List.find?_isSome]
    exact ⟨j, List.mem_range.mpr hj, hhit⟩
  obtain ⟨i, hi⟩ := Option.isSome_iff_exists.mp hsome
  refine ⟨i, List.mem_range.mp (List.mem_of_find?_eq_some hi), by simpa using List.find?_some hi, ?_⟩
  rw [Dev.hostBytes, if_pos (imageHit_of_byte hj hhit), hi]
  rfl

end Sys2Proof.Machine

/-! ## Incoming RDMA operations, case by case (R381 to R385) -/

namespace Sys2Proof.Machine

open Sys2Proof.Safety

section
variable {d : Dev} {q : Nat} (va rkey : Nat) (ans : d.qpAnswers q = true)
include ans

theorem opRdmaWrite_long {data : List Byte} (h : maxMessage < data.length) :
    opRdmaWrite q va rkey data d = d.answer q 1 (.rdmaNak q .invalid) := by
  simp [opRdmaWrite, ans, h]

theorem opRdmaRead_long {len : Nat} (h : maxMessage < len) : opRdmaRead q va rkey len d = d.answer q 1 (.rdmaNak q .invalid) := by
  simp [opRdmaRead, ans, h]

theorem opRdmaWrite_nil : opRdmaWrite q va rkey [] d = d.answer q 1 (.rdmaReply q []) := by
  simp [opRdmaWrite, ans]

theorem opRdmaRead_zero : opRdmaRead q va rkey 0 d = d.answer q 1 (.rdmaReply q []) := by
  simp [opRdmaRead, ans]

/-- A WRITE into the view's T1 region. -/
theorem opRdmaWrite_t1 {data : List Byte} (h0 : data ≠ []) (hn : data.length ≤ maxMessage)
    (h : d.rdmaRegion (d.viewOfQp q) va rkey data.length = .t1) :
    opRdmaWrite q va rkey data d =
      (((d.chargeHost q data.length).chargeView (d.viewOfQp q) va data.length).hostBytes (d.viewOfQp q) va data).answer q 1 (.rdmaReply q []) := by
  simp [opRdmaWrite, ans, h0, Nat.not_lt.mpr hn, h]

theorem opRdmaWrite_refused {data : List Byte} (h0 : data ≠ []) (hn : data.length ≤ maxMessage)
    (h : d.rdmaRegion (d.viewOfQp q) va rkey data.length = .none ∨
      (d.rdmaRegion (d.viewOfQp q) va rkey data.length = .cs ∧ (va % 8 ≠ 0 ∨ data.length % 8 ≠ 0))) :
    opRdmaWrite q va rkey data d = d.refuseAccess (d.viewOfQp q) q va := by
  obtain h | ⟨h, hal⟩ := h
  · simp [opRdmaWrite, ans, h0, Nat.not_lt.mpr hn, h]
  · have hal' : ¬ (va % 8 = 0 ∧ data.length % 8 = 0) := by omega
    simp [opRdmaWrite, ans, h0, Nat.not_lt.mpr hn, h, hal']

/-- A READ of the view's T1 region while no commit is being applied. -/
theorem opRdmaRead_t1 {len : Nat} (h0 : len ≠ 0) (hn : len ≤ maxMessage) (h : d.rdmaRegion (d.viewOfQp q) va rkey len = .t1)
    (free : d.applyingFor (d.viewOfQp q) = false) :
    opRdmaRead q va rkey len d =
      ((d.chargeHost q len).chargeView (d.viewOfQp q) va len).answer q (qpPackets len) (.rdmaReply q (d.bytes va len)) := by
  simp [opRdmaRead, ans, h0, Nat.not_lt.mpr hn, h, free]

/-- A READ of one word of the control space while no commit is being applied. -/
theorem opRdmaRead_word (h : d.rdmaRegion (d.viewOfQp q) va rkey 8 = .cs) (hal : va % 8 = 0) (free : d.applyingFor (d.viewOfQp q) = false) :
    opRdmaRead q va rkey 8 d = (d.chargeHost q 8).answer q 1 (.rdmaReply q (toLe 8 (csRead (d.viewOfQp q) (va - csBase) d).toNat)) := by
  simp [opRdmaRead, ans, maxMessage, h, hal, free, csBytes]

theorem opRdmaRead_refused {len : Nat} (h0 : len ≠ 0) (hn : len ≤ maxMessage)
    (h : d.rdmaRegion (d.viewOfQp q) va rkey len = .none ∨
      (d.rdmaRegion (d.viewOfQp q) va rkey len = .cs ∧ (va % 8 ≠ 0 ∨ len % 8 ≠ 0 ∨ 4096 < len))) :
    opRdmaRead q va rkey len d = d.refuseAccess (d.viewOfQp q) q va := by
  obtain h | ⟨h, hal⟩ := h
  · simp [opRdmaRead, ans, h0, Nat.not_lt.mpr hn, h]
  · have hal' : ¬ (va % 8 = 0 ∧ len % 8 = 0 ∧ len ≤ 4096) := by omega
    simp only [opRdmaRead, ans, h0, Nat.not_lt.mpr hn, h, hal', Bool.not_true, Bool.false_eq_true, if_false]

/-- A READ that finds a commit being applied is held, but for one beyond the 16 that a responder holds. -/
theorem opRdmaRead_held {len : Nat} (h0 : len ≠ 0) (hn : len ≤ maxMessage) (h : d.rdmaRegion (d.viewOfQp q) va rkey len ≠ .none)
    (hal : d.rdmaRegion (d.viewOfQp q) va rkey len = .cs → va % 8 = 0 ∧ len % 8 = 0 ∧ len ≤ 4096) (busy : d.applyingFor (d.viewOfQp q) = true) :
    opRdmaRead q va rkey len d =
      if 16 ≤ (d.srv.held.filter fun h => h.qp == q).length then d.answer q 1 (.rdmaNak q .invalid)
      else { d with srv := { d.srv with held := d.srv.held ++ [⟨q, va, rkey, len⟩] } } := by
  simp only [opRdmaRead, ans, h0, Nat.not_lt.mpr hn, Bool.not_true, Bool.false_eq_true, if_false]
  cases hr : d.rdmaRegion (d.viewOfQp q) va rkey len with
  | none => exact absurd hr h
  | cs => simp only [hal hr, and_self, if_true, busy]
  | t1 => simp only [busy, if_true]

end

/-! ## Data of the Drimar's own READs (R381) -/

/-- Where every operation is on its way, no READ waits to go out. -/
theorem openReads_of_sent {d : Dev} {q : Nat} (n : Nat) (h : ∀ t ∈ (d.qp q).reqs, t.sent = true) : Dev.openReads q n d = d := by
  have hnone : (d.qp q).reqs.find? (fun r => !r.sent) = none := by simpa [List.find?_eq_none] using h
  cases n with
  | zero => rfl
  | succ n => simp only [Dev.openReads, hnone, ite_self]

/-- The data of the oldest READ: the READ leaves its queue pair, and its data goes where it was asked for. -/
theorem opRdmaReadResponse_eq {d : Dev} {q : Nat} {data : List Byte} {r : QpReq} (rts : d.qpRts q = true)
    (hr : ((d.qp q).reqs.find? fun t => t.op == 1 && t.sent) = some r) (hl : data.length = r.len) (hs : ∀ t ∈ (d.qp q).reqs, t.sent = true) :
    ∃ σ, opRdmaReadResponse q data d =
      (Dev.setQp { d with sch := σ } q { d.qp q with reqs := (d.qp q).reqs.erase r }).useRead r.use data := by
  obtain ⟨σ, hσ⟩ := chargeHost_sch d q data.length
  refine ⟨σ, ?_⟩
  simp only [opRdmaReadResponse, hr, rts, hl, and_self, if_true]
  rw [← hl, hσ, openReads_of_sent]
  intro t ht
  rw [setQp_read] at ht
  exact hs t (List.mem_of_mem_erase ht)

/-- A HEAD word for an entry that no partition holds is kept, and nothing more. -/
theorem takeHead_of_nobody {d : Dev} {n : Nat} (m : Nat) (h : d.partOfReq n = none) :
    d.takeHead n m = { d with srv := { d.srv with heads := sput (fun _ => 0) d.srv.heads n m } } := by
  have h' : Dev.partOfReq { d with srv := { d.srv with heads := sput (fun _ => 0) d.srv.heads n m } } n = none := h
  simp only [Dev.takeHead, h']

/-! ## Writes of the control space (R5 to R10) -/

theorem csWrite_unreached {v off : Nat} {d : Dev} (val : Word)
    (h : regAt off = none ∨ d.hostUp off = false ∨ ∃ r, regAt off = some r ∧ r.1.access = .ro) : csWrite v off val d = d := by
  unfold csWrite
  obtain h | h | ⟨⟨r, ix⟩, h, hro⟩ := h
  · simp [h]
  · cases regAt off with
    | none => rfl
    | some x => simp [h]
  · have hro : r.access = .ro := hro
    simp [h, hro]

theorem csWrite_locked {v off p : Nat} {d : Dev} {r : RegRow} {ix : List Nat} (val : Word) (h : regAt off = some (r, ix)) (hl : r.access = .rwl)
    (ho : d.regOwner r.base (ix.headD 0) = .part p) (hs : d.sealed p = true) (up : d.hostUp off = true) : csWrite v off val d = d.lockRec v p off := by
  simp only [csWrite, h, hl, up, Bool.not_true, Bool.false_eq_true, reduceCtorEq, or_self, if_false, if_true, ho, hs]

/-- A register that the sealing of its partition does not lock is written. -/
theorem csWrite_open {v off : Nat} {d : Dev} {r : RegRow} {ix : List Nat} (val : Word) (h : regAt off = some (r, ix)) (hro : r.access ≠ .ro)
    (ho : r.access = .rwl → ∀ p, d.regOwner r.base (ix.headD 0) = .part p → d.sealed p = false) (up : d.hostUp off = true) :
    csWrite v off val d = d.regWrite v off r ix val := by
  simp only [csWrite, h, up, hro, Bool.not_true, Bool.false_eq_true, or_self, if_false]
  split
  next p hp =>
    split at hp
    next hl => rw [ho hl p hp]; rfl
    next => cases hp
  next => rfl

/-- Rows whose registers have a rule of their own, by their bases. -/
def ruledBases : List Nat :=
  [Reg.DBG_CTL 0, Reg.MOLT_CMD 0, Reg.MEM_FQ_LIMIT 0, Reg.MEM_LD_BASE 0, Reg.MEM_LD_TAIL 0, Reg.MEM_MS_CMD 0, Reg.STEP_DB 0, Reg.STEP_PFX_CMD 0,
   Reg.STEP_CTL 0, Reg.REQ_ENT 0 0, Reg.XPT_CTL, Reg.SCHED_CTX 0, Reg.PART_CMD, Reg.PART_GLB, Reg.PART_SHARE 0, Reg.PART_CAP 0, Reg.ACCT_CMD,
   Reg.LNK_DOMAIN 0, Reg.LNK_BL_CTL 0, Reg.LNK_FP_CTL 0, Reg.LNK_RING_CTL, Reg.LNK_RB_CFG 0, Reg.CLK_FC_CMD, Reg.CLK_DRST, Reg.TIME_CTL, Reg.PWR_HB,
   Reg.PWR_FIXED 0, Reg.BOOT_CMD, Reg.PSR_WORD 0, Reg.PSR_GRP_CMD, Reg.SEC_CMD 0, Reg.SEC_DBG_LOCK, Reg.PWR_CAP, Reg.LNK_HP_CFG 0, Reg.SCHED_PMAX 0,
   Reg.STEP_DEADLINE_MARGIN 0]

/-- A row whose write is a store under its mask: it has no rule of its own, and holds no queue pair and no launch slot. -/
def storedPlainly (b : Nat) : Bool :=
  !ruledBases.contains b && !(decide (0xE80000 ≤ b) && decide (b < 0xF00000)) && !(decide (Reg.TIME_LAUNCH_T 0 ≤ b) && decide (b ≤ Reg.TIME_LAUNCH_DIG 0))

theorem regWrite_stored {v off : Nat} {d : Dev} {r : RegRow} {ix : List Nat} (val : Word) (hp : storedPlainly r.base = true)
    (hw : d.writable v r.base (ix.headD 0) = true) : d.regWrite v off r ix val = d.store off r.mask val := by
  simp only [storedPlainly, Bool.and_eq_true, Bool.not_eq_true', List.contains_eq_mem, decide_eq_false_iff_not, ruledBases, List.mem_cons, not_or,
    Bool.and_eq_false_imp, decide_eq_true_eq] at hp
  obtain ⟨⟨hbase, hqp⟩, hslot⟩ := hp
  have hqp' : ¬ (0xE80000 ≤ r.base ∧ r.base < 0xF00000) := fun h => hqp h.1 h.2
  have hslot' : ¬ (Reg.TIME_LAUNCH_T 0 ≤ r.base ∧ r.base ≤ Reg.TIME_LAUNCH_DIG 0) := fun h => hslot h.1 h.2
  simp only [Dev.regWrite, hbase, hqp', hslot', hw, if_false, Bool.not_true, Bool.false_eq_true]

/-- A store keeps the bits outside the mask, and every other register. -/
theorem store_kept (d : Dev) (off mask : Nat) (val : Word) :
    (d.store off mask val).rd off = (d.rd off &&& ~~~(BitVec.ofNat 64 mask)) ||| (val &&& BitVec.ofNat 64 mask) ∧
      RegsBut [off] d (d.store off mask val) ∧ OnlyRegs d (d.store off mask val) := ⟨wr_read .., regsBut_wr d off _, rfl⟩

/-- Rows that have one register for each partition, which is its owner. -/
def ownedByIndex (b : Nat) : Bool := (blockOf b == 8 && decide (b < Reg.MOLT_HSTAT 0)) || (blockOf b == 9 && decide (b < Reg.STEP_GEOM0 0))

theorem regOwner_of_ownedByIndex (d : Dev) {b : Nat} (i : Nat) (h : ownedByIndex b = true) : d.regOwner b i = .part i := by
  simp only [ownedByIndex, Bool.or_eq_true, Bool.and_eq_true, beq_iff_eq, decide_eq_true_eq] at h
  obtain ⟨hb, h⟩ | ⟨hb, h⟩ := h
  · simp [Dev.regOwner, hb, Nat.not_le.mpr h]
  · simp [Dev.regOwner, hb, h]

/-- The view of a partition, or the operator view while the partition is not sealed, writes the partition's registers. -/
theorem writable_of_ownedByIndex {d : Dev} {b v p : Nat} (h : ownedByIndex b = true) (hs : d.sealed p = false) (hv : v = 0 ∨ v = p + 1) :
    d.writable v b p = true := by
  have hm : d.mayRead v (.part p) = true := by
    obtain rfl | rfl := hv <;> simp [Dev.mayRead, hs]
  have ho := regOwner_of_ownedByIndex d p h
  simp only [ownedByIndex, Bool.or_eq_true, Bool.and_eq_true, beq_iff_eq] at h
  obtain ⟨hb, -⟩ | ⟨hb, -⟩ := h <;> simp [Dev.writable, hb, ho, hm]

/-- An offset names a register of partition p, stored under a mask. -/
def partStored (off mask p : Nat) : Bool :=
  off % 8 == 0 && (regAt off).any fun x => x.2 == [p] && x.1.mask == mask && x.1.access != .ro && storedPlainly x.1.base && ownedByIndex x.1.base

/-- An offset names a register of the device in a block that the operator view writes, stored under a mask. -/
def operatorStored (off mask : Nat) : Bool :=
  off % 8 == 0 && (regAt off).any fun x => x.2 == [] && x.1.mask == mask && x.1.access == .rw && storedPlainly x.1.base &&
    ([1, 2, 3, 4, 5, 7].contains (blockOf x.1.base) || x.1.base == Reg.MEM_PATROL_CTL)

/-- Stored registers of partition p, and of the device, with the bits that a write stores. -/
def partRegisters (p : Nat) : List (Nat × Nat) :=
  [(Reg.MOLT_IMG_ADDR p, 0xFFFFFFFFFFFF), (Reg.MOLT_PLACE_ADDR p, 0xFFFFFFFFFFFF), (Reg.STEP_BLK p, 0xFFFFFFFFFFFF), (Reg.STEP_BLK_T1 p, 0xFFFFFFFFFFFF),
   (Reg.STEP_EVT_CFG p, 0xFFFFFFFF0FFF001F), (Reg.STEP_PFX_ARG p, 0xFFFFFFFFFFFFFFFF)]

def operatorRegisters : List (Nat × Nat) :=
  [(Reg.BOOT_FW_SRC, 0xFFFFFFFFFFFF), (Reg.BOOT_FW_LEN, 0xFFFFFF), (Reg.CLK_MON_CTL, 3), (Reg.TIME_CFG, 0xFFFFFFFF), (Reg.BIST_CTL, 1), (Reg.MEM_PATROL_CTL, 1)]

theorem partRegisters_stored : ∀ p : PartIdx, ∀ z ∈ partRegisters p, partStored z.1 z.2 p = true := by decide +kernel

theorem operatorRegisters_stored : ∀ z ∈ operatorRegisters, operatorStored z.1 z.2 = true := by decide +kernel

theorem opRegisterWrite_aligned {off : Nat} (v : Nat) (val : Word) (d : Dev) (h : off % 8 = 0) : opRegisterWrite v off val d = csWrite v off val d := if_pos h

/-- A write of a stored register of partition p through a view that may. -/
theorem opRegisterWrite_part {d : Dev} {v off mask p : Nat} (val : Word) (h : partStored off mask p = true) (hs : d.sealed p = false)
    (hv : v = 0 ∨ v = p + 1) (up : d.hostUp off = true) : opRegisterWrite v off val d = d.store off mask val := by
  simp only [partStored, Bool.and_eq_true, beq_iff_eq, Option.any_eq_true, bne_iff_ne] at h
  obtain ⟨hal, ⟨r, ix⟩, hr, ⟨⟨⟨hix, hmask⟩, hro⟩, hplain⟩, hown⟩ := h
  dsimp only at hix hmask hro hplain hown
  subst hix hmask
  have ho := regOwner_of_ownedByIndex d p hown
  rw [opRegisterWrite_aligned v val d hal, csWrite_open val hr hro _ up, regWrite_stored (ix := [p]) val hplain (writable_of_ownedByIndex hown hs hv)]
  intro _ q hq
  obtain rfl : p = q := RegOwner.part.inj (ho.symm.trans hq)
  exact hs

/-- The operator view writes the registers of the device's blocks. -/
theorem writable_of_operator (d : Dev) {b : Nat} (h : blockOf b ∈ [1, 2, 3, 4, 5, 7] ∨ b = Reg.MEM_PATROL_CTL) : d.writable 0 b 0 = true := by
  obtain h | h := h
  · simp only [List.mem_cons, List.not_mem_nil, or_false] at h
    obtain h | h | h | h | h | h := h <;> simp [Dev.writable, h]
  · subst h
    have hb : blockOf Reg.MEM_PATROL_CTL = 0xD := by decide
    have hne : Reg.MEM_PATROL_CTL ≠ Reg.MEM_DEMAND 0 := by decide
    have hlt : Reg.MEM_PATROL_CTL < Reg.MEM_FQ_LIMIT 0 := by decide
    have ho : d.regOwner Reg.MEM_PATROL_CTL 0 = .device := by simp [Dev.regOwner, hb, hne, hlt]
    simp [Dev.writable, hb, ho, Dev.mayRead]

/-- A write of a stored register of the device through the operator view. -/
theorem opRegisterWrite_operator {d : Dev} {off mask : Nat} (val : Word) (h : operatorStored off mask = true) (up : d.hostUp off = true) :
    opRegisterWrite 0 off val d = d.store off mask val := by
  simp only [operatorStored, Bool.and_eq_true, Bool.or_eq_true, beq_iff_eq, Option.any_eq_true, List.contains_iff_mem] at h
  obtain ⟨hal, ⟨r, ix⟩, hr, ⟨⟨⟨hix, hmask⟩, hrw⟩, hplain⟩, hblock⟩ := h
  dsimp only at hix hmask hrw hplain hblock
  subst hix hmask
  rw [opRegisterWrite_aligned 0 val d hal, csWrite_open val hr (by simp [hrw]) (by simp [hrw]) up,
    regWrite_stored (ix := []) val hplain (writable_of_operator d hblock)]

end Sys2Proof.Machine

/-! ## Host accesses (R5 to R17, R381 to R385) -/

namespace Sys2Proof.Machine

open Sys2Proof.Safety

/-- An answer and nothing else: it goes to the port, and of the registers only the counters of its traffic move. -/
def AnswersOnly (q : Nat) (o : Output) (d e : Dev) : Prop :=
  Put q o d e ∧ e.fltq = d.fltq ∧ RegsBut (d.trafficOf q) d e ∧ e.mem = d.mem ∧ e.fab = d.fab ∧ e.srv = d.srv

theorem answer_only (d : Dev) (q n : Nat) (o : Output) : AnswersOnly q o d (d.answer q n o) :=
  ⟨answer_put .., answer_fltq .., regsBut_answer d q n o, answer_mem .., answer_fab .., answer_srv ..⟩

/-- Gathered activity is apart from what an answer reads and changes. -/
theorem answer_only_charged (d : Dev) (σ : Sched) (q n : Nat) (o : Output) : AnswersOnly q o d (Dev.answer { d with sch := σ } q n o) :=
  answer_only { d with sch := σ } q n o

/-- The access is refused: the NAK, one record and no other change. -/
def Refused (q va : Nat) (d e : Dev) : Prop :=
  Put q (.rdmaNak q .access) d e ∧ (d.fltq.length < 64 → Recorded d e cHostProto 0x1011 (q + va % 2 ^ 32 * 2 ^ 16)) ∧
    RegsBut (Reg.FLT_STAT :: d.trafficOf q) d e ∧ e.mem = d.mem ∧ e.fab = d.fab ∧ e.srv = d.srv

theorem refuseAccess_refused (d : Dev) (v va : Nat) {q : Nat} (hq : q < 4096) : Refused q va d (d.refuseAccess v q va) :=
  ⟨refuseAccess_put d v va hq, refuseAccess_recorded v q va, regsBut_refuseAccess d v va hq, refuseAccess_mem .., refuseAccess_fab .., refuseAccess_srv ..⟩

/-- A WRITE of T1 that touches no registered image writes its bytes, and is answered. -/
theorem opRdmaWrite_bytes {d : Dev} {q va rkey : Nat} {data : List Byte} (ans : d.qpAnswers q = true) (h0 : data ≠ []) (hn : data.length ≤ maxMessage)
    (hr : d.rdmaRegion (d.viewOfQp q) va rkey data.length = .t1) (hi : d.imageHit va data.length = false) :
    let e := opRdmaWrite q va rkey data d
    e.bytes va data.length = data ∧ BytesBut va data.length d e ∧ Put q (.rdmaReply q []) d e ∧ RegsBut (d.trafficOf q) d e ∧ e.fab = d.fab := by
  obtain ⟨σ, hσ⟩ := chargeAccess_sch d q (d.viewOfQp q) va data.length
  have hi' : Dev.imageHit { d with sch := σ } va data.length = false := hi
  intro e
  have he : e = (Dev.setBytes { d with sch := σ } va data).answer q 1 (.rdmaReply q []) := by
    rw [← hostBytes_free (d.viewOfQp q) hi', ← hσ]
    exact opRdmaWrite_t1 va rkey ans h0 hn hr
  have hmem : e.mem = (Dev.setBytes { d with sch := σ } va data).mem := by rw [he, answer_mem]
  have hframe := setBytes_frame { d with sch := σ } va data
  generalize (Dev.setBytes { d with sch := σ } va data).mem = m at hframe
  rw [hframe] at he
  obtain ⟨hput, -, hregs, -, hfab, -⟩ := answer_only { d with sch := σ, mem := m } q 1 (.rdmaReply q [])
  rw [← he] at hput hregs hfab
  refine ⟨bytes_of_byte e va data fun i hlt => ?_, fun x hx => ?_, hput, hregs, hfab⟩
  · rw [byte_congr hmem, byte_setBytes_in _ va i data hlt]
  · rw [byte_congr hmem, byte_setBytes_out _ va x data hx]; rfl

/-- A WRITE of T1 that touches a registered image: the image keeps its bytes, and the first of them that it would change is recorded. -/
theorem opRdmaWrite_image {d : Dev} {q va rkey : Nat} {data : List Byte} (ans : d.qpAnswers q = true) (h0 : data ≠ []) (hn : data.length ≤ maxMessage)
    (hr : d.rdmaRegion (d.viewOfQp q) va rkey data.length = .t1) (hi : ∃ i, i < data.length ∧ d.imageHit (va + i) 1 = true) (room : d.fltq.length < 64) :
    let e := opRdmaWrite q va rkey data d
    (∀ i, i < data.length → e.byte (va + i) = if d.imageHit (va + i) 1 then d.byte (va + i) else data.getD i 0) ∧ BytesBut va data.length d e ∧
      ∃ i, i < data.length ∧ d.imageHit (va + i) 1 = true ∧ Recorded d e cRo 0x0941 (va + i) := by
  obtain ⟨σ, hσ⟩ := chargeAccess_sch d q (d.viewOfQp q) va data.length
  obtain ⟨i, hlt, hhit, hw⟩ := hostBytes_hit (d := { d with sch := σ }) (d.viewOfQp q) hi
  intro e
  have he : e = ((Dev.setBytesBut { d with sch := σ } (fun y => d.imageHit y 1) va data.zipIdx).refuse (d.viewOfQp q) (notice cRo 0x0941 (va + i))).answer
      q 1 (.rdmaReply q []) := by
    refine (opRdmaWrite_t1 va rkey ans h0 hn hr).trans ?_
    rw [hσ, hw]
    rfl
  have hbyte : ∀ y, e.byte y = if va ≤ y ∧ y < va + data.length ∧ d.imageHit y 1 = false then data.getD (y - va) 0#8 else d.byte y := by
    intro y
    have hmem : e.mem = (Dev.setBytesBut { d with sch := σ } (fun y => d.imageHit y 1) va data.zipIdx).mem := by rw [he, answer_mem, Dev.refuse, raise_mem]
    rw [byte_congr hmem]
    exact setBytesBut_byte { d with sch := σ } (fun y => d.imageHit y 1) va 0 y data
  refine ⟨fun j hj => ?_, fun x hx => ?_, i, hlt, hhit, ?_⟩
  · rw [hbyte]
    cases hb : d.imageHit (va + j) 1 <;> simp [hj]
  · rw [hbyte, if_neg (by omega)]
  · have hframe := setBytesBut_frame { d with sch := σ } (fun y => d.imageHit y 1) va data.zipIdx
    rw [hframe] at he
    rw [he]
    exact recorded_of_fltq (d := { d with sch := σ, mem := _ }) (recorded_raise { notice cRo 0x0941 (va + i) with part := viewPart (d.viewOfQp q) } room)
      (answer_fltq ..)

/-- A SEND reaches firmware on a MGMT queue pair; any other answers with the NAK of an invalid request. -/
theorem opSend_delivers {d : Dev} {q : Nat} (data : List Byte) (ans : d.qpAnswers q = true) :
    let e := opSend q data d
    e.mem = d.mem ∧ e.fab = d.fab ∧
      (if d.rf (Reg.LNK_QP q 0) Fld.LNK_QP0_MGMT = 1 then e.out = .note "SEND" (q :: data.map fun (b : Byte) => b.toNat) :: d.out
        else Put q (.rdmaNak q .invalid) d e) := by
  have hst : d.qpState q = 2 ∨ d.qpState q = 3 := by simpa [Dev.qpAnswers] using ans
  intro e
  by_cases hm : d.rf (Reg.LNK_QP q 0) Fld.LNK_QP0_MGMT = 1
  · have he : e = d.note "SEND" (q :: data.map fun (b : Byte) => b.toNat) := by simp only [e, opSend, hst, hm, if_true]
    rw [he, if_pos hm]
    exact ⟨rfl, rfl, rfl⟩
  · have he : e = d.answer q 1 (.rdmaNak q .invalid) := by simp only [e, opSend, hst, hm, if_true, if_false]
    rw [he, if_neg hm]
    exact ⟨answer_mem .., answer_fab .., answer_put ..⟩

/-- A register write off the 8-byte boundaries is refused, on the queue pair drawn for it where that one carries the view and answers (log entry 53). -/
theorem opRegisterWrite_misaligned {d : Dev} {off : Nat} (v : Nat) (val : Word) (hal : off % 8 ≠ 0) (room : d.fltq.length < 64) :
    let z := d.draw.toNat % 4096
    let e := opRegisterWrite v off val d
    Recorded d e cHostProto 0x1011 (z + (csBase + off) % 2 ^ 32 * 2 ^ 16) ∧
      e.out = (if d.viewOfQp z = v ∧ d.qpAnswers z = true ∧ d.mayTransmit z = true then .rdmaNak z .access :: d.out else d.out) ∧
      RegsButTraffic [Reg.FLT_STAT] d e ∧ e.mem = d.mem ∧ e.fab = d.fab ∧ e.srv = d.srv := by
  intro z e
  have hz : z < 4096 := Nat.mod_lt _ (by decide)
  by_cases h : d.viewOfQp z = v ∧ d.qpAnswers z = true
  · have he : e = (d.refuseAccess v z (csBase + off)).drawn := by
      simp only [e, opRegisterWrite, hal, if_false]
      exact if_pos h
    obtain ⟨⟨hout, -⟩, hrec, hregs, hmem, hfab, hsrv⟩ := refuseAccess_refused d v (csBase + off) hz
    rw [he]
    refine ⟨hrec room, ?_, fun o ho ht => hregs o fun hm => ?_, hmem, hfab, hsrv⟩
    · refine hout.trans ?_
      simp only [h, true_and]
    · simp only [List.mem_cons, Dev.trafficOf, List.not_mem_nil, or_false] at hm ho
      obtain hm | hm | hm := hm
      · exact ho hm
      · exact ht (.inl ⟨_, hm⟩)
      · exact ht (.inr (.inl ⟨_, hm⟩))
  · have he : e = (d.refuse v (notice cHostProto 0x1011 (z + (csBase + off) % 2 ^ 32 * 2 ^ 16))).drawn := by
      simp only [e, opRegisterWrite, hal, if_false]
      exact if_neg h
    have hout : ¬ (d.viewOfQp z = v ∧ d.qpAnswers z = true ∧ d.mayTransmit z = true) := fun x => h ⟨x.1, x.2.1⟩
    rw [he, if_neg hout]
    exact ⟨recorded_raise { notice cHostProto 0x1011 (z + (csBase + off) % 2 ^ 32 * 2 ^ 16) with part := viewPart v } room, raise_out ..,
      fun o ho _ => regsBut_raise d _ o ho, raise_mem .., raise_fab .., raise_srv ..⟩

end Sys2Proof.Machine

namespace Sys2Proof.Proofs

open Sys2Proof Sys2Proof.Machine Sys2Proof.Safety

/-- A register write that stores its value under a mask. -/
theorem does_registerWrite_store {s : State} {w : View} {off : BitVec 28} {val : Word} {o mask : Nat}
    (h : opRegisterWrite w off.toNat val s.dev = s.dev.store o mask val) :
    Does (.registerWrite w off val) s fun e =>
      e.rd o = (s.dev.rd o &&& ~~~(BitVec.ofNat 64 mask)) ||| (val &&& BitVec.ofNat 64 mask) ∧ RegsBut [o] s.dev e ∧ OnlyRegs s.dev e :=
  does_done _ rfl (by rw [h]; exact store_kept ..)

section
variable (s : State) (q : QpIdx) (va : Word) (rkey : BitVec 32) (ans : s.dev.qpAnswers q = true)
include ans

/-- A READ of the view's T1 region is answered with its bytes. -/
theorem does_rdmaRead_t1 (len : BitVec 32) (h0 : len ≠ 0) (hn : len.toNat ≤ maxMessage)
    (hr : s.dev.rdmaRegion (s.dev.viewOfQp q) va.toNat rkey.toNat len.toNat = .t1) (free : s.dev.applyingFor (s.dev.viewOfQp q) = false) :
    Does (.rdmaRead q va rkey len) s fun e =>
      Put q (.rdmaReply q (s.dev.bytes va.toNat len.toNat)) s.dev e ∧ RegsBut (s.dev.trafficOf q) s.dev e ∧ e.mem = s.dev.mem := by
  have h0' : len.toNat ≠ 0 := fun h => h0 (BitVec.eq_of_toNat_eq h)
  refine does_done _ rfl ?_
  rw [opRdmaRead_t1 _ _ ans h0' hn hr free]
  obtain ⟨σ, hσ⟩ := chargeAccess_sch s.dev q (s.dev.viewOfQp q) va.toNat len.toNat
  rw [hσ]
  obtain ⟨hput, -, hregs, hmem, -⟩ := answer_only_charged s.dev σ q (qpPackets len.toNat) (.rdmaReply q (s.dev.bytes va.toNat len.toNat))
  exact ⟨hput, hregs, hmem⟩

/-- A READ of one word of the control space is answered with what the view reads there. -/
theorem does_rdmaRead_word (hr : s.dev.rdmaRegion (s.dev.viewOfQp q) va.toNat rkey.toNat 8 = .cs) (hal : va.toNat % 8 = 0)
    (free : s.dev.applyingFor (s.dev.viewOfQp q) = false) :
    Does (.rdmaRead q va rkey 8) s fun e =>
      Put q (.rdmaReply q (toLe 8 (csRead (s.dev.viewOfQp q) (va.toNat - csBase) s.dev).toNat)) s.dev e ∧ RegsBut (s.dev.trafficOf q) s.dev e ∧
        e.mem = s.dev.mem := by
  refine does_done _ (congrArg (done s) (opRdmaRead_word va.toNat rkey.toNat ans hr hal free)) ?_
  obtain ⟨σ, hσ⟩ := chargeHost_sch s.dev q 8
  rw [hσ]
  obtain ⟨hput, -, hregs, hmem, -⟩ := answer_only_charged s.dev σ q 1 (.rdmaReply q (toLe 8 (csRead (s.dev.viewOfQp q) (va.toNat - csBase) s.dev).toNat))
  exact ⟨hput, hregs, hmem⟩

end

/-- The data of a READ of the Drimar's own goes where it was asked for. -/
theorem does_rdmaReadResponse {s : State} {q : QpIdx} {data : List Byte} {r : QpReq} (rts : s.dev.qpRts q = true)
    (hr : ((s.dev.qp q).reqs.find? fun t => t.op == 1 && t.sent) = some r) (hl : data.length = r.len) (hs : ∀ t ∈ (s.dev.qp q).reqs, t.sent = true) :
    (r.use = .none → Does (.rdmaReadResponse q data) s fun e =>
      (e.qp q).reqs = (s.dev.qp q).reqs.erase r ∧ RegsBut [] s.dev e ∧ e.mem = s.dev.mem ∧ e.srv = s.dev.srv ∧ e.ldr = s.dev.ldr) ∧
    (∀ n, r.use = .prompt n → Does (.rdmaReadResponse q data) s fun e =>
      (e.qp q).reqs = (s.dev.qp q).reqs.erase r ∧ sget (fun _ => []) e.srv.prompts n = le32s data ∧ RegsBut [] s.dev e ∧ e.mem = s.dev.mem) ∧
    (∀ n, r.use = .ringHead n → s.dev.partOfReq n = none → Does (.rdmaReadResponse q data) s fun e =>
      sget (fun _ => 0) e.srv.heads n = leNat data ∧ RegsBut [] s.dev e ∧ e.mem = s.dev.mem) := by
  obtain ⟨σ, hσ⟩ := opRdmaReadResponse_eq rts hr hl hs
  have herased : (Dev.qp (Dev.setQp { s.dev with sch := σ } q { s.dev.qp q with reqs := (s.dev.qp q).reqs.erase r }) q).reqs =
      (s.dev.qp q).reqs.erase r := by rw [setQp_read]
  refine ⟨fun hu => does_done _ rfl ?_, fun n hu => does_done _ rfl ?_, fun n hu hn => does_done _ rfl ?_⟩
  · rw [hσ, hu]
    exact ⟨herased, .of_regs _ rfl, rfl, rfl, rfl⟩
  · rw [hσ, hu]
    exact ⟨herased, sget_sput_same .., .of_regs _ rfl, rfl⟩
  · rw [hσ, hu, Dev.useRead, takeHead_of_nobody]
    · exact ⟨sget_sput_same .., .of_regs _ rfl, rfl⟩
    · exact hn

/-- Settles O46: each command is one of the cases above, by the length, the region and the alignment of the access or by the register's row. -/
theorem hostAccesses : Obligations.HostAccesses := by
  intro s q va rkey
  have hq : (q : Nat) < 4096 := q.isLt
  have nonzero : ∀ {len : BitVec 32}, len ≠ 0 → len.toNat ≠ 0 := fun h0 h => h0 (BitVec.eq_of_toNat_eq h)
  refine ⟨?longWrite, ?longRead, ?write, ?read, ?empty, ?send, ?response,
    fun w off val => ⟨?unreached, ?locked, ?misaligned, ?partRegister, ?deviceRegister⟩⟩
  case longWrite => exact fun data ans h => does_done _ (congrArg (done s) (opRdmaWrite_long _ _ ans h)) (answer_only ..)
  case longRead => exact fun len ans h => does_done _ (congrArg (done s) (opRdmaRead_long _ _ ans h)) (answer_only ..)
  case write =>
    exact fun data ans h0 hn =>
      ⟨fun hr hi => does_done _ rfl (opRdmaWrite_bytes ans h0 hn hr hi),
       fun hr hi room => does_done _ rfl (opRdmaWrite_image ans h0 hn hr hi room),
       fun h => does_done _ (congrArg (done s) (opRdmaWrite_refused _ _ ans h0 hn h)) (refuseAccess_refused _ _ _ hq)⟩
  case read =>
    refine fun len ans h0 hn => ⟨does_rdmaRead_t1 s q va rkey ans len h0 hn, ?word, ?held, fun h =>
      does_done _ (congrArg (done s) (opRdmaRead_refused _ _ ans (nonzero h0) hn h)) (refuseAccess_refused _ _ _ hq)⟩
    case word =>
      rintro hr hal rfl free
      exact does_rdmaRead_word s q va rkey ans hr hal free
    case held =>
      intro hr hal busy
      have hheld := opRdmaRead_held va.toNat rkey.toNat ans (nonzero h0) hn hr hal busy
      refine ⟨fun few => ?_, fun many => ?_⟩
      · rw [if_neg (Nat.not_le.mpr few)] at hheld
        exact does_done _ (congrArg (done s) hheld) ⟨rfl, rfl, .of_regs _ rfl, rfl⟩
      · rw [if_pos many] at hheld
        exact does_done _ (congrArg (done s) hheld) (answer_only ..)
  case empty =>
    intro ans i hi
    simp only [List.mem_cons, List.not_mem_nil, or_false] at hi
    obtain rfl | rfl := hi
    · exact does_done _ (congrArg (done s) (opRdmaWrite_nil va.toNat rkey.toNat ans)) (answer_only ..)
    · exact does_done _ (congrArg (done s) (opRdmaRead_zero va.toNat rkey.toNat ans)) (answer_only ..)
  case send => exact fun data ans => does_done _ rfl (opSend_delivers data ans)
  case response => exact fun data r rts hr hl hs => does_rdmaReadResponse rts hr hl hs
  case unreached =>
    exact fun hal h => does_done _ (congrArg (done s) ((opRegisterWrite_aligned w val s.dev hal).trans (csWrite_unreached val h))) rfl
  case locked =>
    intro r ix p hal hr hl ho hs up room
    refine does_done _ (congrArg (done s) ((opRegisterWrite_aligned w val s.dev hal).trans (csWrite_locked val hr hl ho hs up))) ?_
    exact ⟨recorded_raise { notice cSecurity 0x0E21 (off.toNat + w * 2 ^ 32) with part := some p } room, (lockRec_record _ _ _ room).1⟩
  case misaligned => exact fun hal room => does_done _ rfl (opRegisterWrite_misaligned w val hal room)
  case partRegister =>
    refine fun p hs hw z hz hoff up => does_registerWrite_store ?_
    rw [hoff]
    exact opRegisterWrite_part val (partRegisters_stored p z hz) hs hw up
  case deviceRegister =>
    refine fun hw z hz hoff up => does_registerWrite_store ?_
    rw [hoff, hw]
    exact opRegisterWrite_operator val (operatorRegisters_stored z hz) up

end Sys2Proof.Proofs

/-! ## Combs mapped to a number that is no partition's (R54, R302)

The router map holds any number, but the device has partitions 0 to 15 (R302). Under 0x3AFFF8 the register SCHED_STAT would lie at the offset of
DBG_CYC_ACTIVE of cell 0, so the cycle that an instruction counts there changes which context is CURRENT before R312 gathers its activity. -/

namespace Sys2Proof.Proofs

open Sys2Proof Sys2Proof.Machine Sys2Proof.Safety

/-- A command leaves the scheduler's state as its arm computes it: settling does not touch it. -/
theorem sch_of_does {i : Instr} {s : State} {P : Dev → Prop} {e0 : Dev} (h : Does i s P) (hx : exec i s = done s e0) : ∃ e, P e ∧ e.sch = e0.sch := by
  obtain ⟨e, he, hp⟩ := h
  refine ⟨e, hp, ?_⟩
  have hs : settle e = settle e0 := congrArg State.dev (Host.Outcome.next.inj (he.symm.trans hx))
  rw [← settle_sch e, hs, settle_sch]

theorem sch_of_cellFrame {d e : Dev} {c : Nat} {draws : Bool} (h : CellFrame d e c draws) : e.sch = (d.chargeCell c).sch := by rw [h.1]

/-- No partition's number. -/
def strayPart : Nat := 0x3AFFF8

theorem schedStat_strayPart : Reg.SCHED_STAT strayPart = Reg.DBG_CYC_ACTIVE 0 := rfl

/-- Station 0 of task context 0: 16 v registers, both banks, 4 tree slots. -/
def straySetup : CfgRec := ⟨rTcSetup, 0, toLe 2 0 ++ toLe 1 0 ++ toLe 1 16 ++ toLe 1 3 ++ toLe 1 4⟩

/-- Chain 2 over descriptor 0 twice: K = 32, one part. -/
def strayChain : CfgRec := ⟨rChain, 0, zeros 8 ++ toLe 4 32 ++ toLe 3 0 ++ toLe 1 2⟩

def strayImg : Img := ⟨0, 0x1000, 0, []⟩

/-- The descriptor of the image: a LOAD of BF16 in memory tier 0 (which no check has passed). -/
def strayDesc : StreamDesc := parseDesc (zeros 9 ++ toLe 1 2 ++ zeros 86)

/-- Cell 0 runs one instruction; its active-cycle counter is one short of 0x40, which as a SCHED_STAT would make context 0 CURRENT, and context 0 is
in EXECUTE. The image at address 0 has one section, a DESC section with one BF16 descriptor. -/
def strayState (opc : Nat) (o : CellOps) : State :=
  ⟨{ Dev.powerOn with
     regs := [(Reg.STEP_PHASE 0, 1), (Reg.DBG_CYC_ACTIVE 0, 0x3F), (Reg.MOLT_STAT strayPart, 0x800000000)]
     mem := [(32, 1), (256, 4), (260, 104), (265, 2), (521, 2)]
     img := { ImgPart.zero with imgs := [(16 * strayPart, some strayImg)] }
     fab := { Fabric.zero with
       cells := [(0, { Cell.zero with active := [straySetup, strayChain, ⟨rProgram, 0, toLe 8 (cellWord opc o)⟩], tcs := [(0, { Tc.zero with st := .running })] })]
       combMap := [(0, strayPart + 1)] } }, []⟩

/-- Operands D and A, and IMM 2. -/
def strayOps (d a : BitVec 6) : CellOps := ⟨d, a, 2, 63, 2⟩

/-- Refutes O1: where comb 0 is mapped to number 0x3AFFF8, the cycle that FP32 ADD counts makes context 0 CURRENT, and its activity is gathered there. -/
theorem not_floatAndIntegerElements : ¬ Obligations.FloatAndIntegerElements := by
  unfold Obligations.FloatAndIntegerElements
  rintro ⟨h, -⟩
  obtain ⟨e, ⟨-, -, hframe, -⟩, he⟩ := sch_of_does
    (h _ (.head _) (strayState 0x10 (strayOps 0 1)) 0 0 (strayOps 0 1) (by decide +kernel) (by decide +kernel) fun _ _ hb => nomatch hb) rfl
  exact absurd ((sch_of_cellFrame hframe).symm.trans he) (by decide +kernel)

/-- Refutes O3: in the state of O1, by BROW ADD. -/
theorem not_broadcastComputed : ¬ Obligations.BroadcastComputed := by
  unfold Obligations.BroadcastComputed
  intro h
  obtain ⟨e, ⟨-, -, hframe, -⟩, he⟩ := sch_of_does
    (h _ (.head _) (strayState 0x80 (strayOps 0 1)) 0 0 (strayOps 0 1) (by decide +kernel) (by decide +kernel) (fun _ hn => by cases hn) fun _ _ hb => nomatch hb) rfl
  exact absurd ((sch_of_cellFrame hframe).symm.trans he) (by decide +kernel)

/-- Refutes O4: in the state of O1, by RSUM of bank 0. -/
theorem not_reductionsComputed : ¬ Obligations.ReductionsComputed := by
  unfold Obligations.ReductionsComputed
  rintro ⟨h, -⟩
  obtain ⟨e, ⟨-, -, -, -, -, hframe, -⟩, he⟩ := sch_of_does
    (h _ (.head _) (strayState 0x90 (strayOps 0 48)) 0 0 (strayOps 0 48) 0 0 (by decide +kernel) (by decide +kernel) (by decide +kernel)) rfl
  exact absurd ((sch_of_cellFrame hframe).symm.trans he) (by decide +kernel)

/-- Refutes O5: in the state of O1, by CONVERT to BF16. -/
theorem not_convertRegisters : ¬ Obligations.ConvertRegisters := by
  unfold Obligations.ConvertRegisters
  intro h
  obtain ⟨e, ⟨-, -, -, -, -, hframe, -⟩, he⟩ := sch_of_does
    (h (strayState 0x60 (strayOps 0 1)) 0 0 (strayOps 0 1) 0 1 (by decide +kernel) (by decide +kernel) (by decide +kernel) (by decide +kernel)) rfl
  exact absurd ((sch_of_cellFrame hframe).symm.trans he) (by decide +kernel)

/-- Refutes O10: in the state of O1, by CHAIN of chain 2. -/
theorem not_chainsAccumulate : ¬ Obligations.ChainsAccumulate := by
  unfold Obligations.ChainsAccumulate
  rintro ⟨h, -⟩
  have hdesc : (strayState 8 (strayOps 63 63)).dev.desc strayImg 0 = some strayDesc := by decide +kernel
  obtain ⟨hstart, -⟩ := h (strayState 8 (strayOps 63 63)) 0 0 (strayOps 63 63) strayChain strayImg strayDesc strayDesc strayPart (by decide +kernel)
    (by decide +kernel) (by decide +kernel) (by decide +kernel) (by decide +kernel) (by decide +kernel) hdesc hdesc
  obtain ⟨e, ⟨-, -, -, -, -, hframe, -⟩, he⟩ := sch_of_does
    (hstart 0 straySetup (by decide +kernel) (by decide +kernel) (by decide +kernel) (by decide +kernel) (by decide +kernel) (by decide +kernel)
      (by decide +kernel) (by decide +kernel) (by decide +kernel)) rfl
  exact absurd ((sch_of_cellFrame hframe).symm.trans he) (by decide +kernel)

end Sys2Proof.Proofs

/-! ## A sequencer's instruction (R149, R151) -/

namespace Sys2Proof.Machine

open Sys2Proof.Safety

theorem sqRun_of_seqIssues {d : Dev} {k i f7 f3 : Nat} {o : SeqOps} {p : Nat} (body : Nat → Nat → Nat → Dev → Dev) (h : seqIssues d k i f7 f3 o p) :
    d.sqRun k i f7 f3 o body = body p ((d.seq k i).get o.rs1.toNat).toNat ((d.seq k i).get o.rs2.toNat).toNat d := by
  obtain ⟨hp, hr, hf⟩ := h
  simp only [Dev.sqRun, hp, hr, hf, and_self, if_true]

/-- x0 takes no value. -/
theorem get_set (x : SeqSt) (rd r : Nat) (v : Word) : (x.set rd v).get r = if r = rd ∧ r ≠ 0 then v else x.get r := by
  unfold SeqSt.get SeqSt.set
  by_cases h0 : r = 0
  · simp only [h0, if_true, ne_eq, not_true_eq_false, and_false, if_false]
  simp only [h0, if_false, ne_eq, not_false_eq_true, and_true]
  by_cases hr : r = rd
  · subst hr
    rw [if_neg h0, if_pos rfl, sget_sput_same]
  · rw [if_neg hr]
    split
    · rfl
    · exact sget_sput_ne _ _ _ _ _ hr

theorem set_eq (x : SeqSt) (rd : Nat) (v : Word) : x.set rd v = { x with x := (x.set rd v).x } := by
  unfold SeqSt.set
  split <;> rfl

theorem seq_setSeq_ne (d : Dev) (x : SeqSt) {k i k2 j : Nat} (h : 4 * k2 + j ≠ 4 * k + i) : (d.setSeq k i x).seq k2 j = d.seq k2 j :=
  sget_sput_ne _ _ _ _ _ h

theorem othersAsBefore_setSeq (d : Dev) (k i : Nat) (x : SeqSt) : OthersAsBefore d (d.setSeq k i x) k i :=
  ⟨rfl, fun _ _ h => seq_setSeq_ne d x h⟩

theorem seqDone_seqPut (d : Dev) (k i rd v : Nat) : SeqDone d (d.seqPut k i rd v) k i rd (BitVec.ofNat 64 v) := by
  refine ⟨?_, fun r => ?_, othersAsBefore_setSeq d k i _⟩
  · rw [Dev.seqPut, setSeq_read, set_eq]
  · rw [Dev.seqPut, setSeq_read]
    exact get_set _ rd r _

theorem seqPut_pc (d : Dev) (k i rd v : Nat) : ((d.seqPut k i rd v).seq k i).pc = (d.seq k i).pc + 4 := by rw [Dev.seqPut, setSeq_read]

theorem seqPut_rd (d : Dev) (k i v : Nat) (rd : BitVec 5) :
    ((d.seqPut k i rd.toNat v).seq k i).get rd.toNat = if rd = 0 then 0 else BitVec.ofNat 64 v := by
  obtain ⟨-, hget, -⟩ := seqDone_seqPut d k i rd.toNat v
  rw [hget]
  by_cases h : rd = 0
  · subst h; rfl
  · have h0 : rd.toNat ≠ 0 := fun hz => h (BitVec.eq_of_toNat_eq hz)
    rw [if_pos ⟨rfl, h0⟩, if_neg h]

@[simp] theorem seqPut_fltq (d : Dev) (k i rd v : Nat) : (d.seqPut k i rd v).fltq = d.fltq := rfl
@[simp] theorem seqPut_mem (d : Dev) (k i rd v : Nat) : (d.seqPut k i rd v).mem = d.mem := rfl

/-- A sequencer's port lies in its comb (R44). -/
theorem combOf_seqCell {k i : Nat} (hi : i < 4) : combOf (seqCell k i) = k := by
  simp only [combOf, cellX, cellY, seqCell, combCell, cellAt]
  omega

/-! ### Faults found at issue (R133) -/

theorem faultWord_comb (f : FaultInfo) : faultWord f / 2 ^ 32 % 256 = f.cell.elim f.comb combOf % 256 := by unfold faultWord; omega

/-- While no attempt of the partition runs, a comb's fault is only recorded (R19). -/
theorem combFault_idle {d : Dev} {k p : Nat} (f : FaultInfo) (hp : d.partOfComb k = some p) (hc : d.curCtx p = none) :
    d.combFault k f = d.raise { f with part := some p } := by
  simp only [Dev.combFault, hp, hc, Dev.stepFault, ite_self]

theorem issueFault_idle {d : Dev} {k i p : Nat} (cls cause detail : Nat) (hi : i < 4) (hp : d.partOfComb k = some p) (hc : d.curCtx p = none) :
    d.issueFault k i cls cause detail = d.raise { notice cls cause detail with cell := some (seqCell k i), part := some p } := by
  rw [Dev.issueFault, Dev.cellFault, combOf_seqCell hi, combFault_idle _ hp hc]

/-- What the record of such a fault says: class, cause, detail and the comb. -/
theorem issueFault_recorded {d : Dev} {k i p : Nat} (cls cause detail : Nat) (hk : k < 16) (hi : i < 4) (hp : d.partOfComb k = some p) (hc : d.curCtx p = none)
    (room : d.fltq.length < 64) :
    Recorded d (d.issueFault k i cls cause detail) (cls % 256) (cause % 65536) detail ∧
      ((d.issueFault k i cls cause detail).fltq.getLast?.map fun z => z.w0.toNat / 2 ^ 32 % 256) = some k := by
  rw [issueFault_idle cls cause detail hi hp hc]
  refine ⟨recorded_raise { notice cls cause detail with cell := some (seqCell k i), part := some p } room, ?_⟩
  rw [raise_of_room _ room]
  simp only [List.getLast?_concat, Option.map_some, Dev.faultRec, BitVec.toNat_ofNat, Nat.mod_eq_of_lt (faultWord_lt _), faultWord_comb, Option.elim_some,
    combOf_seqCell hi]
  rw [Nat.mod_eq_of_lt (by omega)]

/-- It changes the queue of records alone. -/
theorem issueFault_eq {d : Dev} {k i p : Nat} (cls cause detail : Nat) (hi : i < 4) (hp : d.partOfComb k = some p) (hc : d.curCtx p = none)
    (room : d.fltq.length < 64) : d.issueFault k i cls cause detail = { d with fltq := (d.issueFault k i cls cause detail).fltq } := by
  rw [issueFault_idle cls cause detail hi hp hc, raise_of_room _ room]

/-! ### SQ.CHAIN (R84, R115, R119) -/

theorem chainVals_of_bnd {d e : Dev} (h : e.fab.bnd = d.fab.bnd) (c : Nat) (r : CfgRec) : e.chainVals c r = d.chainVals c r := by
  simp only [Dev.chainVals, Dev.bndOf, h]

/-- What an issue of chain n says of its CHAIN record q: where it runs, under which token, and the values captured. -/
def chainIssueOf (d : Dev) (tok n : Nat) (q : Nat × CfgRec) : Nat × Nat × Nat × Option Nat × Bool × List Nat :=
  (q.1, q.2.tc, tok, some n, false, [(d.chainVals q.1 q.2).1, (d.chainVals q.1 q.2).2.1, (d.chainVals q.1 q.2).2.2.1, (d.chainVals q.1 q.2).2.2.2.1,
    (d.chainVals q.1 q.2).2.2.2.2])

theorem chainIssueOf_of_bnd {d e : Dev} (h : e.fab.bnd = d.fab.bnd) (tok n : Nat) (q : Nat × CfgRec) : chainIssueOf e tok n q = chainIssueOf d tok n q := by
  simp only [chainIssueOf, chainVals_of_bnd h]

def Issue.asChain (j : Issue) : Nat × Nat × Nat × Option Nat × Bool × List Nat := (j.cell, j.tc, j.token, j.chain, j.ended, j.counts)

theorem addChain_eq (d : Dev) (k p tok n : Nat) (q : Nat × CfgRec) :
    ∃ j, d.addChain k p tok n q = { d with fab := { d.fab with issues := d.fab.issues ++ [j], nextToken := d.fab.nextToken + 1 } } ∧
      j.asChain = chainIssueOf d tok n q := ⟨_, rfl, rfl⟩

/-- Each CHAIN record is issued once, in order; nothing else moves but the next token. -/
theorem addChains_eq (k p tok n : Nat) (recs : List (Nat × CfgRec)) (d : Dev) :
    ∃ l m, recs.foldl (fun (f : Dev) q => f.addChain k p tok n q) d = { d with fab := { d.fab with issues := d.fab.issues ++ l, nextToken := m } } ∧
      l.map Issue.asChain = recs.map (chainIssueOf d tok n) := by
  induction recs generalizing d with
  | nil => exact ⟨[], d.fab.nextToken, by simp, rfl⟩
  | cons q recs ih =>
    obtain ⟨j, hj, hq⟩ := addChain_eq d k p tok n q
    obtain ⟨l, m, hl, hrecs⟩ := ih (d.addChain k p tok n q)
    refine ⟨j :: l, m, ?_, ?_⟩
    · rw [List.foldl_cons, hl, hj]
      simp
    · rw [List.map_cons, List.map_cons, hrecs, hq]
      exact congrArg _ (List.map_congr_left fun r _ => chainIssueOf_of_bnd rfl tok n r)

/-- R119: a CHAIN record lacks its task context or a bank. -/
theorem chainLack_cause {d : Dev} {q : Nat × CfgRec} {cause : Nat} (h : d.chainLack q = some cause) : cause = 0x0812 ∨ cause = 0x0814 := by
  unfold Dev.chainLack at h
  split at h
  · exact .inl (Option.some.inj h).symm
  split at h
  · exact .inr (Option.some.inj h).symm
  · cases h

/-! ### SQ.ISSUE (R116) -/

/-- Without collective groups and without a receiving REMOTE stream the edge engines have nothing to send. -/
theorem pumpEdges_of_no_engine {d : Dev} {p : Nat} (hg : d.lnk.groups = []) (hr : ∀ z ∈ d.fab.issues, z.sd.kind ≠ skRemote) : d.pumpEdges p = d := by
  have hnone : (d.fab.issues.filter fun i => receives i p 2) = [] := by
    rw [List.filter_eq_nil_iff]
    intro z hz
    simp [receives, hr z hz]
  have hc : d.pumpColl p = d := by
    unfold Dev.pumpColl
    split
    · rw [hg]; rfl
    · rfl
  have hh : ∀ n, d.pumpHandoff p n = d := by
    intro n
    induction n with
    | zero => rfl
    | succ n ih =>
      rw [Dev.pumpHandoff, ih]
      dsimp only
      split
      · rw [hnone]; rfl
      · rfl
  rw [Dev.pumpEdges, hc, hh]

/-- Nor have they while no attempt of the partition runs. -/
theorem pumpEdges_idle {d : Dev} {p : Nat} (hc : d.curCtx p = none) : d.pumpEdges p = d := by
  have hh : ∀ n, d.pumpHandoff p n = d := by
    intro n
    induction n with
    | zero => rfl
    | succ n ih =>
      rw [Dev.pumpHandoff, ih]
      simp only [hc]
  have hcoll : d.pumpColl p = d := by simp only [Dev.pumpColl, hc]
  rw [Dev.pumpEdges, hcoll, hh]

/-- The bindings of a consumer feed no output. -/
theorem out_of_binding {d : Dev} {img : Img} {k desc : Nat} {b : Binding} (h : b ∈ d.bindings img k desc) (hp : b.producer = false) : b.out = none := by
  unfold Dev.bindings at h
  simp only [List.mem_flatMap, List.mem_filterMap, Option.map_eq_some_iff] at h
  obtain ⟨q, -, r, -, sd, -, rfl⟩ := h
  simp only at hp ⊢
  rw [hp]
  rfl

/-- The issue of a LOAD on the binding of its consumer: the new issue, the next token, and the input of the context that it feeds. -/
theorem addIssue_load {d : Dev} {tok p desc : Nat} {sd : StreamDesc} {n : List Nat} {b : Binding} (hk : sd.kind = skLoad) (hp : b.producer = false) (ho : b.out = none) :
    ∃ (j : Issue) (cells : Store Cell),
      d.addIssue tok p desc sd n b = { d with fab := { d.fab with cells := cells, issues := d.fab.issues ++ [j], nextToken := d.fab.nextToken + 1 } } ∧
      (∀ z, z ≠ b.cell → sget (fun _ => Cell.zero) cells z = d.cell z) ∧
      j.token = tok ∧ j.cell = b.cell ∧ j.tc = b.tc ∧ j.descIdx = desc ∧ j.sd = sd ∧ j.counts = n ∧ j.sent = 0 ∧ j.landed = 0 ∧ j.ended = false ∧ j.chain = none ∧
      j.forager = some (forOf b.cell) := by
  unfold Dev.addIssue
  simp only [hp, ho, hk, true_or, if_true, if_false, Bool.false_eq_true]
  exact ⟨_, _, rfl, fun z hz => sget_sput_ne _ _ _ _ _ hz, rfl, rfl, rfl, rfl, rfl, rfl, rfl, rfl, rfl, rfl, rfl⟩

/-- SQ.ISSUE of a LOAD that passes its checks, on its one binding. -/
theorem issueStream_load {d : Dev} {k i a p : Nat} {img : Img} {sd : StreamDesc} {bd : Binding} (hp : d.partOfComb k = some p) (hi : d.activeImg p = some img)
    (hd : d.desc img a = some sd) (hk : sd.kind = skLoad)
    (hc : descCheck sd (match (d.curCtx p).bind (d.geo p) with | some g => g.planes | none => 256) (d.footW img) (d.footH img) = none)
    (h0 : (d.readCounts k sd).contains 0 = false) (hm : overMax sd (d.readCounts k sd) = none) (hb : d.bindings img k a = [bd])
    (hr : d.resourceCheck p sd (d.readCounts k sd) bd = none) :
    d.issueStream k i a = some (d.fab.nextToken, d.addIssue d.fab.nextToken p a sd (d.readCounts k sd) bd) := by
  have hstore : ¬ (sd.kind = skStore ∧ sd.tier = 2) := fun h => by rw [hk] at h; exact absurd h.1 (by decide)
  have hrem : (!d.remoteOk p sd) = false := by simp [Dev.remoteOk, hk, skLoad, skRemote]
  unfold Dev.issueStream
  simp only [hp, hi, hd, hrem, h0, hm, hb, hstore, Dev.issueAll, Dev.issueOne, hr, if_false, Bool.false_eq_true]
  split
  next hcs => exact absurd (hcs.symm.trans hc) nofun
  next => rfl

/-- A STORE to T2 is refused before its other checks (R177). -/
theorem issueStream_storeT2 {d : Dev} {k i a p : Nat} {img : Img} {sd : StreamDesc} (hp : d.partOfComb k = some p) (hi : d.activeImg p = some img)
    (hd : d.desc img a = some sd) (hk : sd.kind = skStore) (ht : sd.tier = 2) :
    d.issueStream k i a = some (d.fab.nextToken, d.issueFault k i cRo 0x0809 (sd.streamId * 2 ^ 32)) := by
  unfold Dev.issueStream
  simp only [hp, hi, hd, hk, ht, and_self, if_true]

/-! ### Injection that passes (R47, R51, R54) -/

theorem OnlyRegs.trans {d e f : Dev} (h : OnlyRegs d e) (k : OnlyRegs e f) : OnlyRegs d f := by
  obtain ⟨r, rfl⟩ : ∃ r, e = { d with regs := r } := ⟨_, h⟩
  exact k

theorem onlyRegs_dbg (d : Dev) (c off n : Nat) : OnlyRegs d (d.dbg c off n) := by
  unfold Dev.dbg
  split
  · rfl
  · exact onlyRegs_addf d off cnt48 n

theorem regsBut_dbg (d : Dev) (c off n : Nat) : RegsBut [off] d (d.dbg c off n) := by
  unfold Dev.dbg
  split
  · exact .of_regs _ rfl
  · exact regsBut_bump d off n

/-- The flits that pass along a route are counted. -/
theorem transits_counted (n : Nat) (l : List Nat) (d : Dev) :
    OnlyRegs d (l.foldl (fun e c => e.dbg c (Reg.DBG_FLIT_TRANSIT c) n) d) ∧ RegsButFlits [] d (l.foldl (fun e c => e.dbg c (Reg.DBG_FLIT_TRANSIT c) n) d) := by
  induction l generalizing d with
  | nil => exact ⟨rfl, fun _ _ _ => rfl⟩
  | cons c l ih =>
    obtain ⟨he, hr⟩ := ih (d.dbg c (Reg.DBG_FLIT_TRANSIT c) n)
    refine ⟨OnlyRegs.trans (onlyRegs_dbg d c _ n) he, fun o ho hf => (hr o ho hf).trans (regsBut_dbg d c _ n o ?_)⟩
    exact fun hm => hf ⟨c, .inr (.inl (List.mem_singleton.mp hm))⟩

/-- A packet that enters by a local port: it is in the mesh, and only flits have been counted (R64). -/
theorem enter_local (d : Dev) (c : Nat) (p : Packet) :
    (∃ r, d.enter c true p = { d with regs := r, fab := { d.fab with transit := d.fab.transit ++ [p] } }) ∧ RegsButFlits [] d (d.enter c true p) := by
  obtain ⟨l, hl⟩ : ∃ l : List Nat, d.enter c true p =
      let e := l.foldl (fun e z => e.dbg z (Reg.DBG_FLIT_TRANSIT z) p.flits) (d.dbg c (Reg.DBG_FLIT_INJ c) p.flits)
      { e with fab := { e.fab with transit := e.fab.transit ++ [p] } } := ⟨_, rfl⟩
  obtain ⟨he, hr⟩ := transits_counted p.flits l (d.dbg c (Reg.DBG_FLIT_INJ c) p.flits)
  have hd := OnlyRegs.trans (onlyRegs_dbg d c _ _) he
  rw [hl]
  refine ⟨?_, fun o ho hf => (hr o ho hf).trans (regsBut_dbg d c _ _ o ?_)⟩
  · generalize l.foldl _ _ = e at hd
    rw [hd]
    exact ⟨e.regs, rfl⟩
  · exact fun hm => hf ⟨c, .inl (List.mem_singleton.mp hm)⟩

/-- PART decides nothing about where a packet goes. -/
@[simp] theorem kindOk_withPart (p : Packet) (n : Nat) : kindOk (p.withPart n) = kindOk p := rfl
@[simp] theorem routeOf_withPart (p : Packet) (n src : Nat) : routeOf (p.withPart n) src = routeOf p src := rfl
@[simp] theorem dst_withPart (p : Packet) (n : Nat) : (p.withPart n).dst = p.dst := rfl
@[simp] theorem outer_withPart (p : Packet) (n : Nat) : (p.withPart n).outer = p.outer := rfl
@[simp] theorem dstX_withPart (p : Packet) (n : Nat) : (p.withPart n).flit.dstX = p.flit.dstX := rfl
@[simp] theorem dstY_withPart (p : Packet) (n : Nat) : (p.withPart n).flit.dstY = p.flit.dstY := rfl
@[simp] theorem eject_withPart (p : Packet) (n : Nat) : (p.withPart n).flit.eject = p.flit.eject := rfl

theorem inject_of_enters {d : Dev} {c : Nat} {p : Packet} (h : enters d c p = true) : d.inject c p = d.enter c true (stamped d c p) := by
  unfold enters at h
  cases hr : routeOf p c with
  | none => simp [hr] at h
  | some r =>
    obtain ⟨l, x, y⟩ := r
    simp only [hr, Bool.and_eq_true, Bool.or_eq_true, beq_iff_eq] at h
    obtain ⟨⟨hk, ⟨rfl, rfl⟩, hport⟩, hfence⟩ := h
    have hfree : (!p.outer && ((d.partOfComb (combOf c)).isNone || d.partOfComb (combOf p.dst) != d.partOfComb (combOf c))) = false := by
      obtain ho | ⟨hs, he⟩ := hfence
      · simp [ho]
      · simp [he, hs]
    simp only [Dev.inject, kindOk_withPart, routeOf_withPart, dstX_withPart, dstY_withPart, eject_withPart, outer_withPart, dst_withPart, hk, hr, hport, hfree,
      bne_self_eq_false, Bool.not_true, Bool.or_self, Bool.false_eq_true, if_false]
    rfl

/-- A packet that passes the checks is in the mesh with PART of its cell's comb, and only flits have been counted. -/
theorem inject_entered {d : Dev} {c : Nat} {p : Packet} (h : enters d c p = true) :
    (∃ r, d.inject c p = { d with regs := r, fab := { d.fab with transit := d.fab.transit ++ [stamped d c p] } }) ∧ RegsButFlits [] d (d.inject c p) := by
  rw [inject_of_enters h]
  exact enter_local d c _

/-! ### SQ.WKC and SQ.WKCRST (R125, R126) -/

/-- The request for a counter that is not brood-wide goes to its home, and the sequencer waits. -/
theorem askCounter_home {d : Dev} {p k i n op inc rd h : Nat} (hh : d.homeOf p (n % 256) = some (h, false)) :
    d.askCounter p k i n op inc rd = (d.seqWait k i (.wkc rd)).inject (seqCell k i)
      (mkPkt 9 (d.cell h).gen.toNat h (seqCell k i) (0x8000 + i) (n % 256 * 2 ^ 40 + op * 2 ^ 38 + inc % 2 ^ 32) []) := by
  simp only [Dev.askCounter, hh, Bool.false_eq_true, false_and, if_false]
  rfl

/-- The request enters the mesh; besides it only the wait and the flits counted differ. -/
theorem askCounter_enters {d : Dev} {p k i n op inc rd h addr : Nat} (hh : d.homeOf p (n % 256) = some (h, false))
    (ha : n % 256 * 2 ^ 40 + op * 2 ^ 38 + inc % 2 ^ 32 = addr)
    (he : enters d (seqCell k i) (mkPkt 9 (d.cell h).gen.toNat h (seqCell k i) (0x8000 + i) addr []) = true) :
    let e := d.askCounter p k i n op inc rd
    e.seq k i = { d.seq k i with wait := .wkc rd } ∧
      e.fab.transit = d.fab.transit ++ [stamped d (seqCell k i) (mkPkt 9 (d.cell h).gen.toNat h (seqCell k i) (0x8000 + i) addr [])] ∧
      e.fab.cells = d.fab.cells ∧ e.mem = d.mem ∧ RegsButFlits [] d e ∧ e.fltq = d.fltq := by
  intro e
  have hw : enters (d.seqWait k i (.wkc rd)) (seqCell k i) (mkPkt 9 (d.cell h).gen.toNat h (seqCell k i) (0x8000 + i) addr []) = true := he
  obtain ⟨⟨r, hr⟩, hregs⟩ := inject_entered hw
  have heq := askCounter_home (op := op) (inc := inc) (i := i) (k := k) (rd := rd) hh
  rw [ha] at heq
  rw [← heq] at hr hregs
  refine ⟨?_, ?_, ?_, ?_, fun o ho hf => hregs o ho hf, ?_⟩ <;> simp only [e, hr]
  · exact setSeq_read d k i _
  all_goals rfl

end Sys2Proof.Machine

namespace Sys2Proof.Proofs

open Sys2Proof Sys2Proof.Machine Sys2Proof.Safety

/-- The records of SQ.CHAIN: the CHAIN records of a station and an index in comb k. -/
def chainRecs (d : Dev) (k st n : Nat) : List (Nat × CfgRec) :=
  (d.fab.cells.filter fun q => combOf q.1 == k).flatMap fun q => (bankRecs q.2.active rChain fun r => r.n 0 2 == st && r.b 15 == n).map fun r => (q.1, r)

section
variable {d : Dev} {k i : Nat} {o : SeqOps} {p : Nat}

/-- SQ.CHAIN where every record can be issued. -/
theorem opSqChain_issues (hs : seqIssues d k i 1 1 o p)
    (hq : ∀ q ∈ chainRecs d k ((d.seq k i).get o.rs1.toNat).toNat ((d.seq k i).get o.rs2.toNat).toNat, d.chainLack q = none ∧ d.chainSplitBad p q = false) :
    ∃ l m, opSqChain k i o d =
        Dev.seqPut { d with fab := { d.fab with issues := d.fab.issues ++ l, nextToken := max m (d.fab.nextToken + 1) } } k i o.rd.toNat d.fab.nextToken ∧
      l.map Issue.asChain = (chainRecs d k ((d.seq k i).get o.rs1.toNat).toNat ((d.seq k i).get o.rs2.toNat).toNat).map
        (chainIssueOf d d.fab.nextToken ((d.seq k i).get o.rs2.toNat).toNat) := by
  have hlack : (chainRecs d k ((d.seq k i).get o.rs1.toNat).toNat ((d.seq k i).get o.rs2.toNat).toNat).findSome? d.chainLack = none :=
    List.findSome?_eq_none_iff.mpr fun q hm => (hq q hm).1
  have hsplit : (chainRecs d k ((d.seq k i).get o.rs1.toNat).toNat ((d.seq k i).get o.rs2.toNat).toNat).find? (d.chainSplitBad p) = none :=
    List.find?_eq_none.mpr fun q hm => by simp [(hq q hm).2]
  obtain ⟨l, m, hl, hrecs⟩ := addChains_eq k p d.fab.nextToken ((d.seq k i).get o.rs2.toNat).toNat
    (chainRecs d k ((d.seq k i).get o.rs1.toNat).toNat ((d.seq k i).get o.rs2.toNat).toNat) d
  refine ⟨l, m, ?_, hrecs⟩
  unfold chainRecs at hlack hsplit hl
  rw [opSqChain, sqRun_of_seqIssues _ hs]
  simp only [hlack, hsplit, hl]

/-- SQ.CHAIN where a record lacks its context or a bank. -/
theorem opSqChain_lacks {cause : Nat} (hs : seqIssues d k i 1 1 o p)
    (hl : (chainRecs d k ((d.seq k i).get o.rs1.toNat).toNat ((d.seq k i).get o.rs2.toNat).toNat).findSome? d.chainLack = some cause) :
    opSqChain k i o d = (d.issueFault k i cResource cause (resDetail ((d.seq k i).get o.rs1.toNat).toNat 0 1 0)).seqPut k i o.rd.toNat d.fab.nextToken := by
  unfold chainRecs at hl
  rw [opSqChain, sqRun_of_seqIssues _ hs]
  simp only [hl]

/-- SQ.ISSUE takes what `issueStream` answers. -/
theorem opSqIssue_of_issueStream {tok : Nat} {e : Dev} (hs : seqIssues d k i 0 1 o p) (h : d.issueStream k i ((d.seq k i).get o.rs1.toNat).toNat = some (tok, e)) :
    opSqIssue k i o d = (Dev.seqPut { e with fab := { e.fab with nextToken := max e.fab.nextToken (tok + 1) } } k i o.rd.toNat tok).pumpEdges p := by
  rw [opSqIssue, sqRun_of_seqIssues _ hs]
  simp only [h]

end

/-- Settles O20: the chains are issued by a fold over the records, the LOAD by one `addIssue`, the faults are records, and a counter's request is one injection. -/
theorem sequencerIssues : Obligations.SequencerIssues := by
  refine ⟨fun s k i o p => ⟨?chain, ?lack, ?load, ?store⟩, fun s k i o p h hh => ⟨fun hs he => ?_, fun hs he => ?_⟩⟩
  case chain =>
    intro hs hq
    obtain ⟨l, m, he, hl⟩ := opSqChain_issues hs hq
    refine does_done _ rfl ?_
    rw [he]
    exact ⟨⟨l, rfl, hl⟩, Nat.lt_of_lt_of_le (Nat.lt_succ_self _) (Nat.le_max_right ..), seqDone_seqPut s.dev k i _ _⟩
  case lack =>
    intro cause hs hl hc room
    have hcause : cause % 65536 = cause := by
      obtain ⟨q, -, hq⟩ := List.exists_of_findSome?_eq_some hl
      obtain rfl | rfl := chainLack_cause hq <;> rfl
    obtain ⟨hrec, hcomb⟩ := issueFault_recorded (i := i) cResource cause (resDetail ((s.dev.seq k i).get o.rs1.toNat).toNat 0 1 0) k.isLt i.isLt hs.1 hc room
    rw [hcause] at hrec
    have heq := issueFault_eq (i := i) cResource cause (resDetail ((s.dev.seq k i).get o.rs1.toNat).toNat 0 1 0) i.isLt hs.1 hc room
    refine does_done _ (congrArg (done s) (opSqChain_lacks hs hl)) ⟨?_, recorded_of_fltq hrec rfl, hcomb, ?_⟩
    · rw [heq]; rfl
    · rw [heq]; rfl
  case load =>
    rintro img sd bd planes hs hi hd hk rfl hc h0 hm hb hp hr hg hrem
    have ho : bd.out = none := out_of_binding (by rw [hb]; exact .head _) hp
    obtain ⟨j, cells, he, hcells, htok, hj⟩ := addIssue_load (d := s.dev) (tok := s.dev.fab.nextToken) (p := p)
      (desc := ((s.dev.seq k i).get o.rs1.toNat).toNat) (n := s.dev.readCounts k sd) hk hp ho
    have hstream := (issueStream_load (i := i) hs.1 hi hd hk hc h0 hm hb hr).trans (congrArg (fun e => some (_, e)) he)
    have hkinds : ∀ z ∈ s.dev.fab.issues ++ [j], z.sd.kind ≠ skRemote := by
      intro z hz
      rw [List.mem_append, List.mem_singleton] at hz
      obtain hz | rfl := hz
      · exact hrem z hz
      · obtain ⟨-, -, -, rfl, -⟩ := hj
        rw [hk]
        decide
    have hop := (opSqIssue_of_issueStream hs hstream).trans (pumpEdges_of_no_engine hg hkinds)
    refine does_done _ (congrArg (done s) hop) ⟨⟨j, rfl, htok, hj⟩, seqPut_rd _ k i _ o.rd, seqPut_pc _ k i _ _, rfl, hcells, rfl, .of_regs _ rfl, rfl, rfl⟩
  case store =>
    intro img sd hs hi hd hk ht hc room
    obtain ⟨hrec, -⟩ := issueFault_recorded (i := i) cRo 0x0809 (sd.streamId * 2 ^ 32) k.isLt i.isLt hs.1 hc room
    have heq := issueFault_eq (i := i) cRo 0x0809 (sd.streamId * 2 ^ 32) i.isLt hs.1 hc room
    have hop := opSqIssue_of_issueStream hs (issueStream_storeT2 (i := i) hs.1 hi hd hk ht)
    have hidle : Dev.curCtx (Dev.seqPut { s.dev.issueFault k i cRo 0x0809 (sd.streamId * 2 ^ 32) with
        fab := { (s.dev.issueFault k i cRo 0x0809 (sd.streamId * 2 ^ 32)).fab with
          nextToken := max (s.dev.issueFault k i cRo 0x0809 (sd.streamId * 2 ^ 32)).fab.nextToken (s.dev.fab.nextToken + 1) } } k i o.rd.toNat s.dev.fab.nextToken) p = none := by
      rw [heq]
      exact hc
    obtain ⟨hlen, -, hlast⟩ := hrec
    refine does_done _ (congrArg (done s) (hop.trans (pumpEdges_idle hidle))) ⟨?_, hlen, ?_, ?_⟩
    · rw [heq]; rfl
    · have hfst := congrArg (Option.map fun x : Nat × Nat × Nat => (x.1, x.2.1)) hlast
      rw [Option.map_map] at hfst
      exact hfst
    · rw [heq]; rfl
  · exact does_done _ (congrArg (done s) (sqRun_of_seqIssues _ hs)) (askCounter_enters hh (by rw [Nat.zero_mul, Nat.add_zero]) he)
  · exact does_done _ (congrArg (done s) (sqRun_of_seqIssues _ hs)) (askCounter_enters hh (by rw [Nat.zero_mod, Nat.add_zero]) he)

end Sys2Proof.Proofs

/-! ## Work counters at their home (R52, R124 to R127, R151) -/

namespace Sys2Proof.Machine

open Sys2Proof.Safety

/-- A packet leaves the mesh by the local port of its destination, and its flits are counted there (R64). -/
def Dev.ejected (d : Dev) (p : Packet) : Dev := (d.leave p).dbg p.dst (Reg.DBG_FLIT_EJ p.dst) p.flits

/-- What arrives under R47 and R52 ejects. -/
theorem eject_of_arrives {d : Dev} {kind : Nat} {p : Packet} (h : arrives d kind p = true) (k : Dev → Dev) : d.eject kind p k = k (d.ejected p) := by
  simp only [arrives, Bool.and_eq_true, Bool.or_eq_true, beq_iff_eq] at h
  obtain ⟨⟨hkind, hok⟩, hgen⟩ := h
  have hdrop : ¬ ((p.flit.kind.toNat != kind) = true ∨ (!kindOk p) = true) := by simp [hkind, hok]
  have hold : ¬ ((kind != 0x10) = true ∧ (kind != 0x11) = true ∧ (p.gen != (d.cell p.dst).gen.toNat) = true) := by
    simp only [bne_iff_ne]
    rintro ⟨h10, h11, hg⟩
    obtain (h | h) | h := hgen
    · exact h10 h
    · exact h11 h
    · exact hg h
  rw [Dev.eject, if_neg hdrop]
  exact if_neg hold

theorem ejected_eq (d : Dev) (p : Packet) :
    d.ejected p = { d with regs := (d.ejected p).regs, fab := { d.fab with transit := d.fab.transit.erase p } } :=
  onlyRegs_dbg (d.leave p) p.dst (Reg.DBG_FLIT_EJ p.dst) p.flits

@[simp] theorem ejected_fab (d : Dev) (p : Packet) : (d.ejected p).fab = { d.fab with transit := d.fab.transit.erase p } := by rw [ejected_eq]
@[simp] theorem ejected_cells (d : Dev) (p : Packet) : (d.ejected p).fab.cells = d.fab.cells := by rw [ejected_eq]
@[simp] theorem ejected_mem (d : Dev) (p : Packet) : (d.ejected p).mem = d.mem := by rw [ejected_eq]
@[simp] theorem ejected_img (d : Dev) (p : Packet) : (d.ejected p).img = d.img := by rw [ejected_eq]
@[simp] theorem ejected_fltq (d : Dev) (p : Packet) : (d.ejected p).fltq = d.fltq := by rw [ejected_eq]
@[simp] theorem ejected_seq (d : Dev) (p : Packet) (k i : Nat) : (d.ejected p).seq k i = d.seq k i := by rw [ejected_eq]; rfl
@[simp] theorem ejected_wkc (d : Dev) (p : Packet) (key : Nat) : (d.ejected p).wkc key = d.wkc key := by rw [ejected_eq]; rfl
@[simp] theorem ejected_partOfComb (d : Dev) (p : Packet) (k : Nat) : (d.ejected p).partOfComb k = d.partOfComb k := by rw [ejected_eq]; rfl

theorem regsBut_ejected (d : Dev) (p : Packet) : RegsBut [Reg.DBG_FLIT_EJ p.dst] d (d.ejected p) := regsBut_dbg (d.leave p) p.dst _ p.flits

/-- The registers of a partition lie below the counters of the routers. -/
theorem ejected_rd {d : Dev} {p : Packet} {o : Nat} (h : o < 0x8000000) : (d.ejected p).rd o = d.rd o := by
  refine regsBut_ejected d p o ?_
  simp only [List.mem_singleton, Reg.DBG_FLIT_EJ]
  omega

theorem part_lt (p : Packet) : p.part < 16 := p.flit.part.isLt

theorem ejected_activeImg (d : Dev) (p : Packet) : (d.ejected p).activeImg p.part = d.activeImg p.part := by
  have hlt : Reg.MOLT_STAT p.part < 0x8000000 := by
    have := part_lt p
    simp only [Reg.MOLT_STAT]
    omega
  have hhandle : (d.ejected p).activeHandle p.part = d.activeHandle p.part := by
    rw [Dev.activeHandle, Dev.rf, Dev.rf, ejected_rd hlt]
    rfl
  have himg : (d.ejected p).imgAt = d.imgAt := funext fun n => by simp only [Dev.imgAt, ejected_img]
  rw [Dev.activeImg, Dev.activeImg, hhandle, himg]

/-- The home of a counter stands in the image, which no packet changes. -/
theorem ejected_homeOf (d : Dev) (p : Packet) (n : Nat) : (d.ejected p).homeOf p.part n = d.homeOf p.part n := by
  have hhome : ∀ i, (d.ejected p).wkcHome i n = d.wkcHome i n := fun i => by rw [ejected_eq]; rfl
  rw [Dev.homeOf, Dev.homeOf, ejected_activeImg]
  exact congrArg _ (funext hhome)

theorem ejected_curCtx (d : Dev) (p : Packet) : (d.ejected p).curCtx p.part = d.curCtx p.part := by
  have hlt : Reg.SCHED_STAT p.part < 0x8000000 := by
    have := part_lt p
    simp only [Reg.SCHED_STAT]
    omega
  rw [Dev.curCtx, Dev.rf, Dev.rf, ejected_rd hlt]
  rfl

/-! ### One request (Table 4-10) -/

/-- A counter after a request: FETCH_ADD adds, READ leaves it, RESET clears it. -/
def Wkc.served (w : Wkc) (op inc : Nat) : Wkc := if op = 0 then ⟨w.val + inc, true⟩ else if op = 1 then w else ⟨0, false⟩

/-- The value of the reply: that before the request, of a RESET zero. -/
def Wkc.reply (w : Wkc) (op : Nat) : Nat := if op = 2 then 0 else w.val

/-- What the home refuses: an increment of zero or past 48 bits (R126), a RESET of a live counter (R127). -/
def Wkc.serves (w : Wkc) (op inc : Nat) : Prop := (op = 0 → 0 < inc ∧ w.val + inc < 2 ^ 48) ∧ (op = 2 → w.live = false)

theorem wkc_setWkc_same (d : Dev) (key : Nat) (w : Wkc) : (d.setWkc key w).wkc key = w := sget_sput_same _ _ _ _

theorem wkc_setWkc_ne (d : Dev) (w : Wkc) {key k : Nat} (h : k ≠ key) : (d.setWkc key w).wkc k = d.wkc k := sget_sput_ne _ _ _ _ _ h

theorem fetchAdd_of_serves {w : Wkc} {inc : Nat} (h : 0 < inc ∧ w.val + inc < 2 ^ 48) : fetchAdd w inc = .ok (w.val, ⟨w.val + inc, true⟩) := by
  obtain ⟨hpos, hlt⟩ := h
  rw [fetchAdd, if_neg (Nat.pos_iff_ne_zero.mp hpos), if_neg (Nat.not_le.mpr hlt)]

/-- A request that the home serves changes its counter alone. -/
theorem serveWkc_of_serves {d : Dev} {key addr op : Nat} (hop : addr / 2 ^ 38 % 4 = op) (hlt : op < 3) (h : (d.wkc key).serves op (addr % 2 ^ 32)) :
    ∃ m, d.serveWkc key addr = .ok ((d.wkc key).reply op, { d with fab := { d.fab with wkc := m } }) ∧
      sget (fun _ => Wkc.zero) m key = (d.wkc key).served op (addr % 2 ^ 32) ∧ ∀ k, k ≠ key → sget (fun _ => Wkc.zero) m k = d.wkc k := by
  obtain ⟨hadd, hreset⟩ := h
  obtain rfl | rfl | rfl : op = 0 ∨ op = 1 ∨ op = 2 := by omega
  · refine ⟨(d.setWkc key ⟨(d.wkc key).val + addr % 2 ^ 32, true⟩).fab.wkc, ?_, wkc_setWkc_same d key _, fun k hk => wkc_setWkc_ne d _ hk⟩
    simp only [Dev.serveWkc, hop, if_true, fetchAdd_of_serves (hadd rfl)]
    rfl
  · refine ⟨d.fab.wkc, ?_, rfl, fun _ _ => rfl⟩
    simp only [Dev.serveWkc, hop]
    rfl
  · refine ⟨(d.setWkc key ⟨0, false⟩).fab.wkc, ?_, wkc_setWkc_same d key _, fun k hk => wkc_setWkc_ne d _ hk⟩
    simp only [Dev.serveWkc, hop, hreset rfl]
    rfl

/-- R127: a RESET of a live counter is refused. -/
theorem serveWkc_reset_live {d : Dev} {key addr : Nat} (hop : addr / 2 ^ 38 % 4 = 2) (hl : (d.wkc key).live = true) :
    d.serveWkc key addr = .error 0x0821 := by
  simp only [Dev.serveWkc, hop, hl]
  rfl

/-! ### A request at its home -/

/-- The counter of a request, of its partition in this device (R124). -/
def counterKey (p : Packet) : Nat := Machine.wkcKey false p.part (p.addr / 2 ^ 40 % 256)

/-- The reply to a request carries its TAG back to its source (R125). -/
def counterReply (p : Packet) (v : Nat) : Packet := (mkPkt 0xA p.gen p.src p.dst p.tag v []).withTc p.tc p.queue

section
variable {d : Dev} {p : Packet} {op : Nat}

/-- A request at its home is what `serveWkc` makes of it. -/
theorem opWkcReq_at_home (ha : arrives d 9 p = true) (hop : p.addr / 2 ^ 38 % 4 = op) (hh : d.homeOf p.part (p.addr / 2 ^ 40 % 256) = some (p.dst, false)) :
    (∀ v e, (d.ejected p).serveWkc (counterKey p) p.addr = .ok (v, e) → opWkcReq op p d = e.inject p.dst (counterReply p v)) ∧
      ∀ cause, (d.ejected p).serveWkc (counterKey p) p.addr = .error cause →
        opWkcReq op p d = (d.ejected p).cellFault p.dst cCounter cause (wkcDetail p.addr cause) := by
  have hmine : ¬ (p.flit.kind.toNat = 9 ∧ (p.addr / 2 ^ 38 % 4 != op) = true ∧ (p.addr / 2 ^ 38 % 4 != 3) = true) := by
    rintro ⟨-, hne, -⟩
    exact bne_iff_ne.mp hne hop
  have hhome := (ejected_homeOf d p (p.addr / 2 ^ 40 % 256)).trans hh
  rw [opWkcReq, if_neg hmine, eject_of_arrives ha]
  simp only [hhome, true_and, Bool.not_false, true_or, if_true]
  refine ⟨fun v e h => ?_, fun cause h => ?_⟩
  · rw [counterKey] at h
    rw [h]
    rfl
  · rw [counterKey] at h
    rw [h]

/-- A request that is served: the counter takes its new value, the reply enters the mesh, and besides them only flits have been counted. -/
theorem opWkcReq_served (ha : arrives d 9 p = true) (hop : p.addr / 2 ^ 38 % 4 = op) (hlt : op < 3)
    (hh : d.homeOf p.part (p.addr / 2 ^ 40 % 256) = some (p.dst, false)) (hs : (d.wkc (counterKey p)).serves op (p.addr % 2 ^ 32))
    (he : ∀ v, enters d p.dst (counterReply p v) = true) :
    let e := opWkcReq op p d
    e.wkc (counterKey p) = (d.wkc (counterKey p)).served op (p.addr % 2 ^ 32) ∧ (∀ k, k ≠ counterKey p → e.wkc k = d.wkc k) ∧
      e.fab.transit = d.fab.transit.erase p ++ [stamped d p.dst (counterReply p ((d.wkc (counterKey p)).reply op))] ∧
      e.fab.cells = d.fab.cells ∧ e.mem = d.mem ∧ RegsButFlits [] d e ∧ e.fltq = d.fltq := by
  intro e
  rw [← ejected_wkc d p] at hs ⊢
  obtain ⟨m, hserve, hkey, hothers⟩ := serveWkc_of_serves hop hlt hs
  have hin : enters { d.ejected p with fab := { (d.ejected p).fab with wkc := m } } p.dst
      (counterReply p (((d.ejected p).wkc (counterKey p)).reply op)) = true := by
    rw [ejected_eq]
    exact he _
  obtain ⟨⟨r, hr⟩, hregs⟩ := inject_entered hin
  have heq : e = _ := (opWkcReq_at_home ha hop hh).1 _ _ hserve
  rw [← heq] at hr hregs
  refine ⟨?_, fun k hk => ?_, ?_, ?_, ?_, fun o ho hf => ?_, ?_⟩
  · rw [hr]; exact hkey
  · rw [hr]; exact (hothers k hk).trans (ejected_wkc d p k)
  · rw [hr, ejected_eq]; rfl
  · rw [hr]; exact ejected_cells d p
  · rw [hr]; exact ejected_mem d p
  · refine (hregs o ho hf).trans (regsBut_ejected d p o fun hm => hf ⟨p.dst, .inr (.inr (List.mem_singleton.mp hm))⟩)
  · rw [hr]; exact ejected_fltq d p

end

/-- A fault that a cell finds while no attempt of its partition runs is only recorded (R19). -/
theorem cellFault_idle {d : Dev} {c p : Nat} (cls cause detail : Nat) (hp : d.partOfComb (combOf c) = some p) (hc : d.curCtx p = none) :
    d.cellFault c cls cause detail = d.raise { notice cls cause detail with cell := some c, part := some p } := combFault_idle _ hp hc

/-- R127: a RESET of a live counter changes no counter and is recorded. -/
theorem opWkcReq_reset_live {d : Dev} {p : Packet} (ha : arrives d 9 p = true) (hop : p.addr / 2 ^ 38 % 4 = 2)
    (hh : d.homeOf p.part (p.addr / 2 ^ 40 % 256) = some (p.dst, false)) (hl : (d.wkc (counterKey p)).live = true)
    (hp : d.partOfComb (combOf p.dst) = some p.part) (hc : d.curCtx p.part = none) (room : d.fltq.length < 64) :
    let e := opWkcReq 2 p d
    e.fab = { d.fab with transit := d.fab.transit.erase p } ∧ e.mem = d.mem ∧ Recorded d e cCounter 0x0821 (wkcDetail p.addr 0x0821) := by
  intro e
  have hserve := serveWkc_reset_live (key := counterKey p) hop ((congrArg Wkc.live (ejected_wkc d p _)).trans hl)
  have heq : e = _ := ((opWkcReq_at_home ha hop hh).2 _ hserve).trans
    (cellFault_idle _ _ _ ((ejected_partOfComb d p _).trans hp) ((ejected_curCtx d p).trans hc))
  have hrec := recorded_raise { notice cCounter 0x0821 (wkcDetail p.addr 0x0821) with cell := some p.dst, part := some p.part }
    (show (d.ejected p).fltq.length < 64 by rw [ejected_fltq]; exact room)
  rw [← heq] at hrec
  unfold Recorded at hrec ⊢
  rw [ejected_fltq] at hrec
  exact ⟨by rw [heq, raise_fab, ejected_fab], by rw [heq, raise_mem, ejected_mem], hrec⟩

/-! ### A reply at its sequencer (R125, R151) -/

theorem opWkcResp_at_sequencer {d : Dev} {p : Packet} {i : Nat} (ha : arrives d 0xA p = true) (hi : seqAt p.dst = some i) (ht : bit p.tag 15 = true) :
    opWkcResp p d = (d.ejected p).wkcDone (combOf p.dst) i p.addr := by
  rw [opWkcResp, eject_of_arrives ha]
  simp only [hi, ht, if_true]
  rfl

/-- A sequencer after the reply that its SQ.WKC waited for. -/
def SeqSt.answered (x : SeqSt) (rd : Nat) (v : Word) : SeqSt := { x.set rd v with wait := .none, pc := x.pc + 4 }

theorem wkcDone_of_wait {d : Dev} {k i rd : Nat} (v : Nat) (h : (d.seq k i).wait = .wkc rd) :
    d.wkcDone k i v = d.setSeq k i ((d.seq k i).answered rd (BitVec.ofNat 64 v)) := by
  unfold Dev.wkcDone SeqSt.answered SeqSt.set
  simp only [h]
  split <;> rfl

theorem answered_get (x : SeqSt) (rd r : Nat) (v : Word) : (x.answered rd v).get r = if r = rd ∧ rd ≠ 0 then v else x.get r := by
  refine (get_set x rd r v).trans (ite_congr (propext ⟨?_, ?_⟩) (fun _ => rfl) fun _ => rfl) <;> rintro ⟨rfl, h⟩ <;> exact ⟨rfl, h⟩

theorem answered_q (x : SeqSt) (rd : Nat) (v : Word) : (x.answered rd v).q = x.q := by rw [SeqSt.answered, set_eq]

end Sys2Proof.Machine

namespace Sys2Proof.Proofs

open Sys2Proof Sys2Proof.Machine Sys2Proof.Safety

/-- Settles O15: a request that its home serves is one change of its counter and one injection, a RESET of a live one a record, and a reply one change of its
sequencer. -/
theorem workCountersServe : Obligations.WorkCountersServe := by
  refine ⟨?served, ?live, ?reply⟩
  case served =>
    intro s p op cmd d n w reply hcmd ha hop hh hadd hreset he
    simp only [List.mem_cons, Prod.mk.injEq, List.not_mem_nil, or_false] at hcmd
    have hexec : exec (cmd p) s = done s (opWkcReq op p s.dev) := by
      obtain ⟨rfl, rfl⟩ | ⟨rfl, rfl⟩ | ⟨rfl, rfl⟩ := hcmd <;> rfl
    have hlt : op < 3 := by omega
    exact does_done _ hexec (opWkcReq_served ha hop hlt hh ⟨hadd, hreset⟩ he)
  case live =>
    intro s p d n ha hop hh hl room hp hc
    obtain ⟨hfab, hmem, hlen, -, hlast⟩ := opWkcReq_reset_live ha hop hh hl hp hc room
    refine does_done (opWkcReq 2 p s.dev) rfl ⟨by rw [hfab], by rw [hfab], hmem, hlen, ?_⟩
    have hfst := congrArg (Option.map fun x : Nat × Nat × Nat => (x.1, x.2.1)) hlast
    rw [Option.map_map] at hfst
    exact hfst
  case reply =>
    intro s p i rd d k ha hi ht hw
    have heq := (opWkcResp_at_sequencer ha hi ht).trans (wkcDone_of_wait p.addr ((congrArg SeqSt.wait (ejected_seq d p k i)).trans hw))
    rw [ejected_seq] at heq
    refine does_done _ (congrArg (done s) heq) ⟨?_, ?_, fun r => ?_, ?_, fun k2 j hne => ?_, ?_, ?_, ?_⟩
    · rw [setSeq_read]; rfl
    · rw [setSeq_read]; rfl
    · rw [setSeq_read]; exact answered_get ..
    · rw [setSeq_read]; exact answered_q ..
    · exact (seq_setSeq_ne _ _ hne).trans (ejected_seq d p k2 j)
    · exact ejected_cells d p
    · exact ejected_mem d p
    · exact regsBut_ejected d p

end Sys2Proof.Proofs

/-! ## What a sequencer reads, moves and waits for (R115, R150, R151) -/

namespace Sys2Proof.Machine

open Sys2Proof.Safety

/-- An instruction without a value gives x0 nothing and goes on. -/
theorem seqDone_seqNext (d : Dev) (k i : Nat) : SeqDone d (d.seqNext k i) k i 0 0#64 := by
  refine ⟨?_, fun r => ?_, othersAsBefore_setSeq d k i _⟩
  · rw [Dev.seqNext, setSeq_read]
  · rw [Dev.seqNext, setSeq_read, if_neg fun h => h.2 h.1]
    rfl

theorem seqWaits_seqWait (d : Dev) (k i : Nat) (w : SeqWait) : SeqWaits d (d.seqWait k i w) k i w :=
  ⟨setSeq_read d k i _, othersAsBefore_setSeq d k i _⟩

/-- Bound register n of a comb. -/
def Dev.setBnd (d : Dev) (k n v : Nat) : Dev :=
  { d with fab := { d.fab with bnd := sput (fun _ => 0#32) d.fab.bnd (64 * k + n % 64) (BitVec.ofNat 32 v) } }

theorem bndOf_setBnd_same (d : Dev) (k n v : Nat) : (d.setBnd k n v).bndOf k (n % 64) = v % 2 ^ 32 := by
  rw [Dev.bndOf, Dev.setBnd, Nat.mod_mod, sget_sput_same, BitVec.toNat_ofNat]

theorem bndOf_setBnd_ne (d : Dev) {k n k2 m : Nat} (v : Nat) (h : ¬ (k2 = k ∧ m = n % 64)) (hm : m < 64) : (d.setBnd k n v).bndOf k2 m = d.bndOf k2 m := by
  have hkey : 64 * k2 + m % 64 ≠ 64 * k + n % 64 := by omega
  rw [Dev.bndOf, Dev.setBnd, sget_sput_ne _ _ _ _ _ hkey]
  rfl

/-- An issue of a consumer delivers what landed. -/
theorem delivered_of_consumer {z : Issue} (h : z.producing = false ∧ z.chain = none) : z.delivered = z.landed := by
  obtain ⟨hp, hc⟩ := h
  simp [Issue.delivered, hp, hc]

section
variable {d : Dev} {k i : Nat} {o : SeqOps} {p : Nat}

theorem opSqBndw_eq (h : seqIssues d k i 0 0 o p) :
    opSqBndw k i o d = (d.setBnd k ((d.seq k i).get o.rs1.toNat).toNat ((d.seq k i).get o.rs2.toNat).toNat).seqNext k i := sqRun_of_seqIssues _ h

theorem opSqBndr_eq (h : seqIssues d k i 1 0 o p) : opSqBndr k i o d = d.seqPut k i o.rd.toNat (d.bndOf k ((d.seq k i).get o.rs1.toNat).toNat) :=
  sqRun_of_seqIssues _ h

theorem opSqSumr_eq (h : seqIssues d k i 0 2 o p) :
    opSqSumr k i o d =
      if ((d.seq k i).sum (((d.seq k i).get o.rs1.toNat).toNat % 16)).valid then
        d.seqPut k i o.rd.toNat (sumWord ((d.seq k i).sum (((d.seq k i).get o.rs1.toNat).toNat % 16)))
      else d := sqRun_of_seqIssues _ h

theorem opSqSump_eq (h : seqIssues d k i 1 2 o p) :
    opSqSump k i o d = d.seqPut k i o.rd.toNat (sumWord ((d.seq k i).sum (((d.seq k i).get o.rs1.toNat).toNat % 16))) := sqRun_of_seqIssues _ h

theorem opSqStat_eq (h : seqIssues d k i 2 4 o p) : opSqStat k i o d = d.seqPut k i o.rd.toNat (statWord d p) := sqRun_of_seqIssues _ h

theorem opSqLaunch_eq (h : seqIssues d k i 2 5 o p) : opSqLaunch k i o d = d.seqWait k i (.launch o.rd.toNat ((d.seq k i).get o.rs1.toNat).toNat) :=
  sqRun_of_seqIssues _ h

/-- The instruction takes an epoch: rd holds it, and the sequencer has seen it. -/
def Dev.seqStep (d : Dev) (k i rd ep : Nat) : Dev :=
  (d.seqPut k i rd ep).setSeq k i { (d.seqPut k i rd ep).seq k i with stepEpoch := ep }

/-- SQ.STEP while the partition has a CURRENT context: the epoch of an attempt that has started and is new to the sequencer. -/
theorem opSqStep_new {c : Nat} (h : seqIssues d k i 0 5 o p) (hc : d.curCtx p = some c) (hp : d.phase c = phExecute)
    (he : (d.seq k i).stepEpoch ≠ (d.att c).epoch) : opSqStep k i o d = d.seqStep k i o.rd.toNat (d.att c).epoch := by
  rw [opSqStep, sqRun_of_seqIssues _ h]
  simp only [hc]
  exact if_pos ⟨hp, he⟩

theorem opSqStep_waits {c : Nat} (h : seqIssues d k i 0 5 o p) (hc : d.curCtx p = some c)
    (hn : d.phase c ≠ phExecute ∨ (d.seq k i).stepEpoch = (d.att c).epoch) : opSqStep k i o d = d.seqWait k i (.step o.rd.toNat) := by
  have hnew : ¬ (d.phase c = phExecute ∧ (d.seq k i).stepEpoch ≠ (d.att c).epoch) := fun ⟨hp, he⟩ => hn.elim (absurd hp) he
  rw [opSqStep, sqRun_of_seqIssues _ h]
  simp only [hc]
  exact if_neg hnew

theorem seqStep_taken (d : Dev) (k i rd ep : Nat) :
    let e := d.seqStep k i rd ep
    (e.seq k i).stepEpoch = ep ∧ (e.seq k i).pc = (d.seq k i).pc + 4 ∧
      (∀ r, (e.seq k i).get r = if r = rd ∧ r ≠ 0 then BitVec.ofNat 64 ep else (d.seq k i).get r) ∧ OthersAsBefore d e k i := by
  intro e
  obtain ⟨-, hget, -, hput⟩ := seqDone_seqPut d k i rd ep
  have hseq : e.seq k i = { (d.seqPut k i rd ep).seq k i with stepEpoch := ep } := setSeq_read _ k i _
  refine ⟨by rw [hseq], ?_, fun r => ?_, rfl, fun k2 j hne => ?_⟩
  · rw [hseq]; exact seqPut_pc d k i rd ep
  · rw [hseq]; exact hget r
  · exact (seq_setSeq_ne _ _ hne).trans (hput k2 j hne)

/-- The parts of the issue that SQ.WAIT asks for. -/
def Dev.partsOf (d : Dev) (p tok : Nat) : List Issue := d.fab.issues.filter fun (z : Issue) => z.part == p && z.token == tok

/-- SQ.WAIT of an issue of consumers: once every part has ended, the tiles that landed. -/
theorem opSqWait_ended (h : seqIssues d k i 2 1 o p) (he : ∀ z ∈ d.partsOf p ((d.seq k i).get o.rs1.toNat).toNat, z.ended = true)
    (hc : ∀ z ∈ d.partsOf p ((d.seq k i).get o.rs1.toNat).toNat, z.producing = false ∧ z.chain = none) :
    opSqWait k i o d = d.seqPut k i o.rd.toNat ((d.partsOf p ((d.seq k i).get o.rs1.toNat).toNat).map Issue.landed).sum := by
  have hcons : (d.partsOf p ((d.seq k i).get o.rs1.toNat).toNat).filter (fun z => !z.producing) = d.partsOf p ((d.seq k i).get o.rs1.toNat).toNat :=
    List.filter_eq_self.mpr fun z hz => by simp [(hc z hz).1]
  have hsum : (d.partsOf p ((d.seq k i).get o.rs1.toNat).toNat).foldl (fun a z => a + z.delivered) 0 =
      ((d.partsOf p ((d.seq k i).get o.rs1.toNat).toNat).map Issue.landed).sum := by
    rw [← List.map_congr_left fun z hz => delivered_of_consumer (hc z hz), List.sum_eq_foldl, List.foldl_map]
  rw [opSqWait, sqRun_of_seqIssues _ h]
  unfold Dev.partsOf at *
  simp only [List.all_eq_true.mpr he, if_true, hcons, ite_self, hsum]

/-- SQ.WAIT while a part of the issue has not ended. -/
theorem opSqWait_waits (h : seqIssues d k i 2 1 o p) (he : ∃ z ∈ d.partsOf p ((d.seq k i).get o.rs1.toNat).toNat, z.ended = false) :
    opSqWait k i o d = d := by
  have hall : ¬ (d.partsOf p ((d.seq k i).get o.rs1.toNat).toNat).all (·.ended) = true := by
    obtain ⟨z, hz, hend⟩ := he
    exact fun hall => by simp [List.all_eq_true.mp hall z hz] at hend
  rw [opSqWait, sqRun_of_seqIssues _ h]
  exact if_neg hall

end

end Sys2Proof.Machine

namespace Sys2Proof.Proofs

open Sys2Proof Sys2Proof.Machine Sys2Proof.Safety

/-- A command that gives rd a value and goes on. -/
theorem does_seqPut {c : Instr} {s : State} {k i rd v : Nat} (h : exec c s = done s (s.dev.seqPut k i rd v)) :
    Does c s fun e => SeqDone s.dev e k i rd (BitVec.ofNat 64 v) := does_done _ h (seqDone_seqPut ..)

/-- A command after which the sequencer waits. -/
theorem does_seqWait {c : Instr} {s : State} {k i : Nat} {w : SeqWait} (h : exec c s = done s (s.dev.seqWait k i w)) :
    Does c s fun e => SeqWaits s.dev e k i w := does_done _ h (seqWaits_seqWait ..)

/-- Settles O18: each instruction that issues gives rd what it reads and goes on, leaves the sequencer waiting, or changes nothing until it can complete. -/
theorem sequencerMovesAndWaits : Obligations.SequencerMovesAndWaits := by
  refine ⟨fun s k i o p => ⟨?bndw, fun h => does_seqPut (congrArg (done s) (opSqBndr_eq h)), fun h => ⟨fun hv => ?sumr, fun hv => ?sumrWaits⟩,
      fun h => does_seqPut (congrArg (done s) (opSqSump_eq h))⟩,
    fun s k i o p => ⟨fun h => does_seqPut (congrArg (done s) (opSqStat_eq h)), fun c h hc => ⟨fun hp he => ?step, fun hn => ?stepWaits⟩,
      fun h => ⟨fun he hc => does_seqPut (congrArg (done s) (opSqWait_ended h he hc)), fun he => does_done _ (congrArg (done s) (opSqWait_waits h he)) rfl⟩,
      fun h => does_seqWait (congrArg (done s) (opSqLaunch_eq h))⟩⟩
  case bndw =>
    intro h
    refine does_done _ (congrArg (done s) (opSqBndw_eq h)) ⟨bndOf_setBnd_same s.dev k _ _, fun k2 n => bndOf_setBnd_ne s.dev _, ?_⟩
    exact seqDone_seqNext s.dev k i
  case sumr => exact does_seqPut (congrArg (done s) ((opSqSumr_eq h).trans (if_pos hv)))
  case sumrWaits => exact does_done _ (congrArg (done s) ((opSqSumr_eq h).trans (if_neg (by rw [hv]; exact Bool.false_ne_true)))) rfl
  case step => exact does_done _ (congrArg (done s) (opSqStep_new h hc hp he)) (seqStep_taken s.dev k i _ _)
  case stepWaits => exact does_seqWait (congrArg (done s) (opSqStep_waits h hc hn))

end Sys2Proof.Proofs

/-! ## A credit for a stream of zero extent (R117, R343)

A REMOTE stream with no tile ends by one EMPTY tile, which waits for a credit (R117). The REMOTE_QCREDIT that brings the credit therefore sends the tile and spends
the credit again, whether the stream has EOS_SEPARATE or not. -/

namespace Sys2Proof.Proofs

open Sys2Proof Sys2Proof.Machine Sys2Proof.Safety

/-- What a command leaves agrees, once settled, with what its arm computes. -/
theorem settle_of_does {i : Instr} {s : State} {P : Dev → Prop} {e0 : Dev} (h : Does i s P) (hx : exec i s = done s e0) :
    ∃ e, P e ∧ settle e = settle e0 := by
  obtain ⟨e, he, hp⟩ := h
  exact ⟨e, hp, congrArg State.dev (Host.Outcome.next.inj (he.symm.trans hx))⟩

/-- The only stream of an image at address 0: a REMOTE stream from station 0 to queue 0 of context 0 of the cell at (0, 0) of the participant at
position 1. -/
def emptyStreamMem : Store Byte := [(32, 1), (256, 4), (260, 104), (265, 2), (517, 8), (520, 192)]

def emptyStreamDesc : StreamDesc := parseDesc (zeros 5 ++ toLe 1 8 ++ zeros 2 ++ toLe 1 192 ++ zeros 87)

/-- The issue of that stream with the counts 0: it has no tile. -/
def emptyStreamIssue : Issue :=
  ⟨0, 0, 0, 0, 0, 0, 0, emptyStreamDesc, [0, 0, 0, 0, 0, 0], 0xFF, 0xFF, none, none, none, 0, 0, 0, [], false, [], 0, false, false⟩

/-- Task context 0 of cell 0 at station 0: output 0 to the port of the IO die at column 0, and the STREAM record of descriptor 0. -/
def emptyStreamCell : Cell :=
  { Cell.zero with
    active := [straySetup, ⟨rOut, 0, zeros 6 ++ toLe 1 0xFF ++ toLe 1 2⟩, ⟨rStream, 0, zeros 16⟩]
    tcs := [(0, { Tc.zero with st := .running })] }

/-- Partition 0 is ACTIVE with comb 0 and context 0, which is CURRENT, and holds domain 5. -/
def emptyStreamRegs : Dev :=
  ((((Dev.powerOn.wf (Reg.PART_STAT 0) Fld.PART_STAT_STATE 2).wf (Reg.PART_CTX 0) Fld.PART_CTX_COUNT 1).wr (Reg.LNK_DOMAIN 0) 5).wf
    (Reg.SCHED_STAT 0) Fld.SCHED_STAT_CUR_VALID 1).wf (Reg.MOLT_STAT 0) Fld.MOLT_STAT_ACTIVE_VALID 1

def emptyStreamState : State :=
  ⟨{ emptyStreamRegs with
     mem := emptyStreamMem
     img := { ImgPart.zero with imgs := [(0, some strayImg)] }
     fab := { Fabric.zero with cells := [(0, emptyStreamCell)], issues := [emptyStreamIssue], combMap := [(0, 1)] } }, []⟩

/-- A REMOTE_QCREDIT of one credit from the participant at position 1, its HCRC still open. -/
def openCredit : FrPkt := { frEmpty with cls := 1, src := 1, domain := 5, arg := mkArg [(37, 1, 1)] }

def oneCredit : FrPkt := { openCredit with hcrc := BitVec.ofNat 32 (frCrc 0x11 openCredit) }

theorem emptyStream_outIssue : emptyStreamState.dev.outIssue 0 0 0 = some emptyStreamIssue := by decide +kernel

/-- The credit is spent on the EMPTY tile, and the output has ended. -/
theorem emptyStream_spends : ((((receive 0x11 oneCredit emptyStreamState.dev).cell 0).tc 0).out 0) = ⟨0, 0, true⟩ := by decide +kernel

/-- Refutes O39: one credit for the output of a stream of zero extent leaves that output no credit, where the statement gives it one. -/
theorem not_remoteStreamsAndCounters : ¬ Obligations.RemoteStreamsAndCounters := by
  unfold Obligations.RemoteStreamsAndCounters
  intro h
  obtain ⟨-, hcredit, -⟩ := h emptyStreamState oneCredit 0 0 strayImg (by decide +kernel) (by decide +kernel) (by decide +kernel)
  have hplain : ∀ j, emptyStreamState.dev.outIssue 0 0 0 = some j → j.sd.eosSeparate = false := fun j hj => by
    obtain rfl := Option.some.inj (emptyStream_outIssue.symm.trans hj)
    decide +kernel
  obtain ⟨e, ⟨hcount, -⟩, he⟩ := settle_of_does
    (hcredit ⟨rStream, 0, zeros 16⟩ 0 (by decide +kernel) rfl (by decide +kernel) (by decide +kernel) hplain) rfl
  have hone : (((e.cell 0).tc 0).out 0).credits = 1 := hcount
  have hcell : e.cell 0 = (receive 0x11 oneCredit emptyStreamState.dev).cell 0 := by
    rw [Dev.cell, ← settle_fab e, he, settle_fab]
    rfl
  rw [hcell, emptyStream_spends] at hone
  cases hone

end Sys2Proof.Proofs
